-- ==== Sys2Proof/Word.lean ====
section
/-! DEFINITION. The word types of the module. -/
namespace Sys2Proof

/-- A doubleword: a data register, an address register, a 64-bit register or stake word (07 R215). -/
abbrev Word := BitVec 64
/-- One byte of data memory (07 R230). -/
abbrev Byte := BitVec 8
/-- The value of an accumulator (07 R215), and one 128-bit signature item (03 R76). -/
abbrev Quad := BitVec 128
/-- A code (syllable) address (07 R212). -/
abbrev CodeAddr := BitVec 48
/-- A register number in an instruction field (07 R223). -/
abbrev Reg := BitVec 4

end Sys2Proof
end

