-- ==== Sys2Proof/Machine/Types.lean ====
section
/-! DEFINITION. The data that commands carry: who acts, stake records, segments, frames, command headers. -/
namespace Sys2Proof

/-- A compute unit by physical identity (00 R9). -/
inductive UnitId | u0 | u1
  deriving DecidableEq, Repr

/-- The other unit. -/
def UnitId.other : UnitId → UnitId
  | .u0 => .u1
  | .u1 => .u0

/-- 0 for Unit 0, 1 for Unit 1. -/
def UnitId.toNat : UnitId → Nat
  | .u0 => 0
  | .u1 => 1

/-- A Traverse die, T0 to T3 (01 R16). -/
abbrev DieId := Fin 4
/-- A logical core, 0 to 47 (03 R85). -/
abbrev CoreId := Fin 48
/-- A traverse engine of a unit (05 R129). -/
abbrev EngineId := Fin 256
/-- A station (05 R129). -/
abbrev StationId := Fin 0x100000
/-- A port, by its first lane (01 R16). -/
abbrev PortId := Fin 1024

/-- A processor of the module; its profile is C, T or S (07 R210). -/
inductive Proc
  | core (u : UnitId) (l : CoreId)
  | engine (u : UnitId) (e : EngineId)
  | service
  deriving DecidableEq, Repr

/-- The three profiles (07 R210). -/
inductive Profile | c | t | s
  deriving DecidableEq, Repr

/-- One execution of an instruction: the processor, and the UCC at which it executes (03 R52). -/
structure Issue where
  proc : Proc
  ucc : Nat
  deriving DecidableEq, Repr

/-- Operands of an instruction that has an F1 form (Dd := Dd op Ds) and an F2 form (07 R228). -/
inductive Alu3
  | short (d s : Reg)
  | long (d s t : Reg)
  deriving DecidableEq, Repr

/-- The fields of an F3M data address (07 R223, R224). -/
structure Ea where
  a : Reg
  x : Reg
  xv : Bool
  sc : BitVec 2
  disp : BitVec 19
  deriving DecidableEq, Repr

/-- The fields of an F2S string instruction, and whether a REP precedes it (07 R223, R231). -/
structure StrOp where
  rep : Bool
  e : Reg
  stop : Bool
  dir : Bool
  sz : BitVec 2
  deriving DecidableEq, Repr

/-- Why a decode raises ILLEGAL in the row UNASSIGNED_INSTRUCTION (07 R225, R234). -/
inductive BadDecode
  | unassigned | reservedField | repBeforeOther | zeroFill
  deriving DecidableEq, Repr

/-- A side of a mailbox channel (16 R460). -/
inductive Side | a | b
  deriving DecidableEq, Repr

/-- The other side of a channel. -/
def Side.other : Side → Side
  | .a => .b
  | .b => .a

/-- The header of a Sahya command: the channel it came on, the side that sent it, the frame version (2 when
`v2`), its tag (16 R466). -/
structure CmdHdr where
  chan : Fin 64
  side : Side
  v2 : Bool
  tag : Word
  deriving DecidableEq, Repr

/-- The header of a stake record as a unit sees it: STAMP, the source's SEQ (03 R64). -/
structure StakeHdr where
  stamp : Nat
  seq : Nat
  deriving DecidableEq, Repr

/-- The verdict of one comparator on a chain (04 R99). -/
inductive Verdict | isMatch | mismatch | missing
  deriving DecidableEq, Repr

/-- The TVT segment types (06 R183). -/
inductive SegType | data | ack | init | initAck | ready | close | closeAck | probe
  deriving DecidableEq, Repr

/-- The body of INIT, INIT_ACK and READY (06 R186). -/
structure HsBody where
  myConn : Word
  nextExp : Word
  firstUnacked : Word
  nextSend : Word
  target : BitVec 20
  resume : Bool
  nonce : Word
  deriving DecidableEq, Repr

/-- A TVT segment (06 R183), or for a native station the message header and CTL fields that take its place (R202).
`srcAddr`, `srcPort` are those of the datagram that carried it (for a native message: the source module ID). -/
structure Segment where
  ver : BitVec 4
  ackv : Bool
  last : Bool
  retx : Bool
  wnd : Nat
  connId : Word
  seq : Nat
  ack : Nat
  moff : Nat
  mlen : Nat
  sack : List (Nat × Nat)
  payload : List Byte
  body : Option HsBody
  check : Quad
  srcAddr : Quad
  srcPort : BitVec 16
  deriving DecidableEq, Repr

/-- An Ethernet frame as the die and the classification see it (06 R175, R177, R178): its length without FCS, its
addresses, the number of 802.1Q tags, and the results of the byte checks that a standard fixes. `bytes` is the frame
without FCS. -/
structure EthFrame where
  dstMac : BitVec 48
  tags : Nat
  len : Nat
  fcsOk : Bool
  isIp : Bool
  ipv6 : Bool
  dstIp : Quad
  isUdp : Bool
  udpPort : BitVec 16
  ipOk : Bool
  udpOk : Bool
  bytes : List Byte
  deriving DecidableEq, Repr

/-- A native flit (06 R198). -/
structure Flit where
  isCtl : Bool
  first : Bool
  last : Bool
  llseq : BitVec 16
  dst : BitVec 16
  src : BitVec 16
  dstn : BitVec 20
  srcn : BitVec 20
  payload : List Byte
  deriving DecidableEq, Repr

/-- The payload of an INPUT record (03 R65, 06 R176): a frame, a flit, or a port event. -/
inductive InputBody
  | frame (f : EthFrame)
  | flit (f : Flit)
  | portEvent (up : Bool)
  deriving DecidableEq, Repr

/-- The end of a traverse program (05 R138). -/
inductive ProgVerdict
  | accept (q : Fin 4)
  | discard
  | fault
  deriving DecidableEq, Repr

/-- A whole inbound message, with the verdict its station's program gives (05 R138, R141). -/
structure InMsg where
  seq : Nat
  payload : List Byte
  verdict : ProgVerdict
  deriving DecidableEq, Repr

/-- A mirror message (05 R157): the fields of its words 0 and 1, its sender, and those of the record's header. -/
structure MirrorMsg where
  obook : BitVec 8
  isState : Bool
  restart : Bool
  mseq : Nat
  otail : Nat
  srcModule : BitVec 16
  kind : BitVec 4
  jmode : BitVec 2
  modid : BitVec 16
  originBsn : Nat
  seq : Nat
  cn : Nat
  station : BitVec 20
  link : Word
  payload : List Byte
  deriving DecidableEq, Repr

/-- One request of the coherence protocol (11 R338). -/
inductive ReqKind | rds | rdx | upg | rdo | wrl | wrt | stc | cln | fls
  deriving DecidableEq, Repr

/-- A coherence request: the agent position, the line, the parcel tag, the PIN flag with the engine index, and the
begin-stamp of a transactional request (11 R338, R344, R345). -/
structure CohReq where
  agent : Fin 80
  line : BitVec 46
  parcel : BitVec 6
  pin : Bool
  engine : Option (Fin 16)
  txStamp : Option (Nat × Nat)
  deriving DecidableEq, Repr

/-- Where a register of no row of its own lies (00 R11): the CHN_, LVL_, CLO_, traverse-cluster, cipher-page,
compression, mailbox and doorbell registers by control-window offset in a unit; the bench registers (BAR2); the
EXP_ registers and unit windows of the expert window (BAR4). -/
inductive RegSpace
  | control (u : UnitId) (parcel : BitVec 6) (sup : Bool)
  | bench
  | expert
  | unitWindow (u : UnitId)
  deriving DecidableEq, Repr

/-- The attributes of a key slot as KEY.* carries them (16 R482, word 3). -/
abbrev KeyAttrs := Word

/-- What the stake line finds as it reads a record for the Backsight (03 R63, R69). -/
inductive LineRead
  | good
  | corrected
  | poison
  | missing
  deriving DecidableEq, Repr

/-- A DRAM command that the scheduler may issue (12 R365). -/
inductive DramCmd | read | write | activate | precharge
  deriving DecidableEq, Repr

/-- An error in one symbol of a burst: the byte that a device supplies to a sub-word arrives with some bits turned (13 R384). -/
structure SymErr where
  sub : Fin 8
  dev : Fin 18
  flip : Byte
  deriving DecidableEq, Repr

/-- What a DRAM read brings from its devices: the stored symbols with these errors, or nothing by MC_DRL (12 R370). -/
inductive DramRead
  | data (errs : List SymErr)
  | late
  deriving DecidableEq, Repr

/-- What the code of a fieldbook word finds as it is read (13 R399, R401). -/
inductive FbRead | clean | ce | ue
  deriving DecidableEq, Repr

/-- A microcode patch image's contents (10 R325): the ROM revision it requires, the patch ID, the microwords and the
match entries. -/
structure PatchImage where
  romRev : Nat
  patchId : BitVec 32
  words : List (BitVec 160)
  entries : List Word
  deriving DecidableEq, Repr

/-- An output of a unit (04 R94): a frame for a port, or a write of a mailbox page by a master (16 R459). -/
inductive OutBody
  | link (port : PortId) (bytes : List Byte)
  | mailbox (chan : Fin 64) (mid : BitVec 16) (off : BitVec 12) (value : Word)
  deriving DecidableEq, Repr

/-- Where a compare ends: a Traverse die, the hub on service outputs, the hub on benchmark records (04 R97, R106). -/
inductive CmpPlace
  | die (d : DieId)
  | service
  | bench
  deriving DecidableEq, Repr

/-- A register of access RWS (00 R11): CHN_CFG, and the RWS registers of a DRAM controller (12 R382). -/
inductive RwsReg
  | chnCfg
  | mcSched (c : Fin 12)
  | mcQos (c : Fin 12) (p : Fin 8)
  | mcRef (c : Fin 12)
  | mcMaint (c : Fin 12)
  | mcPwrmode (c : Fin 12)
  | mcFchg (c : Fin 12)
  | mcBankRetire (c : Fin 12) (i : Fin 8)
  deriving DecidableEq, Repr

/-- One path of a path group (06 R204). -/
structure PathEntry where
  port : PortId
  valid : Bool
  vlanp : Bool
  vid : BitVec 12
  nhmac : BitVec 48
  deriving DecidableEq, Repr

/-- What a CTL CFG stake applies in a unit (03 R66, 04 R128): a DIVERGE value, the levelled effect of a command or of
the hub, or a staked write of a levelled field (16 R485). -/
inductive CfgEffect
  | diverge (v : BitVec 2)
  | lagPend (v : BitVec 7)
  | cloCfg (policy : Bool) (auto : BitVec 2) (wd : BitVec 8) (inj : BitVec 16)
  | cloStatus (unchecked down : BitVec 4) (retired : BitVec 8)
  | injOk (v : Bool)
  | cloCount (mismatch referee attrib retire : BitVec 16)
  | relevelPhase (phase : BitVec 3) (kind : Bool) (passes : BitVec 8)
  | levelState (state : BitVec 3) (role : BitVec 2)
  | portsDown (d : DieId)
  | portConfig (p : PortId) (cfg : Word) (mac : BitVec 48) (raw : BitVec 20)
  | stationGrant (first count : Nat) (parcel : Option (BitVec 6)) (quota : Nat)
  | book (n : BitVec 8) (op : BitVec 2) (w0 w1 : Word)
  | bookResend (n : BitVec 8)
  | takeover (mbook jbook : BitVec 8) (pairs : List (BitVec 20 × BitVec 20))
  | pathAddr (i : BitVec 8) (ipv6 : Bool) (addr : Quad)
  | pathGroup (g : BitVec 12) (spread half : Bool) (paths : List PathEntry)
  | pathLink (tvtPort rto : BitVec 16) (steps : BitVec 4)
  | modId (id : BitVec 16)
  | parcelCreate (p : BitVec 6) (sys : Bool) (ctxBase : BitVec 52)
  | parcelDestroy (p : BitVec 6)
  | parcelCores (p : BitVec 6) (cores : BitVec 48) (entry : CodeAddr)
  | parcelMap (p : BitVec 6) (remove : Bool) (w : Word)
  | parcelSegment (mseg : Nat) (acl : Word) (code : Bool)
  | parcelRetire (remove : Bool) (page : BitVec 40)
  | parcelVector (p : BitVec 6) (v : BitVec 8) (core : Option CoreId)
  | cipherPage (page : Fin 1024) (owner : Option (BitVec 6 × BitVec 16))
  | cipherChannel (e : Fin 2) (c : Fin 16) (owner : Option (BitVec 6 × BitVec 16))
  | cipherLock (en : Bool) (page : Fin 1024)
  | mbxBind (n : Fin 64) (w : Word)
  | blockReset (kind : BitVec 2) (k : Fin 16)
  | scrubCancel
  | unitWrite (off : BitVec 26) (w : Word)
  deriving DecidableEq, Repr

end Sys2Proof
end

