-- ==== Sys2Proof/Syntax.lean ====
section
/-! DEFINITION. The commands: one constructor for each row of spec/opcode_table.json. -/
namespace Sys2Proof

/-- The commands of the module, in the table's order; the rule in each docstring is the row's. -/
inductive Instr
  -- the chain
  /-- R30 -/ | chainTick
  /-- R33 -/ | unitEdge (u : UnitId)
  /-- R94 -/ | outputEmit (u : UnitId) (ucc : Nat) (o : OutBody)
  /-- R37 -/ | backpressureEnd (d : DieId)
  /-- R38 -/ | rwsRegisterWrite (r : RwsReg) (w : Word)
  /-- R41 -/ | syncPulseOut
  /-- R41 -/ | syncPulseIn
  /-- R43 -/ | syncPulseCheck (ok : Bool)
  /-- R45 -/ | relockTimeout
  -- stakes
  /-- R65 -/ | inputStake (u : UnitId) (d : DieId) (h : StakeHdr) (p : PortId) (b : InputBody) (v : ProgVerdict)
  /-- R70 -/ | entropyStake (u : UnitId) (h : StakeHdr) (w0 w1 w2 w3 : Word)
  /-- R463 -/ | hostStake (u : UnitId) (h : StakeHdr) (chan : Fin 64) (side : Side) (notice : Bool) (ws : List Word)
  /-- R71 -/ | timerStake (u : UnitId) (h : StakeHdr) (alarm : Bool) (tod : Word)
  /-- R81 -/ | echoStake (u : UnitId) (h : StakeHdr) (l : CoreId) (kind : BitVec 8) (index : BitVec 24)
  /-- R36 -/ | pressureStake (u : UnitId) (d : DieId) (h : StakeHdr) (on space : Bool)
  /-- R38 -/ | ctlRwsWrite (u : UnitId) (h : StakeHdr) (r : RwsReg) (w : Word)
  /-- R128 -/ | ctlCfg (u : UnitId) (h : StakeHdr) (e : CfgEffect)
  /-- R316 -/ | ctlSpare (u : UnitId) (h : StakeHdr) (l : CoreId) (p : Fin 56)
  /-- R88 -/ | ctlDeconfig (u : UnitId) (h : StakeHdr) (l : CoreId)
  /-- R112 -/ | ctlDrop (u : UnitId) (h : StakeHdr) (dropped : UnitId) (cause : BitVec 8)
  /-- R527 -/ | ctlThrottle (u : UnitId) (h : StakeHdr) (level : BitVec 3)
  /-- R518 -/ | ctlPower (u : UnitId) (h : StakeHdr) (k : Fin 24) (on : Bool)
  /-- R325 -/ | ctlMcode (u : UnitId) (h : StakeHdr) (img : PatchImage)
  /-- R276 -/ | ctlCode (u : UnitId) (h : StakeHdr) (frame : BitVec 52) (ws : List Word)
  /-- R394 -/ | ctlScrub (u : UnitId) (h : StakeHdr) (base len : Nat)
  /-- R79 -/ | ctlBench (u : UnitId) (h : StakeHdr) (cn : Nat)
  /-- R90 -/ | ctlDebug (u : UnitId) (h : StakeHdr) (resume : Bool) (cores : BitVec 48)
  /-- R66 -/ | ctlSync (u : UnitId) (h : StakeHdr) (lock : Bool)
  /-- R308 -/ | ctlMchk (u : UnitId) (h : StakeHdr) (cores : BitVec 48) (source : BitVec 12)
  /-- R63 -/ | stakeDeadline (source : Fin 5) (seq : Nat) (o : LineRead)
  /-- R70 -/ | entDataRead (u : UnitId) (l : CoreId) (d : Reg)
  /-- R71 -/ | todUpdate (tod : Word)
  /-- R71 -/ | todAlarm (tod : Word)
  -- retry, sparing, patches
  /-- R80 -/ | echoIssue (l : CoreId) (ucc : Nat) (kind : BitVec 8) (index : BitVec 24) (inTime : Bool)
  /-- R313 -/ | instructionRetry (u : UnitId) (l : CoreId) (ucc : Nat) (kind : BitVec 8) (index : BitVec 24)
  /-- R316 -/ | spareComplete (u : UnitId)
  /-- R325 -/ | mpatchResume (u : UnitId)
  /-- R90 -/ | jtagDebugRequest (cores : BitVec 48)
  -- closure and re-level
  /-- R99 -/ | compareEnd (p : CmpPlace) (wrongA wrongB : Option Verdict)
  /-- R99 -/ | verdictTimeout (d : DieId)
  /-- R100 -/ | refereeEnd (d : DieId)
  /-- R180 -/ | queueRoomRelease (p : PortId)
  /-- R105 -/ | injectionTestSlot (d : DieId) (nsLeft : Nat) (passA passB : Bool)
  /-- R108 -/ | divergenceDecision
  /-- R109 -/ | benchLate (late0 late1 : Bool)
  /-- R117 -/ | autoRelevel
  /-- R119 -/ | mapSweepEnd (u : UnitId) (mapB : Bool)
  /-- R121 -/ | prepareEnd (ok : Bool)
  /-- R121 -/ | unionEnd
  /-- R121 -/ | copyPassEnd
  /-- R122 -/ | freezeStepEnd
  -- stations and the fieldbook
  /-- R135 -/ | stationOpen (u : UnitId) (s : StationId) (resume : Bool) (desc : BitVec 52)
  /-- R135 -/ | stationQuiesce (u : UnitId) (s : StationId)
  /-- R135 -/ | quiesceComplete (u : UnitId) (s : StationId)
  /-- R135 -/ | stationClose (u : UnitId) (s : StationId)
  /-- R165 -/ | stationReplay (u : UnitId) (s : StationId)
  /-- R552 -/ | deferredCommand (u : UnitId) (s : StationId)
  /-- R134 -/ | txDoorbell (u : UnitId) (s : StationId) (prod : BitVec 32)
  /-- R134 -/ | rxPostDoorbell (u : UnitId) (s : StationId) (q : Fin 4) (prod : BitVec 32)
  /-- R134 -/ | cqConsume (u : UnitId) (s : StationId) (q : Fin 4) (cons : BitVec 32)
  /-- R144 -/ | send (u : UnitId) (s : StationId)
  /-- R145 -/ | sendSettle (u : UnitId) (s : StationId)
  /-- R145 -/ | settle (u : UnitId) (s : StationId)
  /-- R400 -/ | fbWriteComplete (u : UnitId) (fails : Fin 5)
  /-- R401 -/ | fbReadReturn (u : UnitId) (off : BitVec 33) (o : FbRead)
  /-- R158 -/ | mirrorMessageReceive (u : UnitId) (s : StationId) (m : MirrorMsg)
  /-- R159 -/ | confirmationReceive (u : UnitId) (book : BitVec 8) (confBsn confMseq : Nat)
  /-- R160 -/ | mirrorLostTimeout (u : UnitId) (book : BitVec 8)
  -- links
  /-- R175 -/ | frameReceive (p : PortId) (f : EthFrame)
  /-- R179 -/ | stakeDrain (p : PortId)
  /-- R179 -/ | pauseReceive (p : PortId) (quanta : BitVec 16)
  /-- R176 -/ | portUp (p : PortId)
  /-- R176 -/ | portDown (p : PortId)
  /-- R207 -/ | dieStop (d : DieId)
  /-- R201 -/ | flitReceive (p : PortId) (f : Flit) (crcOk : Bool)
  /-- R199 -/ | llack (p : PortId) (llseq : BitVec 16)
  /-- R199 -/ | llnak (p : PortId) (llseq : BitVec 16)
  /-- R200 -/ | credit (p : PortId) (vc0 vc1 : BitVec 16)
  /-- R199 -/ | llackTimer (p : PortId)
  /-- R199 -/ | blockLockLoss (p : PortId)
  -- transport
  /-- R189 -/ | tvtData (u : UnitId) (s : StationId) (g : Segment) (v : ProgVerdict)
  /-- R192 -/ | tvtAck (u : UnitId) (s : StationId) (g : Segment)
  /-- R187 -/ | tvtInit (u : UnitId) (s : StationId) (g : Segment)
  /-- R187 -/ | tvtInitAck (u : UnitId) (s : StationId) (g : Segment)
  /-- R188 -/ | tvtReady (u : UnitId) (s : StationId) (g : Segment)
  /-- R187 -/ | tvtClose (u : UnitId) (s : StationId) (g : Segment)
  /-- R187 -/ | tvtCloseAck (u : UnitId) (s : StationId) (g : Segment)
  /-- R183 -/ | tvtProbe (u : UnitId) (s : StationId) (g : Segment)
  /-- R192 -/ | retransmitTimeout (u : UnitId) (s : StationId)
  /-- R193 -/ | keepaliveTimeout (u : UnitId) (s : StationId)
  /-- R187 -/ | lostResumeTimer (u : UnitId) (s : StationId)
  /-- R187 -/ | nonceTieRetry (u : UnitId) (s : StationId)
  /-- R189 -/ | reassemblyTimeout (u : UnitId) (s : StationId) (seq : Nat)
  /-- R191 -/ | deferredAck (u : UnitId) (s : StationId)
  -- instructions: misc, unary, moves, integer
  /-- R228 -/ | nop (i : Issue)
  /-- R273 -/ | order (i : Issue)
  /-- R274 -/ | plumb (i : Issue)
  /-- R275 -/ | csync (i : Issue)
  /-- R221 -/ | ret (i : Issue)
  /-- R279 -/ | clres (i : Issue)
  /-- R285 -/ | tend (i : Issue)
  /-- R298 -/ | rte (i : Issue)
  /-- R220 -/ | ei (i : Issue)
  /-- R220 -/ | di (i : Issue)
  /-- R307 -/ | wait (i : Issue)
  /-- R307 -/ | waitEnd (u : UnitId) (l : CoreId)
  /-- R228 -/ | pushd (i : Issue) (s : Reg)
  /-- R228 -/ | popd (i : Issue) (d : Reg)
  /-- R228 -/ | apush (i : Issue) (s : Reg)
  /-- R228 -/ | apop (i : Issue) (d : Reg)
  /-- R228 -/ | jmpr (i : Issue) (a : Reg)
  /-- R221 -/ | callr (i : Issue) (a : Reg)
  /-- R240 -/ | neg (i : Issue) (d : Reg)
  /-- R240 -/ | not (i : Issue) (d : Reg)
  /-- R240 -/ | clz (i : Issue) (d : Reg)
  /-- R240 -/ | popc (i : Issue) (d : Reg)
  /-- R240 -/ | bswap (i : Issue) (d : Reg)
  /-- R243 -/ | kclr (i : Issue) (k : Reg)
  /-- R228 -/ | mov (i : Issue) (d s : Reg)
  /-- R240 -/ | add (i : Issue) (o : Alu3)
  /-- R240 -/ | sub (i : Issue) (o : Alu3)
  /-- R240 -/ | and (i : Issue) (o : Alu3)
  /-- R240 -/ | or (i : Issue) (o : Alu3)
  /-- R240 -/ | xor (i : Issue) (o : Alu3)
  /-- R240 -/ | cmp (i : Issue) (d s : Reg)
  /-- R216 -/ | amov (i : Issue) (d s : Reg)
  /-- R216 -/ | amovd (i : Issue) (d s : Reg)
  /-- R216 -/ | dmova (i : Issue) (d s : Reg)
  /-- R216 -/ | aadd (i : Issue) (o : Alu3)
  /-- R240 -/ | acmp (i : Issue) (d s : Reg)
  /-- R240 -/ | addq (i : Issue) (d : Reg) (q : BitVec 4)
  /-- R228 -/ | aaddq (i : Issue) (d : Reg) (q : BitVec 4)
  /-- R240 -/ | addc (i : Issue) (d s t : Reg)
  /-- R240 -/ | subb (i : Issue) (d s t : Reg)
  /-- R240 -/ | andn (i : Issue) (d s t : Reg)
  /-- R240 -/ | shl (i : Issue) (d s t : Reg)
  /-- R240 -/ | shr (i : Issue) (d s t : Reg)
  /-- R240 -/ | sar (i : Issue) (d s t : Reg)
  /-- R240 -/ | rol (i : Issue) (d s t : Reg)
  /-- R240 -/ | ror (i : Issue) (d s t : Reg)
  /-- R240 -/ | mul (i : Issue) (d s t : Reg)
  /-- R241 -/ | div (i : Issue) (d s t : Reg)
  /-- R241 -/ | divu (i : Issue) (d s t : Reg)
  /-- R241 -/ | rem (i : Issue) (d s t : Reg)
  /-- R241 -/ | remu (i : Issue) (d s t : Reg)
  /-- R228 -/ | sext (i : Issue) (d s t : Reg)
  /-- R228 -/ | zext (i : Issue) (d s t : Reg)
  /-- R228 -/ | csel (i : Issue) (cond : BitVec 4) (d s t : Reg)
  /-- R216 -/ | asub (i : Issue) (d s t : Reg)
  /-- R240 -/ | adiff (i : Issue) (d s t : Reg)
  -- accumulators, decimal, floating point
  /-- R242 -/ | mulwu (i : Issue) (k s t : Reg)
  /-- R242 -/ | mulws (i : Issue) (k s t : Reg)
  /-- R242 -/ | macwu (i : Issue) (k s t : Reg)
  /-- R242 -/ | macws (i : Issue) (k s t : Reg)
  /-- R243 -/ | kadd (i : Issue) (k s : Reg)
  /-- R243 -/ | kaddc (i : Issue) (k s : Reg)
  /-- R243 -/ | ksub (i : Issue) (k s : Reg)
  /-- R243 -/ | ksubb (i : Issue) (k s : Reg)
  /-- R243 -/ | kmov (i : Issue) (k s : Reg)
  /-- R243 -/ | mfkl (i : Issue) (d k : Reg)
  /-- R243 -/ | mfkh (i : Issue) (d k : Reg)
  /-- R243 -/ | mtkl (i : Issue) (k s : Reg)
  /-- R243 -/ | mtkh (i : Issue) (k s : Reg)
  /-- R243 -/ | kcmp (i : Issue) (k s : Reg)
  /-- R246 -/ | dadd (i : Issue) (k s : Reg)
  /-- R246 -/ | dsub (i : Issue) (k s : Reg)
  /-- R247 -/ | dcmp (i : Issue) (k s : Reg)
  /-- R249 -/ | cvbd (i : Issue) (k s : Reg)
  /-- R249 -/ | cvdb (i : Issue) (d k : Reg)
  /-- R248 -/ | dshl (i : Issue) (k : Reg) (n : BitVec 6)
  /-- R248 -/ | dshr (i : Issue) (k : Reg) (n : BitVec 6)
  /-- R254 -/ | fadd (i : Issue) (single : Bool) (d s t : Reg)
  /-- R254 -/ | fsub (i : Issue) (single : Bool) (d s t : Reg)
  /-- R254 -/ | fmul (i : Issue) (single : Bool) (d s t : Reg)
  /-- R254 -/ | fdiv (i : Issue) (single : Bool) (d s t : Reg)
  /-- R254 -/ | fsqrt (i : Issue) (single : Bool) (d s : Reg)
  /-- R254 -/ | fma (i : Issue) (single : Bool) (d s t : Reg)
  /-- R261 -/ | fcmp (i : Issue) (single : Bool) (s t : Reg)
  /-- R254 -/ | fneg (i : Issue) (single : Bool) (d s : Reg)
  /-- R254 -/ | fabs (i : Issue) (single : Bool) (d s : Reg)
  /-- R260 -/ | fcvt (i : Issue) (single : Bool) (d s : Reg)
  /-- R260 -/ | fcvti (i : Issue) (single : Bool) (d s : Reg)
  /-- R260 -/ | icvtf (i : Issue) (single : Bool) (d s : Reg)
  -- control registers, immediates, strings, atomics, system
  /-- R219 -/ | mfc (i : Issue) (d : Reg) (code : BitVec 12)
  /-- R219 -/ | mtc (i : Issue) (code : BitVec 12) (s : Reg)
  /-- R240 -/ | addi (i : Issue) (d s : Reg) (imm : BitVec 12)
  /-- R228 -/ | andi (i : Issue) (d s : Reg) (imm : BitVec 12)
  /-- R228 -/ | ori (i : Issue) (d s : Reg) (imm : BitVec 12)
  /-- R228 -/ | xori (i : Issue) (d s : Reg) (imm : BitVec 12)
  /-- R240 -/ | cmpi (i : Issue) (s : Reg) (imm : BitVec 12)
  /-- R228 -/ | shifti (i : Issue) (d s : Reg) (imm : BitVec 12)
  /-- R228 -/ | aaddi (i : Issue) (d s : Reg) (imm : BitVec 12)
  /-- R231 -/ | movs (i : Issue) (o : StrOp)
  /-- R231 -/ | cmps (i : Issue) (o : StrOp)
  /-- R231 -/ | scans (i : Issue) (o : StrOp)
  /-- R231 -/ | fills (i : Issue) (o : StrOp)
  /-- R231 -/ | xlats (i : Issue) (o : StrOp)
  /-- R251 -/ | dadds (i : Issue) (o : StrOp)
  /-- R277 -/ | ldres (i : Issue) (d s : Reg)
  /-- R280 -/ | pinWaitEnd (u : UnitId) (l : CoreId)
  /-- R278 -/ | stcond (i : Issue) (d s t : Reg)
  /-- R293 -/ | tabt (i : Issue) (fn : BitVec 8)
  /-- R339 -/ | clean (i : Issue) (s : Reg) (imm : BitVec 12)
  /-- R339 -/ | flush (i : Issue) (s : Reg) (imm : BitVec 12)
  /-- R451 -/ | lcode (i : Issue) (s t : Reg)
  /-- R220 -/ | svc (i : Issue) (imm : BitVec 12)
  /-- R228 -/ | serviceIoRead (i : Issue) (d s t : Reg)
  /-- R228 -/ | serviceIoWrite (i : Issue) (d s t : Reg)
  /-- R228 -/ | serviceStakeIssue (i : Issue) (d s t : Reg)
  /-- R228 -/ | serviceKeyTransfer (i : Issue) (d s t : Reg)
  -- loads, stores, branches, wide immediates
  /-- R230 -/ | ldb (i : Issue) (r : Reg) (ea : Ea)
  /-- R230 -/ | ldbu (i : Issue) (r : Reg) (ea : Ea)
  /-- R230 -/ | ldh (i : Issue) (r : Reg) (ea : Ea)
  /-- R230 -/ | ldhu (i : Issue) (r : Reg) (ea : Ea)
  /-- R230 -/ | ldw (i : Issue) (r : Reg) (ea : Ea)
  /-- R230 -/ | ldwu (i : Issue) (r : Reg) (ea : Ea)
  /-- R230 -/ | ldd (i : Issue) (r : Reg) (ea : Ea)
  /-- R230 -/ | stb (i : Issue) (r : Reg) (ea : Ea)
  /-- R230 -/ | sth (i : Issue) (r : Reg) (ea : Ea)
  /-- R230 -/ | stw (i : Issue) (r : Reg) (ea : Ea)
  /-- R230 -/ | std (i : Issue) (r : Reg) (ea : Ea)
  /-- R230 -/ | ald (i : Issue) (r : Reg) (ea : Ea)
  /-- R230 -/ | ast (i : Issue) (r : Reg) (ea : Ea)
  /-- R230 -/ | ldk (i : Issue) (r : Reg) (ea : Ea)
  /-- R230 -/ | stk (i : Issue) (r : Reg) (ea : Ea)
  /-- R224 -/ | b (i : Issue) (cond : BitVec 4) (disp : BitVec 30)
  /-- R221 -/ | call (i : Issue) (cond : BitVec 4) (disp : BitVec 30)
  /-- R282 -/ | tbeg (i : Issue) (cond : BitVec 4) (disp : BitVec 30)
  /-- R228 -/ | movi (i : Issue) (d : Reg) (imm : BitVec 30)
  /-- R228 -/ | aref (i : Issue) (r : Reg) (ea : Ea)
  /-- R228 -/ | jmpf (i : Issue) (target : CodeAddr)
  /-- R221 -/ | callf (i : Issue) (target : CodeAddr)
  /-- R228 -/ | ldi (i : Issue) (d : Reg) (imm : BitVec 44)
  /-- R228 -/ | ldih (i : Issue) (d : Reg) (imm : BitVec 44)
  /-- R228 -/ | aldi (i : Issue) (d : Reg) (imm : BitVec 44)
  -- interrupts, transactions, store buffer
  /-- R303 -/ | interruptEntry (u : UnitId) (l : CoreId)
  /-- R306 -/ | timerInterrupt (u : UnitId) (l : CoreId) (ucc : Nat)
  /-- R286 -/ | transactionAbort (u : UnitId) (l : CoreId) (code : BitVec 8)
  /-- R267 -/ | storeBufferDrain (u : UnitId) (l : CoreId)
  -- coherence
  /-- R341 -/ | rds (u : UnitId) (q : CohReq)
  /-- R341 -/ | rdx (u : UnitId) (q : CohReq)
  /-- R341 -/ | upg (u : UnitId) (q : CohReq)
  /-- R341 -/ | rdo (u : UnitId) (q : CohReq)
  /-- R341 -/ | wrl (u : UnitId) (q : CohReq) (data : List Byte)
  /-- R342 -/ | wrt (u : UnitId) (q : CohReq) (off : BitVec 6) (data : List Byte)
  /-- R344 -/ | stc (u : UnitId) (q : CohReq) (off : BitVec 3) (data : Word)
  /-- R341 -/ | cln (u : UnitId) (q : CohReq)
  /-- R341 -/ | fls (u : UnitId) (q : CohReq)
  /-- R341 -/ | evc (u : UnitId) (agent : Fin 80) (line : BitVec 46)
  /-- R341 -/ | evd (u : UnitId) (agent : Fin 80) (line : BitVec 46) (poison : Bool)
  /-- R348 -/ | evw (u : UnitId) (agent : Fin 80) (line : BitVec 46)
  /-- R334 -/ | fws (u : UnitId) (agent : Fin 80) (line : BitVec 46)
  /-- R334 -/ | fwx (u : UnitId) (agent : Fin 80) (line : BitVec 46)
  /-- R334 -/ | fwo (u : UnitId) (agent : Fin 80) (line : BitVec 46)
  /-- R334 -/ | inv (u : UnitId) (agent : Fin 80) (line : BitVec 46) (drop : Bool)
  /-- R334 -/ | clnf (u : UnitId) (agent : Fin 80) (line : BitVec 46)
  /-- R338 -/ | dat (u : UnitId) (agent : Option (Fin 80)) (line : BitVec 46)
  /-- R341 -/ | ack (u : UnitId) (agent : Fin 80) (line : BitVec 46)
  /-- R349 -/ | gone (u : UnitId) (agent : Fin 80) (line : BitVec 46)
  /-- R341 -/ | gnt (u : UnitId) (agent : Fin 80) (line : BitVec 46)
  /-- R340 -/ | cmpResponse (u : UnitId) (agent : Fin 80) (line : BitVec 46)
  /-- R334 -/ | eack (u : UnitId) (agent : Fin 80) (line : BitVec 46)
  /-- R341 -/ | done (u : UnitId) (agent : Fin 80) (line : BitVec 46)
  /-- R344 -/ | rsvl (u : UnitId) (agent : Fin 80) (engine : Fin 16) (line : BitVec 46)
  /-- R454 -/ | err (u : UnitId) (agent : Fin 80) (line : BitVec 46)
  /-- R350 -/ | directoryWalkEnd (u : UnitId) (agent : Fin 80)
  /-- R348 -/ | wtSweepEnd (u : UnitId)
  /-- R353 -/ | invalidationEnd (u : UnitId)
  -- DRAM
  /-- R365 -/ | dramCommandIssue (u : UnitId) (c : Fin 12) (now : Nat) (candidates : List (Nat × DramCmd))
  /-- R362 -/ | writeAccept (u : UnitId) (c : Fin 12)
  /-- R368 -/ | readReturn (u : UnitId) (c : Fin 12) (o : DramRead) (margin : Bool)
  /-- R375 -/ | refreshSlot (u : UnitId) (ucc : Nat)
  /-- R378 -/ | rankPowerDown (u : UnitId) (c : Fin 12) (rank : Fin 4)
  /-- R379 -/ | fchgHoldEnd (u : UnitId) (ready : BitVec 12)
  /-- R369 -/ | channelBringup (u : UnitId) (c : Fin 12) (spdOk sweepOk eyeOk fchgOk : Bool) (rt : BitVec 8)
  /-- R394 -/ | scrubLine (u : UnitId) (o : DramRead) (f : FbRead)
  -- cipher and compression
  /-- R422 -/ | kcv (u : UnitId) (page : Fin 1024)
  /-- R405 -/ | aesCbcEnc (u : UnitId) (page : Fin 1024)
  /-- R405 -/ | aesCbcDec (u : UnitId) (page : Fin 1024)
  /-- R405 -/ | aesCtr (u : UnitId) (page : Fin 1024)
  /-- R405 -/ | aesGcmEnc (u : UnitId) (page : Fin 1024)
  /-- R420 -/ | aesGcmDec (u : UnitId) (page : Fin 1024)
  /-- R405 -/ | aesCmac (u : UnitId) (page : Fin 1024)
  /-- R421 -/ | aesKdf (u : UnitId) (page : Fin 1024)
  /-- R405 -/ | tdesEcbEnc (u : UnitId) (page : Fin 1024)
  /-- R405 -/ | tdesEcbDec (u : UnitId) (page : Fin 1024)
  /-- R405 -/ | tdesCbcEnc (u : UnitId) (page : Fin 1024)
  /-- R405 -/ | tdesCbcDec (u : UnitId) (page : Fin 1024)
  /-- R422 -/ | tdesMac3 (u : UnitId) (page : Fin 1024)
  /-- R408 -/ | keyBusComplete (u : UnitId) (keyErr : Bool)
  /-- R423 -/ | cipherComplete (u : UnitId) (page : Fin 1024)
  /-- R431 -/ | compress (u : UnitId) (e : Fin 2)
  /-- R431 -/ | decompress (u : UnitId) (e : Fin 2)
  /-- R430 -/ | jobComplete (u : UnitId) (e : Fin 2)
  /-- R433 -/ | cmpRingWrite (u : UnitId) (e : Fin 2) (c : Fin 16) (w : Word)
  -- mailboxes
  /-- R461 -/ | mbxDataWrite (n : Fin 64) (mid : BitVec 16) (i : Fin 16) (w : Word)
  /-- R461 -/ | mbxSend (n : Fin 64) (mid : BitVec 16) (w : Word)
  /-- R461 -/ | mbxTake (n : Fin 64) (mid : BitVec 16)
  /-- R461 -/ | mbxRecall (n : Fin 64) (mid : BitVec 16)
  /-- R464 -/ | mbxStatusClear (n : Fin 64) (mid : BitVec 16) (w : Word)
  /-- R465 -/ | mbxBindWrite (n : Fin 64) (w : Word)
  /-- R465 -/ | mbxLockWrite (w : Word)
  /-- R475 -/ | functionLevelReset (fn : Fin 4)
  -- Sahya commands
  /-- R54 -/ | levelConfig (h : CmdHdr) (lag diverge : Word)
  /-- R55 -/ | levelStart (h : CmdHdr) (mode : Word)
  /-- R120 -/ | levelRelevel (h : CmdHdr) (w1 rate maxres maxpass : Word)
  /-- R120 -/ | levelCancel (h : CmdHdr)
  /-- R548 -/ | levelBench (h : CmdHdr) (first count detail : Word)
  /-- R548 -/ | levelMap (h : CmdHdr)
  /-- R90 -/ | levelDebug (h : CmdHdr) (op cores : Word)
  /-- R102 -/ | closureConfig (h : CmdHdr) (policy auto wd inj : Word)
  /-- R105 -/ | closureInject (h : CmdHdr) (dies restore : Word)
  /-- R548 -/ | closureStatus (h : CmdHdr)
  /-- R44 -/ | chainStart (h : CmdHdr) (cn : Word)
  /-- R436 -/ | parcelCreate (h : CmdHdr) (parcel system ctxBase : Word)
  /-- R444 -/ | parcelDestroy (h : CmdHdr) (parcel : Word)
  /-- R436 -/ | parcelCores (h : CmdHdr) (parcel cores entry : Word)
  /-- R439 -/ | parcelMap (h : CmdHdr) (parcel op entry : Word)
  /-- R442 -/ | parcelSegment (h : CmdHdr) (mseg acl code : Word)
  /-- R443 -/ | parcelRetire (h : CmdHdr) (op page : Word)
  /-- R304 -/ | parcelVector (h : CmdHdr) (parcel vector core : Word)
  /-- R481 -/ | codeLoad (h : CmdHdr) (parcel frame : Word)
  /-- R325 -/ | codeMpatch (h : CmdHdr)
  /-- R130 -/ | stationGrant (h : CmdHdr) (first count parcel quota : Word)
  /-- R548 -/ | stationQuery (h : CmdHdr) (station : Word)
  /-- R553 -/ | stationBook (h : CmdHdr) (op book w0 w1 : Word)
  /-- R160 -/ | stationMirror (h : CmdHdr) (book resend : Word)
  /-- R162 -/ | stationTakeover (h : CmdHdr) (mbook jbook cont : Word) (pairs : List Word)
  /-- R164 -/ | stationReconcile (h : CmdHdr) (stack : Word)
  /-- R22 -/ | pathModid (h : CmdHdr) (id : Word)
  /-- R173 -/ | pathPort (h : CmdHdr) (port cfg mac raw : Word) (mcast : List Word)
  /-- R548 -/ | pathStatus (h : CmdHdr) (port : Word)
  /-- R177 -/ | pathAddr (h : CmdHdr) (index ipv hi lo : Word)
  /-- R204 -/ | pathGroup (h : CmdHdr) (group policy half : Word) (paths : List Word)
  /-- R203 -/ | pathLink (h : CmdHdr) (tvtPort ladder : Word)
  /-- R482 -/ | keyInit (h : CmdHdr) (trng : List Word)
  /-- R482 -/ | keyGenerate (h : CmdHdr) (slot attrs : Word) (trng : List Word)
  /-- R482 -/ | keyImport (h : CmdHdr) (slot kek attrs : Word) (blob : List Word)
  /-- R482 -/ | keyExport (h : CmdHdr) (slot kek : Word)
  /-- R482 -/ | keyAttr (h : CmdHdr) (slot : Word)
  /-- R482 -/ | keyDelete (h : CmdHdr) (slot : Word)
  /-- R482 -/ | keyZeroise (h : CmdHdr) (magic : Word)
  /-- R412 -/ | cipherPage (h : CmdHdr) (page parcel ctx : Word)
  /-- R429 -/ | cipherChannel (h : CmdHdr) (engine chan parcel ctx : Word)
  /-- R425 -/ | cipherLock (h : CmdHdr) (en page : Word)
  /-- R425 -/ | cipherTest (h : CmdHdr) (pass0 pass1 : Bool)
  /-- R383 -/ | memConfig (h : CmdHdr) (ws : List Word)
  /-- R372 -/ | memBoard (h : CmdHdr) (ch rankSlot f0 f1 f2 : Word)
  /-- R373 -/ | memTrain (h : CmdHdr)
  /-- R379 -/ | memFreq (h : CmdHdr) (set : Word)
  /-- R352 -/ | memLost (h : CmdHdr) (clear : Word)
  /-- R390 -/ | memLog (h : CmdHdr) (clear : Word)
  /-- R391 -/ | memEcctest (h : CmdHdr) (unit ch en raw : Word)
  /-- R398 -/ | memRetire (h : CmdHdr) (ch entry : Word)
  /-- R383 -/ | memCtl (h : CmdHdr) (w1 hold : Word)
  /-- R383 -/ | memTiming (h : CmdHdr) (w1 : Word) (vals : List Word)
  /-- R383 -/ | memQos (h : CmdHdr) (port target rate : Word)
  /-- R393 -/ | scrubRun (h : CmdHdr) (base len : Word)
  /-- R393 -/ | scrubCancel (h : CmdHdr)
  /-- R503 -/ | faultConfig (h : CmdHdr) (w1 w2 cores : Word)
  /-- R503 -/ | faultRead (h : CmdHdr) (source : Word)
  /-- R503 -/ | faultRoute (h : CmdHdr) (chan : Word)
  /-- R503 -/ | faultInject (h : CmdHdr) (source info : Word)
  /-- R503 -/ | faultBbox (h : CmdHdr) (op first count : Word)
  /-- R518 -/ | powerDomain (h : CmdHdr) (domain on : Word)
  /-- R523 -/ | powerRead (h : CmdHdr) (readings : List Word)
  /-- R528 -/ | powerThrottle (h : CmdHdr) (mode level : Word)
  /-- R516 -/ | powerReset (h : CmdHdr) (kind unit : Word)
  /-- R486 -/ | calRead (h : CmdHdr) (off count : Word)
  /-- R486 -/ | calWrite (h : CmdHdr) (off : Word) (ws : List Word)
  /-- R486 -/ | calCommit (h : CmdHdr) (magic : Word)
  /-- R478 -/ | imageWrite (h : CmdHdr) (slot off : Word) (ws : List Word)
  /-- R476 -/ | imageVerify (h : CmdHdr) (slot : Word)
  /-- R477 -/ | imageActivate (h : CmdHdr) (slot : Word)
  /-- R478 -/ | imageCommit (h : CmdHdr)
  /-- R478 -/ | imageRevoke (h : CmdHdr) (gen : Word)
  /-- R477 -/ | imageStatus (h : CmdHdr)
  /-- R484 -/ | expertEnable (h : CmdHdr)
  /-- R484 -/ | expertDisable (h : CmdHdr)
  -- expert window, registers, service processor
  /-- R485 -/ | expertStakedWrite (go : Word)
  /-- R485 -/ | expertRawWrite (u : UnitId) (off : BitVec 26) (w : Word)
  /-- R11 -/ | registerWrite (sp : RegSpace) (off : BitVec 38) (w : Word)
  /-- R457 -/ | svcWatchdog
  /-- R456 -/ | svcLockstep
  -- faults and the bench domain
  /-- R490 -/ | faultEvent (source : BitVec 12) (ucc : Nat) (info : Word)
  /-- R494 -/ | blockReset (u : UnitId) (h : StakeHdr) (kind : BitVec 2) (k : Fin 16)
  /-- R493 -/ | mrDelayExpiry
  /-- R495 -/ | tickFailure
  /-- R499 -/ | checkstopIn
  /-- R506 -/ | hostCheckstop
  /-- R498 -/ | bbFreeze
  /-- R498 -/ | bbRelease
  /-- R500 -/ | errorSet
  /-- R500 -/ | errorClr
  /-- R496 -/ | fltFirstClear
  /-- R502 -/ | benchResetWarm (key : BitVec 16)
  /-- R502 -/ | benchResetCold (key : BitVec 16)
  /-- R506 -/ | benchZeroArm (key : BitVec 16)
  /-- R502 -/ | benchZero (key : BitVec 16)
  -- lands, start-up, power
  /-- R509 -/ | vaonApply
  /-- R529 -/ | vaonRemove
  /-- R533 -/ | pwrGoodRise
  /-- R533 -/ | pwrGoodFall
  /-- R513 -/ | modResetN (level : Bool)
  /-- R513 -/ | perstN (level : Bool)
  /-- R509 -/ | resetExit
  /-- R510 -/ | startupPhaseEnd (ok : Bool)
  /-- R511 -/ | bringupPhaseTimeout
  /-- R514 -/ | unitResetEnd (u : UnitId)
  /-- R521 -/ | powerSequenceEnd (d : Fin 52) (stable : Bool)
  /-- R528 -/ | throttleControl (maxTemp power0 power1 : Nat)
  /-- R534 -/ | railLoss (rail : Fin 12)
  /-- R526 -/ | refclkLoss
  /-- R541 -/ | jtagInstruction (ir : BitVec 8)
  /-- R501 -/ | refclkReturn
  /-- R179 -/ | pauseExpiry (p : PortId)
  /-- R375 -/ | refreshFineChange (hot : Bool)
  /-- R506 -/ | benchZeroArmExpiry
  /-- R71 -/ | timeOfDayChange (tod : Word)
  /-- R71 -/ | todAlarmSet (tod : Word)
  /-- R225 -/ | unassignedInstruction (i : Issue) (why : BadDecode) (len : Fin 4)
  deriving DecidableEq, Repr

end Sys2Proof
end

