-- ==== Sys2Proof/Config.lean ====
section
/-! DEFINITION. What the spec leaves to the implementation or to a named standard outside it: constants without a body, so
that no proof can see a value of them. -/
namespace Sys2Proof.Config

/-- A value that the spec leaves open: the n-th one of a run (log 8). -/
opaque freeWord : Nat → Word
/-- The parcel and vector that a TOD alarm raises, by its time: 10 R304 names a configuration that the spec does not give
(log 8). -/
opaque alarmTarget : Word → BitVec 6 × BitVec 8
/-- CMP_ID.REV, the engine revision (14 R433). -/
opaque cmpRev : BitVec 16
/-- The microcode ROM revision that a patch image must require (10 R325). -/
opaque romRev : Nat
/-- SHA-384 of a list of bytes (16 R476), from its standard. -/
opaque sha384 : List Byte → List Byte
/-- RSASSA-PSS verification with the modulus, the signature and the signed bytes (16 R476), from its standard. -/
opaque rsaPssOk : List Byte → List Byte → List Byte → Bool
/-- SLH-DSA verification with the public key, the signature and the signed bytes (16 R476), from its standard. -/
opaque slhDsaOk : List Byte → List Byte → List Byte → Bool
/-- The contents of a microcode patch image's body, whose layout the spec does not give (10 R325); none where it is malformed. -/
opaque patchImage : List Byte → Option PatchImage
/-- The compressor (14 R428: a function of the stream, the job's fields and the history): the output and the new stream
state. -/
opaque compress : Nat → List Byte → List Byte → List Byte × List Byte × BitVec 32
/-- The decompressor (14 R426): the output, the input bytes consumed, the end flag, the code of R432, the new stream
state, the checksum so far. -/
opaque decompress : Nat → Nat → List Byte → List Byte → List Byte × Nat × Bool × BitVec 8 × List Byte × BitVec 32
/-- The ROM defaults of the calibration set (16 R486), by byte. -/
opaque calDefault : Nat → Byte
/-- The package flight time of a lane in ps, from the calibration set (12 R372). -/
opaque packageFlight : Nat → Nat
/-- The JTAG instruction codes of EXTEST, CLAMP and HIGHZ, which the spec does not give (18 R541). -/
opaque jtagDrives : BitVec 8 → Bool

end Sys2Proof.Config
end

