-- ==== Sys2Proof/Machine/Bits.lean ====
section
/-! DEFINITION. Bit fields of registers, sign extension, byte order, parity. -/
namespace Sys2Proof.Machine

/-- Bits `[lo + len - 1 : lo]` of a word, as a number. -/
def bitsOf {w : Nat} (x : BitVec w) (lo len : Nat) : Nat := (x.toNat / 2 ^ lo) % 2 ^ len

/-- Bit `n` of a word. -/
def bitOf {w : Nat} (x : BitVec w) (n : Nat) : Bool := x.getLsbD n

/-- The word with bits `[lo + len - 1 : lo]` replaced by the low bits of `v`. -/
def withBits {w : Nat} (x : BitVec w) (lo len v : Nat) : BitVec w :=
  (x &&& ~~~(BitVec.ofNat w ((2 ^ len - 1) * 2 ^ lo))) ||| BitVec.ofNat w ((v % 2 ^ len) * 2 ^ lo)

/-- The word with bit `n` set or cleared. -/
def withBit {w : Nat} (x : BitVec w) (n : Nat) (b : Bool) : BitVec w := withBits x n 1 (if b then 1 else 0)

/-- 1 or 0. -/
def bit (b : Bool) : Nat := if b then 1 else 0

/-- The number of a little-endian list of bytes (07 R230). -/
def leNat : List Byte → Nat
  | [] => 0
  | b :: r => b.toNat + 256 * leNat r

/-- The `n` low bytes of a number, little-endian. -/
def leBytes : Nat → Nat → List Byte
  | 0, _ => []
  | n + 1, v => BitVec.ofNat 8 v :: leBytes n (v / 256)

/-- The number of a big-endian list of bytes. -/
def beNat (l : List Byte) : Nat := leNat l.reverse

/-- The `n` low bytes of a number, big-endian. -/
def beBytes (n v : Nat) : List Byte := (leBytes n v).reverse

/-- The number of one bits among the low `n` bits. -/
def popNat : Nat → Nat → Nat
  | 0, _ => 0
  | n + 1, v => v % 2 + popNat n (v / 2)

/-- The number of one bits of a word. -/
def popCount {w : Nat} (x : BitVec w) : Nat := popNat w x.toNat

/-- The XOR of the bits of a word. -/
def parity {w : Nat} (x : BitVec w) : Bool := popCount x % 2 == 1

/-- The indices below `n` whose bit is set. -/
def bitList {w : Nat} (x : BitVec w) (n : Nat) : List Nat := (List.range n).filter (fun k => x.getLsbD k)

/-- `a` rounded down to a multiple of `n`. -/
def alignDown (a n : Nat) : Nat := a / n * n

/-- `a` rounded up to a multiple of `n`. -/
def alignUp (a n : Nat) : Nat := (a + n - 1) / n * n

/-- The number, or the largest one of `w` bits. -/
def saturate (w v : Nat) : Nat := if v < 2 ^ w then v else 2 ^ w - 1

/-- The field `[lo + len - 1 : lo]` of a word counted up by one, saturating. -/
def bumpField {w : Nat} (x : BitVec w) (lo len : Nat) : BitVec w := withBits x lo len (saturate len (bitsOf x lo len + 1))

/-- Two counts taken together: the larger. -/
def later (a b : Nat) : Nat := if a < b then b else a

end Sys2Proof.Machine
end

