-- ==== Sys2Proof/Machine/Crc.lean ====
section
/-! DEFINITION. The CRC-64 of 05 R152 and R546, and a flit as its wire carries it (06 R198). -/
namespace Sys2Proof.Machine

/-- One bit of the CRC: the polynomial 0x42F0_E1EB_A9EA_3693, most significant bit first (05 R152). -/
def crcBit (c : Word) (b : Bool) : Word :=
  if c.getLsbD 63 != b then (c <<< 1) ^^^ 0x42F0E1EBA9EA3693 else c <<< 1

/-- One byte fed most significant bit first (05 R546). -/
def crcByte (c : Word) (b : Byte) : Word := (List.range 8).foldl (fun c k => crcBit c (b.getLsbD (7 - k))) c

/-- CRC-64 over bytes: initial value all ones, result complemented (05 R152). -/
def crc64 (bs : List Byte) : Word := ~~~(bs.foldl crcByte (BitVec.allOnes 64))

/-- A DATA or CTL flit on the lane (06 R198): the 248 bytes of an output with LLSEQ in bytes 2 and 3, then the CRC. -/
def flitWire (ll : BitVec 16) (bs : List Byte) : List Byte :=
  let h := bs.take 2 ++ beBytes 2 ll.toNat ++ bs.drop 4
  h ++ beBytes 8 (crc64 h).toNat

/-- A link-layer flit that is never staked: LLACK, LLNAK or CREDIT (06 R198, R199). -/
def linkFlit (typ : Nat) (ll : BitVec 16) (payload : List Byte) : List Byte :=
  let p := payload ++ List.replicate (232 - payload.length) 0
  flitWire ll (beBytes 1 typ ++ List.replicate 13 0 ++ beBytes 1 payload.length ++ [0] ++ p)

end Sys2Proof.Machine
end

