-- ==== Sys2Proof/Machine/Tab.lean ====
section
/-! DEFINITION. The one sparse table of the model: a list of (key, value) pairs, keys strictly rising, no entry equal
to what an unlisted key reads as. Memories, register files by index, stations, slots and queues by key are Tabs. -/
namespace Sys2Proof

/-- A sparse table by number; an unlisted key reads as the default its reader names. -/
abbrev Tab (V : Type) := List (Nat × V)

namespace Machine

/-- What key `n` holds; `d n` where it is not listed. -/
def tabGet {V : Type} (d : Nat → V) : Tab V → Nat → V
  | [], n => d n
  | (k, v) :: r, n => if k = n then v else tabGet d r n

/-- The table without key `n`. -/
def tabErase {V : Type} : Tab V → Nat → Tab V
  | [], _ => []
  | (k, v) :: r, n => if k = n then tabErase r n else (k, v) :: tabErase r n

/-- The table with an entry put in its sorted place. -/
def tabInsert {V : Type} : Tab V → Nat → V → Tab V
  | [], n, w => [(n, w)]
  | (k, v) :: r, n, w => if n < k then (n, w) :: (k, v) :: r else (k, v) :: tabInsert r n w

/-- Writing `w` at key `n`; writing the default removes the entry, so the form stays canonical. -/
def tabSet {V : Type} [DecidableEq V] (d : Nat → V) (t : Tab V) (n : Nat) (w : V) : Tab V :=
  if w = d n then tabErase t n else tabInsert (tabErase t n) n w

/-- The canonical form, decided. -/
def tabWf {V : Type} [DecidableEq V] (d : Nat → V) : Tab V → Bool
  | [] => true
  | (k, v) :: r => decide (v ≠ d k) && r.all (fun e => decide (k < e.1)) && tabWf d r

/-- Keys from `n` for `len` numbers, written with the list's values in order. -/
def tabSetList {V : Type} [DecidableEq V] (d : Nat → V) (t : Tab V) (n : Nat) : List V → Tab V
  | [] => t
  | w :: ws => tabSetList d (tabSet d t n w) (n + 1) ws

/-- `len` values read from key `n` on. -/
def tabGetList {V : Type} (d : Nat → V) (t : Tab V) (n : Nat) : Nat → List V
  | 0 => []
  | len + 1 => tabGet d t n :: tabGetList d t (n + 1) len

/-- Every listed entry changed; an entry that becomes the default is dropped. -/
def tabMap {V : Type} [DecidableEq V] (d : Nat → V) (f : Nat → V → V) (t : Tab V) : Tab V :=
  (t.map (fun e => (e.1, f e.1 e.2))).filter (fun e => decide (e.2 ≠ d e.1))

/-- The entries whose key passes a test are dropped. -/
def tabDrop {V : Type} (p : Nat → Bool) (t : Tab V) : Tab V := t.filter (fun e => !p e.1)

end Machine
end Sys2Proof
end

