-- ==== Sys2Proof/Machine/StCore.lean ====
section
/-! DEFINITION. The state of a processor: registers, store buffer, posting transaction. Default field values are the
reset values. -/
namespace Sys2Proof.Machine

/-- PSW (07 R219). -/
structure Psw where
  c : Bool := false
  v : Bool := false
  z : Bool := false
  n : Bool := false
  s : Bool := true
  ie : Bool := false
  tx : Bool := false
  deriving DecidableEq, Repr

/-- ECAUSE (10 R301). -/
structure Ecause where
  code : BitVec 8 := 0
  ilen : BitVec 2 := 0
  tx : Bool := false
  mcip : Bool := false
  iaddr : CodeAddr := 0
  deriving DecidableEq, Repr

/-- A retired store that waits in the store buffer: its module-physical address and bytes (09 R267). -/
structure SbEntry where
  addr : Nat
  bytes : List Byte
  deriving DecidableEq, Repr

/-- The registers that TBEG checkpoints (09 R282). -/
structure Checkpoint where
  a : Vector Word 16
  d : Vector Word 16
  k : Vector Quad 4
  psw : Psw
  rm : BitVec 2
  subn : Bool
  fpsw : BitVec 5
  deriving DecidableEq, Repr

/-- An open posting transaction (09 R282, R283). -/
structure Txn where
  stamp : Nat × Nat
  abortPath : CodeAddr
  tbegPc : CodeAddr
  ckpt : Checkpoint
  readSet : List Nat
  writeSet : List Nat
  data : Tab Byte
  count : Nat
  deriving DecidableEq, Repr

/-- A translation that a core holds (15 R448): the virtual page, the module-physical page, the rights W and U of
the leaf. -/
structure TlbEntry where
  vpage : Nat
  mpage : Nat
  w : Bool
  u : Bool
  deriving DecidableEq, Repr

/-- A processor: a logical core, a traverse engine or the service processor (07 R215). A, D, K and the pc start at
zero, the model's choice (log 5). -/
structure Core where
  a : Vector Word 16 := Vector.replicate 16 0
  d : Vector Word 16 := Vector.replicate 16 0
  k : Vector Quad 4 := Vector.replicate 4 0
  pc : CodeAddr := 0
  psw : Psw := {}
  rm : BitVec 2 := 0
  subn : Bool := false
  fpsw : BitVec 5 := 0
  rsvValid : Bool := false
  rsvGranule : BitVec 46 := 0
  tcode : BitVec 8 := 0
  retryCnt : BitVec 32 := 0
  parcel : BitVec 6 := 0
  ea15 : Word := 0
  ssp : Word := 0
  vbase : BitVec 38 := 0
  epc : CodeAddr := 0
  epsw : Psw := { s := false }
  ecause : Ecause := {}
  eaddr : Word := 0
  tcmp : Word := 0
  pend : BitVec 256 := 0
  sb : List SbEntry := []
  txn : Option Txn := none
  carried : Option ((Nat × Nat) × CodeAddr) := none
  waiting : Bool := false
  pinWait : Option (BitVec 46) := none
  vectorStop : Bool := false
  debugHalt : Bool := false
  offline : Bool := false
  deconf : Bool := false
  resumeAt : Nat := 0
  sparing : Bool := false
  progEnd : Bool := false
  entry : CodeAddr := 0
  retrying : Option (BitVec 8 × CodeAddr) := none
  tlb : List TlbEntry := []
  codeTlb : List TlbEntry := []
  ctxLine : Option Nat := none
  ctxStale : Bool := false
  deriving DecidableEq, Repr

end Sys2Proof.Machine
end

