-- ==== Sys2Proof/Machine/StMem.lean ====
section
/-! DEFINITION. The state of a unit's memory: bytes, marks, directory and agent caches, DRAM controllers, scrub run,
parcel tables. Default field values are the reset values. -/
namespace Sys2Proof.Machine

/-- The state of an agent's copy of a line (11 R333). -/
inductive AgSt | d | e | s | w | i
  deriving DecidableEq, Repr

/-- The state of a directory entry (11 R335). -/
inductive DirSt | free | shared | witnessed | owned | recall
  deriving DecidableEq, Repr

/-- A directory entry (11 R335). `own` is the witness or the owner; `pin` the pinning position and engine index;
`tvec` the transaction vector; `lru` the time of its last use, in served requests. -/
structure DirEnt where
  st : DirSt := .free
  holders : BitVec 80 := 0
  own : Nat := 0
  pin : Option (Nat × Nat) := none
  tvec : BitVec 56 := 0
  lru : Nat := 0
  deriving DecidableEq, Repr

/-- What the L3 holds of a line (11 R337). -/
inductive L3St | absent | clean | dirty
  deriving DecidableEq, Repr

/-- The kinds of protocol messages that are in flight (11 R338); requests and evictions are the commands themselves. -/
inductive MsgKind | dat | ack | gone | gnt | cmp | eack | done | rsvl | err | fws | fwx | fwo | inv | clnf
  deriving DecidableEq, Repr

/-- A message in flight: to or from agent `agent` (for DAT to the home, `home` is true). `st` is the state a DAT
grants; `flag` is DROP of an INV, failure of a DONE, DIRTY of a DAT. -/
structure CohMsg where
  kind : MsgKind
  line : Nat
  agent : Nat
  home : Bool := false
  st : AgSt := .i
  flag : Bool := false
  engine : Nat := 0
  deriving DecidableEq, Repr

/-- A request with the data it carries (11 R338): for WRL, WRT and STC, the offset in the line and the bytes. -/
structure CohJob where
  kind : ReqKind
  req : CohReq
  off : Nat := 0
  data : List Byte := []
  deriving DecidableEq, Repr

/-- A line in service (11 R340): the job; the agents that owe the home a reply; the agent that a forward went to and whether it
answered GONE; the agents that answered an INV with GONE; the eviction notices held meanwhile (agent, dirty); whether the requester
still waits for its data and for GNT, and whether it has sent its CMP; the jobs that wait. -/
structure Svc where
  job : CohJob
  owed : List Nat := []
  fwd : Option Nat := none
  gone : Bool := false
  goneInv : List Nat := []
  heldEv : List (Nat × Bool) := []
  needData : Bool := false
  needGnt : Bool := false
  gntSent : Bool := false
  cmpSent : Bool := false
  waiting : List CohJob := []
  deriving DecidableEq, Repr

/-- COH_LOSTLOG entry (11 R354). -/
structure LostEnt where
  cause : BitVec 2
  line : Nat
  pos : Nat
  deriving DecidableEq, Repr

/-- The coherence fabric of a unit (11). Agent copies are keyed by 128·line + position. `parked` holds the requests that wait at their
home for a transaction, a way or a pin; `salv` the dirty lines that the side port of a dead position has sent (11 R350). -/
structure CohState where
  dir : Tab DirEnt := []
  ag : Tab AgSt := []
  ev : List (Nat × Nat) := []
  l3 : Tab L3St := []
  svc : Tab (Option Svc) := []
  msgs : List CohMsg := []
  clock : Nat := 0
  wt : Bool := false
  wtSweep : Bool := false
  invBusy : Bool := false
  lostOvf : Bool := false
  lostLog : List LostEnt := []
  dead : List Nat := []
  walks : List Nat := []
  parked : List CohJob := []
  salv : List (Nat × Nat) := []
  deriving DecidableEq, Repr

/-- A request queued in a DRAM controller (12 R362): port, line, and for a write its bytes and mark; the UCC at which it
was accepted, and its number in acceptance order. `bank`, `row` are its place (12 R359); `retired`: its bank was retired by
then (R380). -/
structure McReq where
  port : Nat
  line : Nat
  write : Option (List Byte × BitVec 8)
  since : Nat
  bank : Nat
  row : Nat
  num : Nat := 0
  retired : Bool := false
  deriving DecidableEq, Repr

/-- MC_ERRLOG entry (13 R390), both words, and its place in the log. -/
structure McLog where
  w0 : Word
  w1 : Word
  slot : Nat := 0
  deriving DecidableEq, Repr

/-- A DRAM controller (12 R382). `regs` holds the registers by offset; an unlisted one reads its reset value.
`pendRws` holds the pending RWS values by offset (00 R13); `slotEnd` is the UCC at which a retrain slot ends (R376), `win` the transfer
window with each port's count (R367), `refBase` the UCC from which the refresh
schedule runs (R375, R377). -/
structure McState where
  regs : Tab Word := []
  pendRws : Tab (Option Word) := []
  rq : List McReq := []
  wq : List McReq := []
  blocked : List McReq := []
  issued : List McReq := []
  drain : Bool := false
  openRow : Tab (Option Nat) := []
  pd : BitVec 4 := 0
  log : List McLog := []
  fchgHold : Bool := false
  late : Bool := false
  dlyPend : Tab (Option Word) := []
  num : Nat := 0
  slotEnd : Nat := 0
  win : Nat := 0
  winCount : Tab Nat := []
  refBase : Nat := 0
  deriving DecidableEq, Repr

/-- A scrub run in a unit (13 R393 to R395). `pos` is the next line; `held` the line between read and rewrite with the
data read. -/
structure ScrubRun where
  base : Nat
  len : Nat
  lines : Nat := 0
  ce : Nat := 0
  ue : Nat := 0
  firstUe : Option Nat := none
  start : Nat := 0
  cycles : Nat := 0
  ended : Bool := false
  deriving DecidableEq, Repr

/-- A parcel map entry (15 R440): PSEG, MSEG and the flags. -/
structure MapEnt where
  pseg : BitVec 16
  mseg : BitVec 16
  code : Bool
  fieldbook : Bool
  device : Bool
  retired : Bool
  deriving DecidableEq, Repr

/-- A parcel (15 R436): SYSTEM, CTXBASE, its valid map entries, its vector table (10 R304). -/
structure Parcel where
  sys : Bool
  ctxBase : Nat
  map : List MapEnt
  vectors : Tab (Option Nat)
  deriving DecidableEq, Repr

/-- A segment table entry (15 R442). -/
structure SegEnt where
  acl : Word := 0
  code : Bool := false
  deriving DecidableEq, Repr

/-- A dirty map (04 R118, R119): the pages set, whether it is valid, its base, and whether its clearing sweep runs. -/
structure DirtyMap where
  pages : Tab Bool := []
  valid : Bool := false
  base : Nat := 0
  sweeping : Bool := false
  deriving DecidableEq, Repr

/-- The memory side of a unit. `data` is the coherent value of each DRAM byte, `dram` what the DRAM array holds;
`mark` and `dmark` the marks of lines in the two (13 R388); `dchk` the check bytes of a line that ECC_TEST stored (13 R392), none
listed where they are those that the controller computes. -/
structure MemState where
  data : Tab Byte := []
  dram : Tab Byte := []
  mark : Tab (BitVec 8) := []
  dmark : Tab (BitVec 8) := []
  dchk : Tab (List Byte) := []
  coh : CohState := {}
  mc : Vector McState 12 := Vector.replicate 12 {}
  scrub : Option ScrubRun := none
  parcels : Tab (Option Parcel) := []
  segs : Tab SegEnt := []
  retired : List Nat := []
  mapA : DirtyMap := {}
  mapB : DirtyMap := {}
  fbMapA : DirtyMap := {}
  fbMapB : DirtyMap := {}
  deriving DecidableEq, Repr

end Sys2Proof.Machine
end

