-- ==== Sys2Proof/Machine/StUnit.lean ====
section
/-! DEFINITION. The state of a compute unit: levelled register copies, cores and engines, signatures, stake input.
Default field values are the reset values. -/
namespace Sys2Proof.Machine

/-- What a stake record carries (03 R65, R66): its TYPE and CTL kind with their payload. -/
inductive StakeBody
  | input (p : PortId) (b : InputBody)
  | entropy (ws : List Word)
  | host (chan : Fin 64) (side : Side) (notice : Bool) (ws : List Word)
  | timer (alarm : Bool) (tod : Word)
  | echo (l : CoreId) (kind : BitVec 8) (index : BitVec 24)
  | pressure (on space : Bool)
  | rws (r : RwsReg) (w : Word)
  | cfg (e : CfgEffect)
  | spare (l : CoreId) (p : Fin 56)
  | deconfig (l : CoreId)
  | drop (dropped : UnitId) (cause : BitVec 8)
  | throttle (level : BitVec 3)
  | power (k : Fin 24) (on : Bool)
  | mcode (img : PatchImage)
  | code (frame : BitVec 52) (ws : List Word)
  | scrub (base len : Nat)
  | bench (cn : Nat)
  | debug (resume : Bool) (cores : BitVec 48)
  | sync (lock : Bool)
  | mchk (cores : BitVec 48) (source : BitVec 12)
  | blockReset (kind : BitVec 2) (k : Fin 16)
  deriving DecidableEq, Repr

/-- A stake record on its way to a unit (03 R64): SOURCE, STAMP, SEQ, BKONLY with its contents. -/
structure Stake where
  source : Fin 5
  stamp : Nat
  seq : Nat
  bkOnly : Bool := false
  body : StakeBody
  deriving DecidableEq, Repr

/-- The CHN_ registers of a unit (02 R49). `press` and `pressSpace` are the back-pressures in force for the budget and
for buffer space; `pend` the pending RWS value of CHN_CFG, `held` a held PERIOD (02 R39). -/
structure ChnRegs where
  cfg : Word := 2
  status : Word := 0x40
  sync : Word := 0x140
  syncWritten : Bool := false
  pressCnt : Vector Word 4 := Vector.replicate 4 0
  pend : Option Word := none
  held : Option (BitVec 3) := none
  pressSpace : BitVec 4 := 0
  pressBudget : BitVec 4 := 0
  pressSeen : BitVec 4 := 0
  deriving DecidableEq, Repr

/-- The LVL_ registers of a unit (03 R93) and MOD_ID (01 R23). LVL_UCC is the unit's `ucc`. -/
structure LvlRegs where
  cfg : Word := 8
  status : Word := 0x3000
  start : Word := 0
  bench : Word := 0
  pool : List Word := []
  underrun : Bool := false
  tod : Word := 0
  todUcc : Word := 0
  modId : Word := 0
  deriving DecidableEq, Repr

/-- The CLO_ registers of a unit (04 R128). -/
structure CloRegs where
  cfg : Word := 0xA00
  status : Word := 0
  drop : Word := 0
  count : Word := 0
  relevel : Word := 0
  deriving DecidableEq, Repr

/-- The signatures of one chain (03 R76): by core, home slice, DRAM controller and traverse-engine cluster, and the
retired-instruction counts. -/
structure Sigs where
  core : Tab Quad := []
  home : Tab Quad := []
  mc : Tab Quad := []
  trav : Tab Quad := []
  retired : Tab Nat := []
  deriving DecidableEq, Repr

/-- A benchmark record: the 64 slots (03 R77). -/
abbrev BenchRec := List Quad

/-- The microcode store of every core position of a unit (10 R320, R324). -/
structure Ucode where
  ram : Tab (BitVec 160) := []
  patchId : BitVec 32 := 0
  regs : Tab Word := []
  stallEnd : Option Nat := none
  deriving DecidableEq, Repr

/-- A sparing sequence under way (10 R316): the core, its target position, the STAMP. -/
structure Sparing where
  core : Nat
  target : Nat
  start : Nat
  deriving DecidableEq, Repr

/-- Cores, engines and what belongs to their execution. `map` is the enabled-core map (logical core to position;
03 R85); `spares`, `voids`, `failed` the sets of positions (03 R86). -/
structure ExeState where
  cores : Tab Core := []
  engines : Tab Core := []
  map : Tab Nat := []
  spares : BitVec 56 := 0xFF000000000000
  voids : BitVec 56 := 0
  spareOff : BitVec 56 := 0
  failed : BitVec 56 := 0
  spareRun : Option Sparing := none
  sig : Sigs := {}
  sigLast : Sigs := {}
  sigPrev : Sigs := {}
  ucode : Ucode := {}
  throttle : BitVec 3 := 0
  deriving DecidableEq, Repr

end Sys2Proof.Machine
end

