-- ==== Sys2Proof/Machine/StModule.lean ====
section
/-! DEFINITION. The state outside the compute units: chain generator, Traverse dies' closure side, hub, fault collector,
bench domain. Default field values are the reset values. -/
namespace Sys2Proof.Machine

/-- An output entry of a closure buffer (04 R95): the emitting UCC and the output. -/
structure OutEntry where
  ucc : Nat
  body : OutBody
  deriving DecidableEq, Repr

/-- The outputs of one unit for one chain, in emission order. -/
structure ChainOut where
  cn : Nat
  entries : List OutEntry
  deriving DecidableEq, Repr

/-- A chain whose compare has ended at a die but that waits (04 R100, R101): its number, the verdicts of A and B, and what
the referee finds. -/
structure HeldChain where
  cn : Nat
  va : Verdict
  vb : Verdict
  truth : Verdict
  deriving DecidableEq, Repr

/-- An injection run at a die (04 R105): the next vector, and whether it restores. -/
structure InjRun where
  vector : Nat
  restore : Bool
  failA : Bool
  failB : Bool
  deriving DecidableEq, Repr

/-- A Traverse die (04, 03 R60 to R69). `waitOut` holds outputs cleared for release that wait for room in their port's
transmit queue (06 R180). -/
structure DieState where
  stopped : Bool := false
  lanesDown : Bool := false
  seq : Nat := 0
  lastStamp : Nat := 0
  line : List Stake := []
  lineCe : Nat := 0
  side0 : List ChainOut := []
  side1 : List ChainOut := []
  compared : Option Nat := none
  retA : Bool := false
  retB : Bool := false
  held : List HeldChain := []
  referee : Option HeldChain := none
  released : Option Nat := none
  bytes : Nat := 0
  pressBudget : Bool := false
  pressSpace : Bool := false
  slotOpen : Bool := false
  inj : Option InjRun := none
  rot : Nat := 0
  rotDue : Bool := false
  noCompareBefore : Nat := 0
  waitOut : List OutEntry := []
  deriving DecidableEq, Repr

/-- A mismatch that waits for the hub's decision (04 R106, R108). -/
structure Decision where
  cn : Nat
  deriving DecidableEq, Repr

/-- A `LEVEL.RELEVEL` in progress on the service die (04 R120 to R123). `useB`: the copy map is the active unit's map B;
`freezeAt` the UCC of boundary f once it is set. -/
structure Relevel where
  join : UnitId
  kind : Nat
  full : Bool
  rate : Nat
  maxres : Nat
  maxpass : Nat
  force : Bool
  auto : Bool
  chan : Option (Fin 64 × Side)
  v2 : Bool
  tag : Word
  phase : Nat
  passes : Nat
  step : Nat
  base : Nat
  useB : Bool
  freezeAt : Option Nat
  nres : Nat
  f : Nat
  e : Nat
  deriving DecidableEq, Repr

/-- The closure hub (04). `indic` holds local error indications: unit and UCC; `count` is the hub's CLO_COUNT, `ubs` the UB of
recent chains, `first` the first chain that the hub compares after a re-level; `frozen` and `resume` mark a re-level freeze
and its end at the next tick (R122, R123, R550), `cutStep` the step at which one was cut short; `debugWait` is a debug request that waits for the freeze (R91). -/
structure HubState where
  side0 : List ChainOut := []
  side1 : List ChainOut := []
  released : Option Nat := none
  first : Nat := 0
  recs0 : List (Nat × BenchRec) := []
  recs1 : List (Nat × BenchRec) := []
  pairs : List (Nat × BenchRec × BenchRec) := []
  indic : List (UnitId × Nat) := []
  decision : Option Decision := none
  matched : List (Nat × Nat) := []
  count : Word := 0
  ubs : List (Nat × Nat) := []
  relevel : Option Relevel := none
  bridgeDown : Bool := false
  edgeLate : Bool := false
  frozen : Bool := false
  resume : Bool := false
  cutStep : Nat := 0
  debugWait : Option (BitVec 48) := none
  reports : List (Nat × Nat × BitVec 8 × BitVec 24) := []
  deriving DecidableEq, Repr

/-- The chain generator (02 R30). -/
structure GenState where
  run : Bool := false
  cn : Nat := 0
  period : BitVec 3 := 2
  nextPeriod : BitVec 3 := 2
  stopped : Bool := false
  starting : Option Nat := none
  relock : Nat := 0
  badPulses : Nat := 0
  pulseOut : Bool := false
  pulseSeen : Bool := false
  deriving DecidableEq, Repr

/-- A source of the fault collector (17 R490, R507): N, W, REACT, the window and counts, CORES. -/
structure Source where
  n : BitVec 8
  w : BitVec 16
  react : BitVec 6
  cores : BitVec 48 := 0
  openW : Bool := false
  opened : Nat := 0
  wcnt : Nat := 0
  count : Nat := 0
  deriving DecidableEq, Repr

/-- A `FAULT.CONFIG` that waits for step 5 of the next boundary (17 R503). -/
structure FltConfig where
  first : Nat
  count : Nat
  n : BitVec 8
  w : BitVec 16
  react : BitVec 6
  cores : BitVec 48
  deriving DecidableEq, Repr

/-- The fault collector (17 R490). A source that is not listed stands at its reset configuration. -/
structure CollState where
  srcs : Tab (Option Source) := []
  pend : List FltConfig := []
  deriving DecidableEq, Repr

/-- The bench domain (17 R506). `rec` is the black-box ring by index; each record holds four words. -/
structure BenchState where
  fltFirst : Word := 0
  fltFirstCn : Word := 0
  cfg : Word := 0xA02
  error : Bool := false
  checkstop : Bool := false
  lastReset : BitVec 3 := 0
  head : Nat := 0
  wrapped : Bool := false
  frozen : Bool := false
  fcause : BitVec 3 := 0
  snap : List Word := []
  ring : Tab (List Word) := []
  zeroArmed : Bool := false
  shadowLvl : Word := 0
  shadowClo : Word := 0
  shadowDrop : Word := 0
  shadowChn : Word := 0
  shadowRelevel : Word := 0
  mrDelay : Bool := false
  deriving DecidableEq, Repr

end Sys2Proof.Machine
end

