-- ==== Sys2Proof/Machine/StService.lean ====
section
/-! DEFINITION. The state of the service die: mailboxes, Sahya, key store, boot and flash, power domains, start-up.
Default field values are the reset values. -/
namespace Sys2Proof.Machine

/-- The authoritative state of a mailbox channel (16 R461). -/
inductive MbxSt
  | empty
  | composing (by_ : Side)
  | full (by_ : Side)
  deriving DecidableEq, Repr

/-- The authoritative side of a channel (16 R461, R464): the words composed, the length sent, the words last delivered
to each side, and the W1C bits TAKEN, RECALLED and REFUSED of each side. -/
structure MbxChan where
  bind : Word := 0
  st : MbxSt := .empty
  words : List Word := []
  len : Nat := 0
  lastA : List Word := []
  lastB : List Word := []
  flagsA : BitVec 3 := 0
  flagsB : BitVec 3 := 0
  deriving DecidableEq, Repr

/-- A unit's levelled view of one side of a channel (16 R463). -/
structure MbxView where
  words : List Word := []
  status : Word := 0
  deriving DecidableEq, Repr

/-- A command that waits to be executed: where it came from and its words (16 R466). The commands of a batch wait as one:
`rest` holds those that follow, and `batch` is there for a batch, holding its STAMP once it has passed its checks (16 R468). -/
structure CmdFrame where
  chan : Fin 64
  side : Side
  words : List Word
  rest : List (List Word) := []
  batch : Option (Option Nat) := none
  deriving DecidableEq, Repr

/-- A `STATION.TAKEOVER` whose pairs are still being added (16 R472). -/
structure TakeoverJob where
  mbook : BitVec 8
  jbook : BitVec 8
  pairs : List (BitVec 20 × BitVec 20)
  deriving DecidableEq, Repr

/-- What the start image carries (16 R479), and the microcode patch of the active images (step 6). `memConfig` holds the `MEM.CONFIG`
words, `binds` MBX_BIND by channel, `code` the code pages with their module-physical frames. -/
structure StartImage where
  chnCfg : Word := 2
  chnSync : Word := 0x140
  lvlCfg : Word := 8
  ctxBase : Nat := 0
  map : List MapEnt := []
  entry : CodeAddr := 0
  hostMode : Bool := false
  rate : Nat := 400
  maxres : Nat := 16384
  maxpass : Nat := 8
  force : Bool := false
  patch : Option PatchImage := none
  memConfig : List Word := []
  binds : Tab Word := []
  lock : Bool := false
  code : List (Nat × List Word) := []
  deriving DecidableEq, Repr

/-- Sahya's own state. -/
structure SahyaState where
  running : Bool := false
  fwDown : Bool := false
  lockStop : Bool := false
  expEn : Bool := false
  swAddr : Word := 0
  swData : Word := 0
  swBusy : Option Nat := none
  swRefused : Bool := false
  fltSel : Word := 0
  replies : Tab (List (List Word)) := []
  inbox : List CmdFrame := []
  batch : Tab (List (List Word)) := []
  route : Option (Fin 64 × Side) := none
  events : List (List Word) := []
  seq : Nat := 0
  lastStamp : Nat := 0
  line : List Stake := []
  lineCe : Nat := 0
  pool : Nat := 0
  entDue : Bool := false
  tod : Word := 0
  alarm : Option Word := none
  injTag : Option (CmdHdr × BitVec 4) := none
  powerTags : List (Nat × CmdHdr) := []
  scrubTag : Option CmdHdr := none
  scrubCancelled : Bool := false
  scrubAborted : Bool := false
  resetTags : List (UnitId × CmdHdr) := []
  takeover : Option TakeoverJob := none
  recon : List Word := []
  fbConflict : Bool := false
  flight : Tab Word := []
  auto : Bool := false
  coolMs : Nat := 0
  level : BitVec 3 := 0
  fixedThr : Bool := false
  mcodePend : Bool := false
  coreKept : Tab Core := []
  failing : List Nat := []
  heldIn : List (Option Nat × StakeBody) := []
  spareUntil : Nat := 0
  startMode : Option (BitVec 2) := none
  deriving DecidableEq, Repr

/-- A key-store slot (14 R407, 16 R482): its attributes in the layout of word 3, CTR, RETIRED, and the key. ALG 0 of an
unlisted slot is empty. -/
structure KeySlot where
  attrs : Word := 0
  ctr : Nat := 0
  retired : Bool := false
  key : BitVec 256 := 0
  deriving DecidableEq, Repr

/-- An entry of the key-bus log (14 R409): the request, its answer, and the unit that has taken it. -/
structure KeyAns where
  kseq : Nat
  slot : Nat
  load : Bool
  draw : Bool
  code : Nat
  ctr : Nat
  attrs : Word
  key : BitVec 256
  taker : UnitId
  deriving DecidableEq, Repr

/-- The key store (16 R482, 14 R407 to R410). `marks` are the counters persisted in flash; `flash` the persisted slots. -/
structure KeyStore where
  slots : Tab KeySlot := []
  root0 : Option (BitVec 256) := none
  root1 : Option (BitVec 256) := none
  rootFlash : Option (BitVec 256) := none
  flash : Tab KeySlot := []
  marks : Tab Nat := []
  log : List KeyAns := []
  deriving DecidableEq, Repr

/-- Boot, flash and OTP (16 R458, R476 to R478). `flash` is the flash memory by byte, `staging` the staging buffer;
an unlisted byte reads 0. -/
structure BootState where
  flash : Tab Byte := []
  staging : Tab Byte := []
  selector : Fin 2 := 0
  running : Option (Fin 3) := none
  runningSvn : Nat := 0
  runningGen : Nat := 0
  recovery : Bool := false
  counter : Nat := 0
  revoked : BitVec 4 := 0
  digests : List (List Byte) := []
  cal : Tab Byte := []
  calStage : Option (Tab Byte) := none
  calBad : Bool := false
  startImg : StartImage := {}
  retiredCopy : List Nat := []
  failedPhase : Nat := 0
  deriving DecidableEq, Repr

/-- A power-domain sequencer (18 R520, R523); `due` is the UCC at which a unit domain's sequence ends. -/
structure Dom where
  st : BitVec 3 := 0
  staked : Bool := false
  changes : BitVec 32 := 0
  due : Nat := 0
  deriving DecidableEq, Repr

/-- The level of the module reset that is held or running (18 R513). -/
inductive ResetLvl | none | warm | cold
  deriving DecidableEq, Repr

/-- Start-up, lands and power. `phase` is the phase of 18 R510 that runs, 0 while in reset; 10 when they are done. -/
structure PowState where
  vaon : Bool := true
  reset : ResetLvl := .cold
  phase : Nat := 0
  doms : Tab Dom := []
  unitReset : List (UnitId × Bool) := []
  pwrGood : Bool := false
  modResetN : Bool := false
  perstN : Bool := false
  modidLands : BitVec 16 := 0
  modId : BitVec 16 := 0
  modIdOvr : Bool := false
  refclk : Bool := false
  jtagIr : BitVec 8 := 0
  deriving DecidableEq, Repr

/-- The mailboxes of the module (16 R460 to R465). -/
structure MailState where
  chans : Tab MbxChan := []
  lock : Bool := false
  lockWritten : Bool := false
  deriving DecidableEq, Repr

end Sys2Proof.Machine
end

