-- ==== Sys2Proof/Machine/StTrv.lean ====
section
/-! DEFINITION. The state of a unit's stations, transport, transaction slots, fieldbook stack, link tables, cipher pages
and compression channels. Default field values are the reset values. -/
namespace Sys2Proof.Machine

/-- DB_STATE.STATE (05 R134). -/
inductive StnSt | closed | opened | quiescing | quiesced | replaying
  deriving DecidableEq, Repr

/-- The connection states (06 R187, 16 R548). -/
inductive ConnSt | closed | listen | initSent | initRcvd | established | closing | lost
  deriving DecidableEq, Repr

/-- An outbound message that the peer has not acknowledged (06 R192). `recOff` is its OUT record where it is journalled; `own`: a TX entry waits for it;
`ready` is false until its record is complete; `afterSeq` is the request whose acknowledgement must have been emitted
(05 R145); `data` holds a mirror message's bytes. -/
structure Sent where
  seq : Nat
  tag : Word
  len : Nat
  buf : Nat
  recOff : Option Nat
  own : Bool
  afterSeq : Option Nat
  ready : Bool
  emitted : Bool
  data : List Byte
  deriving DecidableEq, Repr

/-- A message being reassembled (06 R189): the segments as (offset, bytes), and the UCC at which it is discarded. -/
structure Partial where
  seq : Nat
  mlen : Nat
  segs : List (Nat × List Byte)
  deadline : Nat
  verdict : ProgVerdict
  deriving DecidableEq, Repr

/-- A station's transport state (06 R186 to R196). `ladder` is the step and the UCC at which it expires; `lastAck` and
`sameAcks` count ACKs in succession; `ackDue` is a deferred pure ACK. -/
structure Conn where
  st : ConnSt := .closed
  myConn : Word := 0
  peerConn : Word := 0
  nonce : Word := 0
  peerNonce : Word := 0
  pendNonce : Word := 0
  pendConn : Word := 0
  pendPeerConn : Word := 0
  pendResume : Bool := false
  estab : Bool := false
  pendBody : Option HsBody := none
  resume : Bool := false
  wnd : Nat := 0
  sacks : List (Nat × Nat) := []
  ladder : Option (Nat × Nat) := none
  lastAck : Nat := 0
  sameAcks : Nat := 0
  ackSent : Nat := 0
  ackAt : Nat := 0
  ackDue : Bool := false
  lastValid : Nat := 0
  probing : Bool := false
  lostAt : Nat := 0
  tie : Option Nat := none
  peerAddr : Quad := 0
  peerPort : BitVec 16 := 0
  pendAddr : Quad := 0
  pendPort : BitVec 16 := 0
  peerModule : BitVec 16 := 0
  parts : List Partial := []
  hold : List InMsg := []
  sent : List Sent := []
  deriving DecidableEq, Repr

/-- A replay whose step 1 is done (05 R165), and the next IN record's SEQ. -/
structure Replay where
  nextSeq : Nat
  deriving DecidableEq, Repr

/-- A station (05 R134, R548). Every inbound SEQ below `done` is completely written; `confWait` lists the written SEQs
of a mirrored book with their BSN that wait for the partner's confirmation (05 R143). `desc` holds words 0 to 12 of its descriptor, `peer` the eight words of the TVT peer
entry; the three sequence numbers are the running state of JMODE NONE. -/
structure Station where
  st : StnSt := .closed
  busy : Bool := false
  waitCmd : Option Word := none
  txProd : BitVec 32 := 0
  txc : BitVec 32 := 0
  rxProd : Vector (BitVec 32) 4 := Vector.replicate 4 0
  rxTaken : Vector (BitVec 32) 4 := Vector.replicate 4 0
  cqCons : Vector (BitVec 32) 4 := Vector.replicate 4 0
  cqProd : Vector (BitVec 32) 4 := Vector.replicate 4 0
  cqKnown : Bool := false
  reserved : Nat := 0
  errEntry : Option (BitVec 32) := none
  code : BitVec 8 := 0
  descAddr : Nat := 0
  desc : List Word := []
  peer : List Word := []
  path : Option Nat := none
  inNext : Nat := 0
  outNext : Nat := 0
  outAcked : Nat := 0
  conn : Conn := {}
  replay : Option Replay := none
  done : Nat := 0
  confWait : List (Nat × Nat) := []
  heldAcks : List Nat := []
  resRx : Vector Nat 4 := Vector.replicate 4 0
  mirrorTold : Bool := false
  discProg : BitVec 32 := 0
  discRes : BitVec 32 := 0
  dups : BitVec 32 := 0
  retx : BitVec 32 := 0
  errLost : BitVec 32 := 0
  discOther : BitVec 32 := 0
  rawFrames : Word := 0
  rawFcs : Word := 0
  deriving DecidableEq, Repr

/-- An entry of the station directory (05 R130): the parcel that holds the grant. -/
abbrev Grant := Option (BitVec 6)

/-- An open transaction slot (05 R140). -/
structure Slot where
  station : Nat
  seq : Nat
  off : Nat
  cn : Nat
  parcel : Nat
  deriving DecidableEq, Repr

/-- What waits for a fieldbook write to complete (13 R400): a PLUMB of a logical core, the DONE of a WRT, the delivery of an IN record, the transmission of an OUT
record, a settlement, a mirror record, or nothing. -/
inductive FbCont
  | nothing
  | coreStore (l : Nat)
  | cohDone (agent line : Nat)
  | inRecord (station seq bsn q slot off buf cap : Nat) (tag : Word) (payload : List Byte)
  | outRecord (station seq : Nat)
  | settled (station slot : Nat) (tag : Word) (off : Nat)
  | mirrorRec (station book mseq : Nat) (originBsn : Nat)
  deriving DecidableEq, Repr

/-- A fieldbook write in flight: its offset, its bytes and what waits for it. -/
structure FbWrite where
  off : Nat
  bytes : List Byte
  poison : Bool
  due : Nat
  cont : FbCont
  deriving DecidableEq, Repr

/-- Mirror bookkeeping of a mirrored book (05 R160): emitted messages that are not confirmed, with their chain, the
origin BSN of a record, and whether the next message restarts the count. -/
structure MirrorBk where
  unconf : List (Nat × Nat) := []
  restart : Bool := false
  lastSeen : Option Nat := none
  deriving DecidableEq, Repr

/-- A fieldbook stack (05 R148, 13 R399). `mem` is what its words hold; `view` the performed stores, which a completed
write makes durable; an unlisted byte reads 0 (log 7). -/
structure FbState where
  mem : Tab Byte := []
  view : Tab Byte := []
  bad : Tab Bool := []
  poison : Tab Bool := []
  flight : List FbWrite := []
  waiting : List FbWrite := []
  sparesUsed : Nat := 0
  ce : BitVec 16 := 0
  ue : BitVec 16 := 0
  wretry : BitVec 16 := 0
  wfail : BitVec 16 := 0
  log : List Word := []
  mlost : BitVec 256 := 0
  epoch : BitVec 32 := 0
  lstate : BitVec 2 := 0
  mirror : Tab MirrorBk := []
  deriving DecidableEq, Repr

/-- A port as the units hold it (06 R173 to R176, 16 R548): the CFG word, MAC, raw station, multicast entries, whether
it is configured and up, and its levelled counters. -/
structure UnitPort where
  conf : Bool := false
  cfg : Word := 0
  mac : BitVec 48 := 0
  raw : BitVec 20 := 0xFFFFF
  up : Bool := false
  frames : Word := 0
  fcs : Word := 0
  unclass : Word := 0
  deriving DecidableEq, Repr

/-- A path group (06 R204). -/
structure PathGroup where
  spread : Bool := false
  paths : Tab PathEntry := []
  deriving DecidableEq, Repr

/-- A cipher context held in a page between segments (14 R418). -/
structure CphCtx where
  mode : Nat
  slot : Nat
  iv : Quad
  acc : Quad
  aadLen : Nat
  len : Nat
  held : List Byte
  devIv : Bool
  ivWords : Quad
  tagMask : Quad
  deriving DecidableEq, Repr

/-- A hidden key register (14 R411): key, ALG, USE, DUSE, EXT_IV, FIXED, SLOT, whether it was derived. -/
structure HiddenKey where
  key : BitVec 256
  alg : Nat
  use : BitVec 5
  duse : BitVec 4
  extIv : Bool
  fixed : BitVec 32
  slot : Nat
  derived : Bool
  retired : Bool
  deriving DecidableEq, Repr

/-- A completion record that waits to be written (14 R423). -/
structure CphDone where
  code : BitVec 8
  trust : Bool
  ivDev : Bool
  doneLen : Nat
  w2 : Word
  w3 : Word
  full : Bool
  cpl : Nat
  irq : Bool
  vec : BitVec 8
  deriving DecidableEq, Repr

/-- A cipher register page (14 R413). `noCtx` marks a command without a CTX check: one of the expert window on the lock page (R425). -/
structure CphPage where
  owner : Option (BitVec 6 × BitVec 16) := none
  args : Vector Word 10 := Vector.replicate 10 0
  cmd : List Word := []
  busy : Bool := false
  ovr : Bool := false
  code : BitVec 8 := 0
  key : Option HiddenKey := none
  ctx : Option CphCtx := none
  done : Option CphDone := none
  waitKey : Bool := false
  keyDone : Bool := false
  drawn : Nat := 0
  noCtx : Bool := false
  deriving DecidableEq, Repr

/-- A key-bus transaction that waits or is issued (14 R408): the page, the slot, load, draw. -/
structure KeyTxn where
  page : Nat
  slot : Nat
  load : Bool
  draw : Bool
  deriving DecidableEq, Repr

/-- A compression channel (14 R433). -/
structure CmpChan where
  owner : Option (BitVec 6 × BitVec 16) := none
  ring : Word := 0
  prod : BitVec 32 := 0
  cons : BitVec 32 := 0
  busy : Bool := false
  needFirst : Bool := true
  deriving DecidableEq, Repr

/-- A compression job whose end words wait to be written (14 R430). -/
structure CmpJob where
  chan : Nat
  descAddr : Nat
  w6 : Word
  w7 : Word
  irq : Bool
  vec : BitVec 8
  deriving DecidableEq, Repr

/-- A compression engine: the running job and the channel last served (14 R429). -/
structure CmpEngine where
  chans : Tab CmpChan := []
  job : Option CmpJob := none
  last : Nat := 15
  deriving DecidableEq, Repr

/-- The stations, slots and link tables of a unit. -/
structure TrvState where
  grants : Tab Grant := []
  quotas : Tab Nat := []
  stations : Tab Station := []
  slots : Tab (Option Slot) := []
  stdprog : Bool := false
  ports : Tab UnitPort := []
  addrs : Tab (Option (Bool × Quad)) := []
  groups : Tab PathGroup := []
  tvtPort : BitVec 16 := 47310
  native : Word := 0x80064
  outHeld : List OutBody := []
  deriving DecidableEq, Repr

/-- The cipher and compression side of a unit. -/
structure CphState where
  pages : Tab CphPage := []
  lockEn : Bool := false
  lockPage : Nat := 0
  kseq : Nat := 0
  keyQ : List KeyTxn := []
  tvtKeys : Tab (Option HiddenKey) := []
  cmp : Vector CmpEngine 2 := Vector.replicate 2 {}
  deriving DecidableEq, Repr

/-- The die side of a port (06 R179, R180, R199, R200, R548). `rx` is the receive buffer, `tx` the transmit queue. -/
structure DiePort where
  conf : Bool := false
  cfg : Word := 0
  mac : BitVec 48 := 0
  mcast : List (BitVec 48) := List.replicate 16 0
  up : Bool := false
  rx : List InputBody := []
  rxBytes : Nat := 0
  tx : List (List Byte) := []
  txBytes : Nat := 0
  paused : Nat := 0
  pauseSent : Bool := false
  llExpect : BitVec 16 := 0
  llNext : BitVec 16 := 0
  replayBuf : List (BitVec 16 × List Byte) := []
  sinceAck : Nat := 0
  replays : Nat := 0
  vc0 : Nat := 0
  vc1 : Nat := 0
  grant0 : Nat := 0
  grant1 : Nat := 0
  lock : Bool := false
  trained : BitVec 4 := 0
  txFrames : Word := 0
  txDiscard : Word := 0
  fecCorr : Word := 0
  fecUncorr : Word := 0
  rxDrop : Word := 0
  pauseRx : BitVec 32 := 0
  pauseTx : BitVec 32 := 0
  llReplay : Word := 0
  downEvents : Word := 0
  deriving DecidableEq, Repr

end Sys2Proof.Machine
end

