-- ==== Sys2Proof/Machine/State.lean ====
section
/-! DEFINITION. The state of the module, the reasons a step can stop, and the state after reset. Default field values
are the reset values. -/
namespace Sys2Proof.Machine

/-- Why the machine stops. -/
inductive Fault
  /-- A reserved bit of a register was written as one; 00 R15 leaves the effect undefined. Raised by the register
  writes. Safe: the hardware goes on in a way the spec does not give. -/
  | reservedWrite
  /-- An exception of the service processor, whose handling is internal to its firmware (10, introduction). Raised by
  the instruction rows on the service processor. Safe. -/
  | firmwareException
  deriving DecidableEq, Repr

/-- What has no meaning in the model. -/
inductive Refusal
  /-- An arm of the dispatch that has no meaning yet. Raised by the dispatch only. Safe. -/
  | notModelled (mnemonic : String)
  /-- A service-group instruction on the service processor: its operands address service-die resources that no
  software reaches, and the spec gives no effect (07 R228). Raised by the service-group rows. Safe. -/
  | serviceGroup
  deriving DecidableEq, Repr

/-- The clock bin of the part (00 R1). -/
inductive Bin | l52 | l48
  deriving DecidableEq, Repr

/-- A compute unit with its memory and its fieldbook stack. -/
structure UnitState where
  powered : Bool := true
  executing : Bool := false
  dropped : Bool := false
  initialised : Bool := false
  held : Bool := false
  ucc : Nat := 0
  cn : Nat := 0
  ub : Nat := 0
  chn : ChnRegs := {}
  lvl : LvlRegs := {}
  clo : CloRegs := {}
  exe : ExeState := {}
  mem : MemState := {}
  trv : TrvState := {}
  fb : FbState := {}
  cph : CphState := {}
  views : Tab MbxView := []
  binds : Tab Word := []
  feed : List Stake := []
  deriving DecidableEq, Repr

/-- The state of the module. `freeCtr` counts the free values taken (log 8) and `sent` lists what has left on the lanes,
port and frame (log 15): both are the model's own fields. -/
structure State where
  pending : List Instr := []
  freeCtr : Nat := 0
  bin : Bin := .l52
  u0 : UnitState := {}
  u1 : UnitState := {}
  gen : GenState := {}
  dies : Vector DieState 4 := Vector.replicate 4 {}
  ports : Tab DiePort := []
  hub : HubState := {}
  coll : CollState := {}
  bench : BenchState := {}
  mail : MailState := {}
  sahya : SahyaState := {}
  keys : KeyStore := {}
  boot : BootState := {}
  pow : PowState := {}
  svcCore : Core := {}
  svcMem : Tab Byte := []
  sent : List (Nat × List Byte) := []
  deriving DecidableEq, Repr

/-- The machine right after reset: VAON has been applied and the module is held in module cold reset (18 R510). -/
def State.reset : State := {}

end Sys2Proof.Machine
end

