-- ==== Sys2Proof/Machine/Acc.lean ====
section
/-! DEFINITION. Accessors: units, roles, processors, signatures. -/
namespace Sys2Proof.Machine

/-- The state of a unit. -/
def getUnit (s : State) : UnitId → UnitState
  | .u0 => s.u0
  | .u1 => s.u1

/-- The state with a unit's state replaced. -/
def setUnit (s : State) (u : UnitId) (x : UnitState) : State :=
  match u with
  | .u0 => { s with u0 := x }
  | .u1 => { s with u1 := x }

/-- The state with a unit changed. -/
def modUnit (s : State) (u : UnitId) (f : UnitState → UnitState) : State := setUnit s u (f (getUnit s u))

/-- The state with both units changed alike. -/
def modBoth (s : State) (f : UnitState → UnitState) : State := modUnit (modUnit s .u0 f) .u1 f

/-- LVL_STATUS.STATE of a unit's levelled copy (03 R93). -/
def lvlState (x : UnitState) : Nat := bitsOf x.lvl.status 0 3

/-- LVL_STATUS.ROLE (03 R93). -/
def lvlRole (x : UnitState) : Nat := bitsOf x.lvl.status 3 2

/-- The unit that closure and the issuers take as the active one: the unit that is not dropped, else the Foresight by
LVL_STATUS.ROLE (00 R10, 04 R112). -/
def foreUnit (s : State) : UnitId :=
  if s.u0.dropped then .u1 else if s.u1.dropped then .u0 else
  match lvlRole s.u0 with
  | 0 => .u0
  | 1 => .u1
  | 2 => .u0
  | _ => .u1

/-- The active unit's state. -/
def foreState (s : State) : UnitState := getUnit s (foreUnit s)

/-- LVL_STATUS.STATE is OFF: no unit executes (03 R93). -/
def isOff (s : State) : Bool := lvlState (foreState s) == 0

/-- The phase of the re-level in progress; 0 when there is none; 7 once chain e has matched and LEVELLED is on
its way to the units (04 R121). -/
def relevelPhase (s : State) : Nat :=
  match s.hub.relevel with
  | none => 0
  | some r => r.phase

/-- The module is levelled: both units run (03 R93). -/
def isLevelled (s : State) : Bool := (lvlState (foreState s) == 1 || relevelPhase s == 7) && !s.u0.dropped && !s.u1.dropped

/-- The module is simplex, with or without a re-level in progress (03 R93). -/
def isSimplex (s : State) : Bool := !isOff s && !isLevelled s

/-- The unit that runs as Backsight: the other one while levelled, the joining unit while a re-level verifies (04 R121). -/
def backUnit (s : State) : Option UnitId :=
  if isLevelled s then some (foreUnit s).other else
  match s.hub.relevel with
  | none => none
  | some r => if r.phase = 6 then some r.join else none

/-- The unit holds the Foresight role. -/
def isFore (s : State) (u : UnitId) : Bool := decide (foreUnit s = u)

/-- The default register state of a logical core. -/
def coreDef : Nat → Core := fun _ => {}

/-- The default register state of a traverse engine, which executes in problem state only (07 R211). -/
def engineDef : Nat → Core := fun _ => { psw := { s := false } }

/-- The unit a processor belongs to; the service processor is given Unit 0 where none matters. -/
def procUnit : Proc → UnitId
  | .core u _ => u
  | .engine u _ => u
  | .service => .u0

/-- A logical core of a unit. -/
def unitCore (x : UnitState) (l : Nat) : Core := tabGet coreDef x.exe.cores l

/-- A unit with a logical core replaced. -/
def setUnitCore (x : UnitState) (l : Nat) (c : Core) : UnitState :=
  { x with exe := { x.exe with cores := tabSet coreDef x.exe.cores l c } }

/-- A unit with one logical core changed. -/
def modUnitCore (x : UnitState) (l : Nat) (f : Core → Core) : UnitState := setUnitCore x l (f (unitCore x l))

/-- A unit with every logical core changed. -/
def modAllCores (x : UnitState) (f : Nat → Core → Core) : UnitState :=
  (List.range 48).foldl (fun y l => modUnitCore y l (f l)) x

/-- A traverse engine of a unit. -/
def unitEngine (x : UnitState) (e : Nat) : Core := tabGet engineDef x.exe.engines e

/-- A unit with a traverse engine replaced. -/
def setUnitEngine (x : UnitState) (e : Nat) (c : Core) : UnitState :=
  { x with exe := { x.exe with engines := tabSet engineDef x.exe.engines e c } }

/-- The register state of a processor. -/
def getCore (s : State) : Proc → Core
  | .core u l => unitCore (getUnit s u) l
  | .engine u e => unitEngine (getUnit s u) e
  | .service => s.svcCore

/-- The state with a processor's register state replaced. -/
def setCore (s : State) (p : Proc) (c : Core) : State :=
  match p with
  | .core u l => modUnit s u (fun x => setUnitCore x l c)
  | .engine u e => modUnit s u (fun x => setUnitEngine x e c)
  | .service => { s with svcCore := c }

/-- The state with a processor's register state changed. -/
def modCore (s : State) (p : Proc) (f : Core → Core) : State := setCore s p (f (getCore s p))

/-- The profile of a processor (07 R210). -/
def procProfile : Proc → Profile
  | .core .. => .c
  | .engine .. => .t
  | .service => .s

/-- The agent position of a processor's cache (11 R332): a core's position by the enabled-core map, a cluster's 56 on. -/
def procAgent (s : State) : Proc → Nat
  | .core u l => tabGet (fun n => n) (getUnit s u).exe.map l
  | .engine _ e => 56 + e / 16
  | .service => 79

/-- One folding step: `s * z xor x` in GF(2)[z] modulo z^128 + z^7 + z^2 + z + 1 (03 R76). -/
def foldSig (sg x : Quad) : Quad :=
  (if sg.getLsbD 127 then (sg <<< 1) ^^^ 0x87 else sg <<< 1) ^^^ x

/-- A list of items folded in order. -/
def foldItems (sg : Quad) (xs : List Quad) : Quad := xs.foldl foldSig sg

/-- Every signature starts at zero. -/
def sigDef : Nat → Quad := fun _ => 0

/-- Items folded into entry `n` of a signature table. -/
def foldTab (t : Tab Quad) (n : Nat) (xs : List Quad) : Tab Quad := tabSet sigDef t n (foldItems (tabGet sigDef t n) xs)

/-- A unit with its current signatures changed. -/
def modSig (x : UnitState) (f : Sigs → Sigs) : UnitState := { x with exe := { x.exe with sig := (f x.exe.sig) } }

/-- Retired register writes of a logical core folded into its signature: the register code, then the value. -/
def foldCoreWrites (x : UnitState) (l : Nat) (ws : List (BitVec 8 × Quad)) : UnitState :=
  modSig x (fun g => { g with core := foldTab g.core l (ws.flatMap (fun w => [w.1.setWidth 128, w.2])) })

/-- Engine state writes folded into the cluster's signature: engine index [3:0] and register code [11:4], then the
value. -/
def foldEngineWrites (x : UnitState) (e : Nat) (ws : List (BitVec 8 × Quad)) : UnitState :=
  let items : List Quad := ws.flatMap (fun w => [BitVec.ofNat 128 (e % 16 + w.1.toNat * 16), w.2])
  modSig x (fun g => { g with trav := foldTab g.trav (e / 16) items })

/-- Instructions counted as retired by a logical core (03 R76, 07 R236). -/
def countRetired (x : UnitState) (l n : Nat) : UnitState :=
  modSig x (fun g => { g with retired := tabSet (fun _ => 0) g.retired l (tabGet (fun _ => 0) g.retired l + n) })

/-- The register code of a data register (07 R215). -/
def codeD (r : Reg) : BitVec 8 := 0x10 + r.setWidth 8
/-- The register code of an address register. -/
def codeA (r : Reg) : BitVec 8 := r.setWidth 8
/-- The register code of an accumulator. -/
def codeK (r : Reg) : BitVec 8 := 0x20 + (r.setWidth 8 &&& 3)

/-- Data register `r`. -/
def rdD (c : Core) (r : Reg) : Word := c.d[r.toNat]'r.isLt
/-- Address register `r`. -/
def rdA (c : Core) (r : Reg) : Word := c.a[r.toNat]'r.isLt
/-- Accumulator `r`. -/
def rdK (c : Core) (r : Reg) : Quad := c.k[r.toNat % 4]'(Nat.mod_lt _ (by decide))
/-- Data register `r` written. -/
def wrD (c : Core) (r : Reg) (v : Word) : Core := { c with d := c.d.set r.toNat v r.isLt }
/-- Address register `r` written. -/
def wrA (c : Core) (r : Reg) (v : Word) : Core := { c with a := c.a.set r.toNat v r.isLt }
/-- Accumulator `r` written. -/
def wrK (c : Core) (r : Reg) (v : Quad) : Core := { c with k := c.k.set (r.toNat % 4) v (Nat.mod_lt _ (by decide)) }

/-- PSW as MFC reads it (07 R219). -/
def pswWord (p : Psw) : Word :=
  BitVec.ofNat 64 (bit p.c + 2 * bit p.v + 4 * bit p.z + 8 * bit p.n + 256 * bit p.s + 512 * bit p.ie + 1024 * bit p.tx)

/-- ECAUSE as MFC reads it (10 R301). -/
def ecauseWord (e : Ecause) : Word :=
  BitVec.ofNat 64 (e.code.toNat + 256 * e.ilen.toNat + 1024 * bit e.tx + 2048 * bit e.mcip + 65536 * e.iaddr.toNat)

end Sys2Proof.Machine
end

