-- ==== Sys2Proof/Machine/Stakes.lean ====
section
/-! DEFINITION. Issuing stakes: chain lengths, STAMP, SEQ, the stake line, feeding the units (02 R29, 03 R60 to R68). -/
namespace Sys2Proof.Machine

/-- Cycles of the shortest chain by clock bin (02 R29). -/
def binCycles : Bin → Nat
  | .l52 => 2600
  | .l48 => 2400

/-- The length in cycles of a chain of a PERIOD (02 R29). -/
def chainCycles (b : Bin) (p : Nat) : Nat := binCycles b * 2 ^ p

/-- CHN_STATUS.PERIOD_EFF of a unit (02 R49). -/
def periodEff (x : UnitState) : Nat := bitsOf x.chn.status 5 3

/-- The UCC of a unit's next boundary: UB(n + 1) = UB(n) + P(n) (02 R31). -/
def nextUb (s : State) (x : UnitState) : Nat := x.ub + chainCycles s.bin (periodEff x)

/-- The first boundary UCC of the active unit at least 1,024 cycles after now; UB(e) during a re-level freeze (03 R86,
16 R485, 04 R547). -/
def boundaryStamp (s : State) : Nat :=
  let x := foreState s
  let n := nextUb s x
  match s.hub.relevel with
  | some r =>
    if r.phase = 5 then x.ub + (r.e - r.f) * chainCycles s.bin (periodEff x)
    else if x.ucc + 1024 ≤ n then n else n + chainCycles s.bin s.gen.nextPeriod.toNat
  | none => if x.ucc + 1024 ≤ n then n else n + chainCycles s.bin s.gen.nextPeriod.toNat

/-- STAMP of a stake closed now with a stake distance (03 R60), before the rule of promotions. -/
def plainStamp (s : State) (dist : Nat) : Nat :=
  match s.hub.relevel with
  | some r => if r.phase = 5 then boundaryStamp s else (foreState s).ucc + dist
  | none => (foreState s).ucc + dist

/-- While edges are late or a tick is withheld for a re-lock, an issuer's STAMP lies above its previous one (04 R114,
02 R45). -/
def orderStamp (s : State) (last stamp : Nat) : Nat :=
  if s.hub.edgeLate ∨ s.gen.relock ≠ 0 then later stamp (last + 1) else stamp

/-- LEN of a stake record in payload words of 32 bytes (03 R64, R65). -/
def stakeLen : StakeBody → Nat
  | .input _ (.frame f) => (f.bytes.length + 31) / 32
  | .input _ (.flit f) => (16 + f.payload.length + 31) / 32
  | .entropy _ => 1
  | .host _ _ _ ws => (ws.length + 3) / 4
  | .code _ ws => (ws.length + 3) / 4
  | .mcode img => (img.words.length * 20 + img.entries.length * 8 + 31) / 32
  | .mchk .. => 1
  | .rws .. => 1
  | .cfg _ => 1
  | .scrub .. => 1
  | .debug .. => 1
  | _ => 0

/-- The bytes of a record in a stake line (03 R64). -/
def stakeBytes (b : StakeBody) : Nat := 32 + 32 * stakeLen b

/-- The bytes that a stake line holds. -/
def lineOcc (l : List Stake) : Nat := (l.map (fun k => stakeBytes k.body)).sum

/-- A unit is fed with stakes: it is initialised, not dropped, and in level (04 R112). -/
def isFed (s : State) (u : UnitId) : Bool :=
  !(getUnit s u).dropped && !isOff s && (decide (u = foreUnit s) || decide (backUnit s = some u))

/-- A record put on the way to the units that are fed. -/
def feedUnits (s : State) (k : Stake) : State :=
  let put := fun (s : State) (u : UnitId) =>
    if isFed s u && !(k.bkOnly && decide (u = foreUnit s)) then modUnit s u (fun x => { x with feed := x.feed ++ [k] }) else s
  put (put s .u0) .u1

/-- The service die stakes a record at a STAMP (03 R60, R67): its SEQ counts by one and wraps at 2^32. -/
def stakeSvcNow (s : State) (stamp : Nat) (bk : Bool) (b : StakeBody) : State :=
  let stamp := if bk then stamp else orderStamp s s.sahya.lastStamp stamp
  let k : Stake := { source := 0, stamp := stamp, seq := s.sahya.seq, bkOnly := bk, body := b }
  let line := if (backUnit s).isSome then s.sahya.line ++ [k] else s.sahya.line
  feedUnits { s with sahya := { s.sahya with seq := (s.sahya.seq + 1) % 2 ^ 32, lastStamp := stamp, line := line } } k

/-- Records that never wait for room: ECHO and CTL DROP, for which the service die keeps 4 KiB (03 R67). -/
def neverWaits : StakeBody → Bool
  | .echo .. => true
  | .drop .. => true
  | _ => false

/-- The service die's stake line has room for a record (03 R67). -/
def svcRoom (s : State) (b : StakeBody) : Bool :=
  neverWaits b || decide (lineOcc s.sahya.line + stakeBytes b ≤ 65536 - 4096)

/-- The service die issues a stake, or holds it in service SRAM while its line has no room; a module checkstop ends all
stakes, and so does a stopped service pair (03 R67, 17 R495, 16 R456). `fixed` is a STAMP set in advance. -/
def issueSvc (s : State) (fixed : Option Nat) (b : StakeBody) : State :=
  if s.bench.checkstop || s.sahya.lockStop || isOff s then s
  else if svcRoom s b && (s.sahya.heldIn.isEmpty || neverWaits b) then stakeSvcNow s (fixed.getD (plainStamp s 1024)) false b
  else { s with sahya := { s.sahya with heldIn := s.sahya.heldIn ++ [(fixed, b)] } }

/-- Held records of the service die staked while there is room. -/
def drainHeldIn : Nat → State → State
  | 0, s => s
  | n + 1, s =>
    match s.sahya.heldIn with
    | [] => s
    | (f, b) :: r =>
      if svcRoom s b then
        drainHeldIn n (stakeSvcNow { s with sahya := { s.sahya with heldIn := r } } (later (f.getD 0) (plainStamp s 1024)) false b)
      else s

/-- A stake that Sahya issues; none while the firmware is down (16 R457). -/
def issueFw (s : State) (fixed : Option Nat) (b : StakeBody) : State :=
  if s.sahya.running && !s.sahya.fwDown then issueSvc s fixed b else s

/-- A Traverse die. -/
def dieOf (s : State) (d : DieId) : DieState := s.dies.get d

/-- A Traverse die changed. -/
def modDie (s : State) (d : DieId) (f : DieState → DieState) : State :=
  { s with dies := s.dies.set d.val (f (dieOf s d)) d.isLt }

/-- The die of a port (01 R16). -/
def portDie (p : PortId) : DieId := ⟨p.val / 256, by have := p.isLt; omega⟩

/-- A die's stake line has room for a record: 1 MiB (03 R67). -/
def dieRoom (s : State) (d : DieId) (b : StakeBody) : Bool :=
  decide (lineOcc (dieOf s d).line + stakeBytes b ≤ 2 ^ 20)

/-- A Traverse die issues a stake with a stake distance of 512 cycles (03 R60). -/
def issueDie (s : State) (d : DieId) (b : StakeBody) : State :=
  if s.bench.checkstop || (dieOf s d).stopped || isOff s then s else
  let x := dieOf s d
  let stamp := orderStamp s x.lastStamp (plainStamp s 512)
  let k : Stake := { source := ⟨d.val + 1, by have := d.isLt; omega⟩, stamp := stamp, seq := x.seq, body := b }
  let s := modDie s d (fun x => { x with
    seq := (x.seq + 1) % 2 ^ 32, lastStamp := stamp
    line := if (backUnit s).isSome then x.line ++ [k] else x.line })
  feedUnits s k

/-- CLO_ and port state that the closure hub records in a unit's levelled registers (04 R128). -/
def applyHubCfg (x : UnitState) : CfgEffect → UnitState
  | .cloCfg pol auto wd inj =>
    { x with clo := { x.clo with
      cfg := withBits (withBits (withBits (withBit x.clo.cfg 0 pol) 1 2 auto.toNat) 8 8 wd.toNat) 16 16 inj.toNat } }
  | .cloStatus un down ret =>
    { x with clo := { x.clo with
      status := withBits (withBits (withBits x.clo.status 0 4 un.toNat) 4 4 down.toNat) 8 8 ret.toNat } }
  | .injOk v => { x with clo := { x.clo with status := withBit x.clo.status 16 v } }
  | .cloCount m r a t =>
    { x with clo := { x.clo with
      count := BitVec.ofNat 64 (m.toNat + 2 ^ 16 * r.toNat + 2 ^ 32 * a.toNat + 2 ^ 48 * t.toNat) } }
  | .relevelPhase ph kind passes =>
    { x with clo := { x.clo with
      relevel := withBits (withBits (withBit x.clo.relevel 3 kind) 0 3 ph.toNat) 8 8 passes.toNat } }
  | _ => x

/-- The closure hub records levelled state: through the staked-write path, at the first boundary at least 1,024 cycles on;
at once while no unit executes (04 R128, log 16). -/
def hubCfg (s : State) (e : CfgEffect) : State :=
  if isOff s then modBoth s (fun x => applyHubCfg x e) else issueSvc s (some (boundaryStamp s)) (.cfg e)

/-- A unit's levelled view of one side of a channel after a HOST stake (16 R463). Views are keyed by 2n + side. -/
def viewKey (n : Fin 64) (sd : Side) : Nat := 2 * n.val + (match sd with | .a => 0 | .b => 1)

/-- A HOST stake applied to the view: a message delivers its words and shows FULL with its LEN; a notice carries the new
MBX_STATUS (16 R463). -/
def applyHostView (x : UnitState) (n : Fin 64) (sd : Side) (notice : Bool) (ws : List Word) : UnitState :=
  let v := tabGet (fun _ => ({} : MbxView)) x.views (viewKey n sd)
  let v' : MbxView :=
    if notice then { v with status := ws.headD 0 }
    else { words := ws, status := withBits (withBit v.status 0 true) 2 5 ws.length }
  { x with views := tabSet (fun _ => ({} : MbxView)) x.views (viewKey n sd) v' }

end Sys2Proof.Machine
end

