-- ==== Sys2Proof/Machine/SahyaChk.lean ====
section
/-! DEFINITION. Sahya's checks of a frame before it acts (16 R469, R470, R472). -/
namespace Sys2Proof.Machine

/-- Verbs of each group in the command index (16 R472, R482, R486, 17 R503, 18). -/
def verbCount : Nat → Nat
  | 0x01 => 7
  | 0x02 => 3
  | 0x03 => 1
  | 0x04 => 7
  | 0x05 => 2
  | 0x06 => 6
  | 0x07 => 6
  | 0x08 => 7
  | 0x09 => 4
  | 0x0A => 11
  | 0x0B => 2
  | 0x0C => 5
  | 0x0D => 4
  | 0x0E => 3
  | 0x0F => 6
  | 0x10 => 2
  | _ => 0

/-- The command returns result words, so no batch may hold it (16 R468). -/
def returnsResults (g v : Nat) : Bool :=
  (g, v) ∈ [(1, 5), (1, 6), (2, 3), (5, 2), (6, 2), (6, 6), (7, 3), (8, 4), (8, 5), (9, 4), (0xA, 3), (0xA, 5), (0xA, 6), (0xC, 2), (0xC, 5),
    (0xD, 2), (0xE, 1), (0xF, 6), (0x10, 1)]

/-- The codes of 16 R474 by name. -/
def ccOk : Nat := 0x00
/-- BAD_FRAME. -/
def ccBadFrame : Nat := 0x01
/-- BAD_VER. -/
def ccBadVer : Nat := 0x02
/-- BAD_CMD. -/
def ccBadCmd : Nat := 0x03
/-- BAD_ARG. -/
def ccBadArg : Nat := 0x04
/-- NOT_PERMITTED. -/
def ccNotPermitted : Nat := 0x05
/-- BUSY. -/
def ccBusy : Nat := 0x06
/-- FULL. -/
def ccFull : Nat := 0x07
/-- EXISTS. -/
def ccExists : Nat := 0x08
/-- CONFLICT. -/
def ccConflict : Nat := 0x09
/-- TIMEOUT. -/
def ccTimeout : Nat := 0x0A

/-- A mailbox channel of the service die. -/
def mbxOf (s : State) (n : Fin 64) : MbxChan := tabGet (fun _ => ({} : MbxChan)) s.mail.chans n.val

/-- MIDA, or MIDB, of a binding (16 R465). -/
def bindMid (w : Word) : Side → Nat
  | .a => bitsOf w 0 16
  | .b => bitsOf w 16 16

/-- VECA, or VECB, of a binding (16 R465). -/
def bindVec (w : Word) : Side → Nat
  | .a => bitsOf w 32 8
  | .b => bitsOf w 40 8

/-- MBX_BIND.EN. -/
def bindEn (w : Word) : Bool := bitOf w 48

/-- The parcel whose supervisor a MID names (16 R459). -/
def midParcel (m : Nat) : Option Nat := if 0x100 ≤ m ∧ m < 0x140 then some (m - 0x100) else none

/-- A MID whose side lies in the units: a parcel supervisor or a traverse-engine cluster (16 R463). -/
def midInUnit (m : Nat) : Bool := decide (0x100 ≤ m ∧ m < 0x140) || decide (0x200 ≤ m ∧ m < 0x210)

/-- A MID that may be bound (16 R459). -/
def midKnown (m : Nat) : Bool :=
  decide (m = 0) || decide (0x10 ≤ m ∧ m < 0x14) || midInUnit m || decide (m = 0x300)

/-- A parcel has SYSTEM = 1 (15 R436), by the active unit's tables. -/
def parcelSystem (s : State) (p : Nat) : Bool :=
  match tabGet (fun _ => (none : Option Parcel)) (foreState s).mem.parcels p with
  | none => false
  | some q => q.sys

/-- Commands that a supervisor of a parcel without SYSTEM may issue (16 R469); whether they name its own things is
checked with their arguments. -/
def plainAllowed (g v : Nat) : Bool :=
  (g, v) ∈ [(6, 2), (6, 3), (6, 4), (5, 1), (4, 7), (1, 5), (1, 6), (2, 3), (7, 3), (0xD, 2), (0xA, 5), (0xA, 6)]

/-- The issuer may send the command at all (16 R469). -/
def issuerOk (s : State) (mid g v : Nat) : Bool :=
  if 0x10 ≤ mid ∧ mid < 0x14 then true else
  match midParcel mid with
  | none => false
  | some p => parcelSystem s p || plainAllowed g v

/-- The version field of a frame's word 0. -/
def frameVer (ws : List Word) : Nat := bitsOf (ws.headD 0) 0 8
/-- GROUP. -/
def frameGroup (ws : List Word) : Nat := bitsOf (ws.headD 0) 8 8
/-- VERB. -/
def frameVerb (ws : List Word) : Nat := bitsOf (ws.headD 0) 16 8
/-- LEN. -/
def frameLen (ws : List Word) : Nat := bitsOf (ws.headD 0) 24 4
/-- BATCH. -/
def frameBatch (ws : List Word) : Bool := bitOf (ws.headD 0) 28
/-- TAG. -/
def frameTag (ws : List Word) : Word :=
  if frameVer ws = 2 then ws.getD 1 0 else BitVec.ofNat 64 (bitsOf (ws.headD 0) 32 16)

/-- Argument word `k`, counted from 1; a word past LEN reads zero. -/
def frameArg (ws : List Word) (k : Nat) : Word :=
  if k ≤ frameLen ws then ws.getD (if frameVer ws = 2 then k + 1 else k) 0 else 0

/-- The commands that the boot ROM accepts in recovery (16 R477). -/
def recoveryAllows (g v : Nat) : Bool := (g, v) ∈ [(0xF, 1), (0xF, 2), (0xF, 6)]

/-- Steps 1 to 4 of 16 R470; in recovery the ROM takes three commands alone (R477). -/
def headerCode (s : State) (mid : Nat) (ws : List Word) : Nat :=
  let w := ws.headD 0
  let v2 := frameVer ws == 2
  let reserved := bitsOf w 29 3 ≠ 0 ∨ bitsOf w 48 16 ≠ 0 ∨ (v2 ∧ bitsOf w 32 16 ≠ 0) ∨ (!v2 ∧ bitOf w 28)
  if reserved ∨ (v2 ∧ 14 < frameLen ws) ∨ ws.length < frameLen ws + (if v2 then 2 else 1) then ccBadFrame
  else if frameVer ws ≠ 1 ∧ frameVer ws ≠ 2 then ccBadVer
  else if frameVerb ws = 0 ∨ verbCount (frameGroup ws) < frameVerb ws then ccBadCmd
  else if issuerOk s mid (frameGroup ws) (frameVerb ws) && (!s.boot.recovery || recoveryAllows (frameGroup ws) (frameVerb ws)) then ccOk
  else ccNotPermitted

end Sys2Proof.Machine
end

