-- ==== Sys2Proof/Machine/MailOps.lean ====
section
/-! DEFINITION. Mailbox channels at the service die, and Sahya's frames on them (16 R460 to R468, R549). -/
namespace Sys2Proof.Machine

/-- A channel replaced. -/
def setMbx (s : State) (n : Fin 64) (m : MbxChan) : State :=
  { s with mail := { s.mail with chans := tabSet (fun _ => ({} : MbxChan)) s.mail.chans n.val m } }

/-- The side of a channel that a MID is. -/
def midSide (m : MbxChan) (mid : Nat) : Option Side :=
  if bindMid m.bind .a = mid then some .a else if bindMid m.bind .b = mid then some .b else none

/-- The W1C flags of a side. -/
def mbxFlags (m : MbxChan) : Side → BitVec 3
  | .a => m.flagsA
  | .b => m.flagsB

/-- Flags of a side replaced. -/
def setMbxFlags (m : MbxChan) (sd : Side) (f : BitVec 3) : MbxChan :=
  match sd with
  | .a => { m with flagsA := f }
  | .b => { m with flagsB := f }

/-- MBX_STATUS of a side (16 R464). -/
def mbxStatus (m : MbxChan) (sd : Side) : Word :=
  let full := decide (m.st = .full sd.other)
  BitVec.ofNat 64 (bit full + 2 * bit (decide (m.st = .full sd)) + 4 * (if full then m.len else 0)
    + 256 * (mbxFlags m sd).toNat)

/-- A HOST stake to a side that lies in the units; while no unit executes, its view changes at once (16 R463, log 16).
HOST stakes cease while the firmware is down (R457). -/
def hostTo (s : State) (n : Fin 64) (sd : Side) (notice : Bool) (ws : List Word) : State :=
  if !midInUnit (bindMid (mbxOf s n).bind sd) then s
  else if isOff s then modBoth s (fun x => applyHostView x n sd notice ws)
  else issueFw s none (.host n sd notice ws)

/-- A notice to a side whose MBX_STATUS has changed (16 R463). -/
def noticeSide (old : MbxChan) (n : Fin 64) (sd : Side) (s : State) : State :=
  if mbxStatus old sd = mbxStatus (mbxOf s n) sd then s else hostTo s n sd true [mbxStatus (mbxOf s n) sd]

/-- The channel has changed: both sides get their notices. -/
def noticeBoth (old : MbxChan) (n : Fin 64) (s : State) : State := noticeSide old n .b (noticeSide old n .a s)

/-- A message delivered to a side: its words are that side's last ones, and its stake or MSI-X goes out (16 R463). -/
def deliverMsg (s : State) (n : Fin 64) (sd : Side) (ws : List Word) : State :=
  let m := mbxOf s n
  let s := setMbx s n (match sd with | .a => { m with lastA := ws } | .b => { m with lastB := ws })
  hostTo s n sd false ws

/-- The side of a channel that is Sahya's: MID 0x0000 (16 R460). -/
def sahyaSide (m : MbxChan) : Option Side :=
  if bindMid m.bind .a = 0 ∧ bindMid m.bind .b ≠ 0 then some .a
  else if bindMid m.bind .b = 0 ∧ bindMid m.bind .a ≠ 0 then some .b else none

/-- Reply frames that wait on a channel. -/
def repliesOf (s : State) (n : Nat) : List (List Word) := tabGet (fun _ => ([] : List (List Word))) s.sahya.replies n

/-- The replies that wait on a channel replaced. -/
def setReplies (s : State) (n : Nat) (l : List (List Word)) : State :=
  { s with sahya := { s.sahya with replies := tabSet (fun _ => ([] : List (List Word))) s.sahya.replies n l } }

/-- Sahya can answer: it runs, or the boot ROM serves recovery, and its watchdog has not stopped it (16 R457, R477). -/
def sahyaUp (s : State) : Bool := (s.sahya.running || s.boot.recovery) && !s.sahya.fwDown && !s.sahya.lockStop

/-- The next reply frame of a channel goes out when the channel is EMPTY (16 R467, R487). -/
def pumpReply (s : State) (n : Fin 64) : State :=
  let m := mbxOf s n
  match repliesOf s n.val, sahyaSide m with
  | ws :: r, some sd =>
    if sahyaUp s && bindEn m.bind && decide (m.st = .empty) then
      deliverMsg (setReplies (setMbx s n { m with st := .full sd, words := ws, len := ws.length }) n.val r) n sd.other ws
    else s
  | _, _ => s

/-- Frames queued on a channel, and the first sent when the channel is EMPTY. -/
def queueReplies (s : State) (n : Fin 64) (fs : List (List Word)) : State :=
  pumpReply (setReplies s n.val (repliesOf s n.val ++ fs)) n

/-- Word 0, and word 1 in version 2, of a reply frame (16 R467). -/
def replyHeader (v2 : Bool) (tag : Word) (g v len code index : Nat) (more : Bool) : List Word :=
  let w := (if v2 then 0x82 else 0x81) + 2 ^ 8 * g + 2 ^ 16 * v + 2 ^ 24 * len + 2 ^ 48 * code + 2 ^ 56 * index
    + 2 ^ 61 * bit more
  if v2 then [BitVec.ofNat 64 w, tag] else [BitVec.ofNat 64 (w + 2 ^ 32 * (tag.toNat % 2 ^ 16))]

/-- A reply split into frames of 15 or 14 result words, each but the last marked MORE (16 R548). `fuel` bounds the
frames. -/
def replyFrames (v2 : Bool) (tag : Word) (g v code index : Nat) : Nat → List Word → List (List Word)
  | 0, _ => []
  | fuel + 1, rs =>
    let cap := if v2 then 14 else 15
    if rs.length ≤ cap then [replyHeader v2 tag g v rs.length code index false ++ rs]
    else (replyHeader v2 tag g v cap code index true ++ rs.take cap) :: replyFrames v2 tag g v code index fuel (rs.drop cap)

/-- A reply to a command (16 R467): none while Sahya is down. -/
def postReply (s : State) (h : CmdHdr) (g v code index : Nat) (rs : List Word) : State :=
  if sahyaUp s then queueReplies s h.chan (replyFrames h.v2 h.tag g v code index (rs.length + 1) rs) else s

/-- An unsolicited event: version 1, tag 0, on the route channel, else in the queue of 64 (16 R549, 17 R503). -/
def postEvent (s : State) (g code : Nat) (rs : List Word) : State :=
  if !sahyaUp s then s else
  match s.sahya.route with
  | some (n, _) => queueReplies s n (replyFrames false 0 g 0xFF code 0 (rs.length + 1) rs)
  | none =>
    let f := replyFrames false 0 g 0xFF code 0 (rs.length + 1) rs
    let q := s.sahya.events ++ f
    { s with sahya := { s.sahya with events := q.drop (q.length - 64) } }

/-- The event that completes an accepted command (16 R467). -/
def postDone (s : State) (h : CmdHdr) (g code : Nat) (rs : List Word) : State := postReply s h g 0xFF code 0 rs

/-- The commands held for a batch on a channel (16 R468). -/
def batchOf (s : State) (n : Nat) : List (List Word) := tabGet (fun _ => ([] : List (List Word))) s.sahya.batch n

/-- The held batch of a channel replaced. -/
def setBatch (s : State) (n : Nat) (l : List (List Word)) : State :=
  { s with sahya := { s.sahya with batch := tabSet (fun _ => ([] : List (List Word))) s.sahya.batch n l } }

/-- The position of the first command of a batch whose header fails, and its code (16 R468, R470). -/
def firstBad (s : State) (mid : Nat) : Nat → List (List Word) → Option (Nat × Nat)
  | _, [] => none
  | k, ws :: r =>
    let c := headerCode s mid ws
    if c = ccOk then firstBad s mid (k + 1) r else some (k, c)

/-- A whole batch (16 R468): one that is too long, or that holds a command with results, is refused; else it waits to be executed.
Its commands are checked together as the first one comes to execution. -/
def acceptBatch (s : State) (n : Fin 64) (sd : Side) (l : List (List Word)) : State :=
  let last := l.getLastD []
  let h : CmdHdr := { chan := n, side := sd, v2 := decide (frameVer last = 2), tag := frameTag last }
  let s := setBatch s n.val []
  if 16 < l.length ∨ l.any (fun ws => returnsResults (frameGroup ws) (frameVerb ws)) then
    postReply s h (frameGroup last) (frameVerb last) ccBadFrame 0 []
  else
    match firstBad s (bindMid (mbxOf s n).bind sd) 0 l with
    | some (k, c) => postReply s h (frameGroup last) (frameVerb last) c k []
    | none => { s with sahya := { s.sahya with
        inbox := s.sahya.inbox ++ [{ chan := n, side := sd, words := l.headD [], rest := l.drop 1, batch := some none }] } }

/-- A frame that reaches Sahya (16 R468, R470 steps 1 to 4): refused at once, held for its batch, or accepted to be
executed. -/
def sahyaFrame (s : State) (n : Fin 64) (sd : Side) (ws : List Word) : State :=
  let h : CmdHdr := { chan := n, side := sd, v2 := decide (frameVer ws = 2), tag := frameTag ws }
  let code := headerCode s (bindMid (mbxOf s n).bind sd) ws
  let held := batchOf s n.val
  if held.isEmpty && !(frameBatch ws && h.v2) then
    if code ≠ 0 then postReply s h (frameGroup ws) (frameVerb ws) code 0 []
    else { s with sahya := { s.sahya with inbox := s.sahya.inbox ++ [{ chan := n, side := sd, words := ws }] } }
  else if code = ccBadFrame ∨ code = ccBadVer then
    postReply (setBatch s n.val []) h (frameGroup ws) (frameVerb ws) code (held.length % 32) []
  else if frameBatch ws then
    if 16 ≤ held.length then postReply (setBatch s n.val []) h (frameGroup ws) (frameVerb ws) ccBadFrame 0 []
    else setBatch s n.val (held ++ [ws])
  else acceptBatch s n sd (held ++ [ws])

/-- Sahya takes a message that waits for it (16 R461 TAKE, R462): only while it runs. -/
def sahyaPoll (s : State) (n : Fin 64) : State :=
  let m := mbxOf s n
  match sahyaSide m with
  | none => s
  | some sd =>
    if sahyaUp s && bindEn m.bind && decide (m.st = .full sd.other) then
      let s' := setMbx s n (setMbxFlags { m with st := .empty, words := [], len := 0 } sd.other (mbxFlags m sd.other ||| 1))
      pumpReply (noticeBoth m n (sahyaFrame s' n sd.other (m.words.take m.len))) n
    else s

/-- An access refused (16 R461): REFUSED for the side. -/
def mbxRefuse (m : MbxChan) (sd : Side) : MbxChan := setMbxFlags m sd (mbxFlags m sd ||| 4)

/-- The word list with word `i` written. -/
def setWord (ws : List Word) (i : Nat) (w : Word) : List Word := (ws ++ List.replicate (16 - ws.length) 0).set i w

/-- A write of MBX_DATA (16 R461). -/
def mbxData (m : MbxChan) (sd : Side) (i : Fin 16) (w : Word) : MbxChan :=
  if !bindEn m.bind then mbxRefuse m sd else
  match m.st with
  | .empty => { m with st := .composing sd, words := setWord [] i.val w }
  | .composing x => if x = sd then { m with words := setWord m.words i.val w } else mbxRefuse m sd
  | .full _ => mbxRefuse m sd

/-- A write of MBX_SEND at the channel (16 R461). -/
def mbxSendState (m : MbxChan) (sd : Side) (len : Nat) : MbxChan :=
  if bindEn m.bind && decide (m.st = .composing sd) && decide (1 ≤ len ∧ len ≤ 16) then { m with st := .full sd, len := len }
  else mbxRefuse m sd

/-- TAKE at the channel (16 R461). -/
def mbxTakeState (m : MbxChan) (sd : Side) : MbxChan :=
  if bindEn m.bind && decide (m.st = .full sd.other) then
    setMbxFlags { m with st := .empty, words := [], len := 0 } sd.other (mbxFlags m sd.other ||| 1)
  else mbxRefuse m sd

/-- RECALL at the channel (16 R461). -/
def mbxRecallState (m : MbxChan) (sd : Side) : MbxChan :=
  if bindEn m.bind && (decide (m.st = .composing sd) || decide (m.st = .full sd)) then
    setMbxFlags { m with st := .empty, words := [], len := 0 } sd (mbxFlags m sd ||| 2)
  else mbxRefuse m sd

/-- An access by a MID applied at the service die: the channel's new state, then notices, Sahya's reading, and a held
reply. A MID that is neither side changes nothing. -/
def mbxAccess (s : State) (n : Fin 64) (mid : Nat) (f : MbxChan → Side → MbxChan) : State :=
  let m := mbxOf s n
  match midSide m mid with
  | none => s
  | some sd =>
    let m' := f m sd
    let s := setMbx s n m'
    let s := if m'.st = .full sd ∧ m.st ≠ .full sd ∧ sahyaSide m' ≠ some sd.other then
        deliverMsg s n sd.other (m'.words.take m'.len) else s
    let s := if m'.st = .full sd ∧ m.st ≠ .full sd ∧ sahyaSide m' ≠ some sd.other then noticeSide m n sd s else noticeBoth m n s
    pumpReply (sahyaPoll s n) n

/-- A write of MBX_CTL (16 R464): TAKE with RECALL is refused as a whole; neither bit has no effect. -/
def mbxCtl (m : MbxChan) (sd : Side) (w : Word) : MbxChan :=
  match bitOf w 0, bitOf w 1 with
  | true, true => mbxRefuse m sd
  | true, false => mbxTakeState m sd
  | false, true => mbxRecallState m sd
  | false, false => m

/-- A write of MBX_STATUS: W1C bits 8 to 10 (16 R464). -/
def mbxClear (m : MbxChan) (sd : Side) (w : Word) : MbxChan :=
  setMbxFlags m sd (mbxFlags m sd &&& ~~~(BitVec.ofNat 3 (bitsOf w 8 3)))

/-- A write to an offset of a channel's page by a MID (16 R464); other offsets and read-only words change nothing. -/
def mbxWrite (s : State) (n : Fin 64) (mid off : Nat) (w : Word) : State :=
  if h : off < 0x80 then
    if off % 8 = 0 then mbxAccess s n mid (fun m sd => mbxData m sd ⟨off / 8, by omega⟩ w) else s
  else if off = 0x80 then mbxAccess s n mid (fun m sd => mbxSendState m sd (bitsOf w 0 5))
  else if off = 0x88 then mbxAccess s n mid (fun m sd => mbxCtl m sd w)
  else if off = 0x90 then mbxAccess s n mid (fun m sd => mbxClear m sd w)
  else s

end Sys2Proof.Machine
end

