-- ==== Sys2Proof/Machine/LinkOps.lean ====
section
/-! DEFINITION. Ports at their Traverse dies: lanes, transmit queue, native credits (06 R173 to R180, R198 to R200, R551). -/
namespace Sys2Proof.Machine

/-- A port at its die. -/
def portOf (s : State) (p : Nat) : DiePort := tabGet (fun _ => ({} : DiePort)) s.ports p

/-- A port replaced. -/
def setPort (s : State) (p : Nat) (x : DiePort) : State :=
  { s with ports := tabSet (fun _ => ({} : DiePort)) s.ports p x }

/-- A port changed. -/
def modPort (s : State) (p : Nat) (f : DiePort → DiePort) : State := setPort s p (f (portOf s p))

/-- The lanes of a WIDTH value (06 R174). -/
def widthLanes (w : Nat) : Nat := if w = 0 then 1 else if w = 1 then 2 else 4

/-- The lanes of a configured port. -/
def portLanes (x : DiePort) : Nat := widthLanes (bitsOf x.cfg 4 2)

/-- MODE 6: a native Gliust link (06 R174). -/
def portNative (x : DiePort) : Bool := bitsOf x.cfg 0 4 == 6

/-- A frame leaves on the lane; TX_FRAMES counts it (16 R548). -/
def laneSend (s : State) (p : Nat) (bs : List Byte) : State :=
  { modPort s p (fun x => { x with txFrames := x.txFrames + 1 }) with sent := s.sent ++ [(p, bs)] }

/-- A flit kept for replay with its LLSEQ until an LLACK covers it (06 R199). -/
def keepFlit (x : DiePort) (bs : List Byte) : DiePort :=
  { x with replayBuf := x.replayBuf ++ [(x.llNext, bs)], llNext := x.llNext + 1 }

/-- VC of a flit's bytes: TYPE 2 is CTL on VC 1 (06 R198). -/
def flitVc1 (bs : List Byte) : Bool := (bs.headD 0).toNat == 2

/-- The transmit queue gives frames to the lane in order: while the port is up and not paused, and on a native port while
the flit's channel has a credit and the replay buffer of 256 has room (06 R179, R199, R200; log 4: at once). -/
def drainTx : Nat → State → Nat → State
  | 0, s, _ => s
  | n + 1, s, p =>
    let x := portOf s p
    match x.tx with
    | [] => s
    | bs :: r =>
      if !x.up then s
      else if portNative x then
        if 256 ≤ x.replayBuf.length then s
        else if flitVc1 bs then
          if x.vc1 = 0 then s
          else drainTx n (laneSend (setPort s p (keepFlit { x with tx := r, txBytes := x.txBytes - bs.length, vc1 := x.vc1 - 1 } bs)) p (flitWire x.llNext bs)) p
        else if x.vc0 = 0 then s
        else drainTx n (laneSend (setPort s p (keepFlit { x with tx := r, txBytes := x.txBytes - bs.length, vc0 := x.vc0 - 1 } bs)) p (flitWire x.llNext bs)) p
      else if 0 < x.paused then s
      else drainTx n (laneSend (setPort s p { x with tx := r, txBytes := x.txBytes - bs.length }) p bs) p

/-- The transmit queue has room for an output: 256 KiB per lane; a port that is down takes none and holds none back (06
R180, R551). -/
def txRoom (x : DiePort) (len : Nat) : Bool := !x.up || decide (x.txBytes + len ≤ 262144 * portLanes x)

/-- A released output at its port: queued, or discarded and counted while the port is down (06 R551). -/
def portSend (s : State) (p : Nat) (bs : List Byte) : State :=
  let x := portOf s p
  if !x.up then setPort s p { x with txDiscard := x.txDiscard + 1 }
  else
    let s := setPort s p { x with tx := x.tx ++ [bs], txBytes := x.txBytes + bs.length }
    drainTx (x.tx.length + 1) s p

/-- The queue of a port emptied as it goes down; each frame is discarded and counted (06 R551). -/
def portFlush (x : DiePort) : DiePort :=
  { x with tx := [], txBytes := 0, txDiscard := x.txDiscard + BitVec.ofNat 64 x.tx.length }

end Sys2Proof.Machine
end

