-- ==== Sys2Proof/Machine/ClosureOps.lean ====
section
/-! DEFINITION. Outputs: emission into the closure buffers, streams, release, discard (04 R94 to R97, R113, R115). -/
namespace Sys2Proof.Machine

/-- The bytes of an output that closure compares after its descriptor: a frame, or the parts of a mailbox write. -/
def outBytes : OutBody → List Byte
  | .link _ bs => bs
  | .mailbox n mid off w => leBytes 4 n.val ++ leBytes 2 mid.toNat ++ leBytes 2 off.toNat ++ leBytes 8 w.toNat

/-- The port number in a descriptor; a service output has none. -/
def outPort : OutBody → Nat
  | .link p _ => p.val
  | .mailbox .. => 0

/-- Bytes padded with zeros to a multiple of 16. -/
def pad16 (bs : List Byte) : List Byte := bs ++ List.replicate (alignUp bs.length 16 - bs.length) 0

/-- An entry of a stream: the 16-byte descriptor, then the output bytes padded to 16 (04 R95). -/
def entryBytes (e : OutEntry) : List Byte :=
  let bs := outBytes e.body
  leBytes 8 (outPort e.body + 2 ^ 16 * (bs.length % 2 ^ 16)) ++ leBytes 8 e.ucc ++ pad16 bs

/-- The length B of an entry in its stream (02 R34). -/
def entryLen (e : OutEntry) : Nat := 16 + alignUp (outBytes e.body).length 16

/-- A chain's stream (04 R95). -/
def streamBytes (es : List OutEntry) : List Byte := es.flatMap entryBytes

/-- The entries of chain `n` on one side. -/
def chainEntries (l : List ChainOut) (n : Nat) : List OutEntry :=
  match l.find? (fun c => c.cn == n) with
  | none => []
  | some c => c.entries

/-- An entry added to chain `n` of a side. -/
def addEntry : List ChainOut → Nat → OutEntry → List ChainOut
  | [], n, e => [{ cn := n, entries := [e] }]
  | c :: r, n, e => if c.cn = n then { c with entries := c.entries ++ [e] } :: r else c :: addEntry r n e

/-- A unit's side of a die's closure buffer. -/
def dieSide (x : DieState) : UnitId → List ChainOut
  | .u0 => x.side0
  | .u1 => x.side1

/-- A unit's side of a die replaced. -/
def setDieSide (x : DieState) (u : UnitId) (l : List ChainOut) : DieState :=
  match u with
  | .u0 => { x with side0 := l }
  | .u1 => { x with side1 := l }

/-- A unit's side of the hub. -/
def hubSide (h : HubState) : UnitId → List ChainOut
  | .u0 => h.side0
  | .u1 => h.side1

/-- A unit's side of the hub replaced. -/
def setHubSide (h : HubState) (u : UnitId) (l : List ChainOut) : HubState :=
  match u with
  | .u0 => { h with side0 := l }
  | .u1 => { h with side1 := l }

/-- The bytes that a side of a closure buffer holds. -/
def sideOcc (l : List ChainOut) : Nat := (l.map (fun c => (c.entries.map entryLen).sum)).sum

/-- Outputs cleared for release go to their ports in order while there is room (06 R180); the others stay. -/
def drainWaitOut : Nat → State → DieId → State
  | 0, s, _ => s
  | n + 1, s, d =>
    match (dieOf s d).waitOut with
    | [] => s
    | e :: r =>
      match e.body with
      | .mailbox .. => drainWaitOut n (modDie s d (fun x => { x with waitOut := r })) d
      | .link p bs =>
        if txRoom (portOf s p.val) bs.length then
          drainWaitOut n (portSend (modDie s d (fun x => { x with waitOut := r })) p.val bs) d
        else s

/-- A die releases entries, in emission order (04 R96, R97). -/
def dieReleaseEntries (s : State) (d : DieId) (es : List OutEntry) : State :=
  let s := modDie s d (fun x => { x with waitOut := x.waitOut ++ es })
  drainWaitOut ((dieOf s d).waitOut.length) s d

/-- Chains up to `n` taken off a side. -/
def dropChains (l : List ChainOut) (n : Nat) : List ChainOut := l.filter (fun c => decide (n < c.cn))

/-- A die releases chain `n` with a unit's outputs: both sides are consumed (04 R97, R113). -/
def dieRelease (s : State) (d : DieId) (u : UnitId) (n : Nat) : State :=
  let es := chainEntries (dieSide (dieOf s d) u) n
  let s := modDie s d (fun x => { x with side0 := dropChains x.side0 n, side1 := dropChains x.side1 n, released := some n })
  dieReleaseEntries s d es

/-- The hub releases service outputs: each write is made in its mailbox (04 R96). -/
def hubReleaseEntries (s : State) (es : List OutEntry) : State :=
  es.foldl (fun s e =>
    match e.body with
    | .mailbox n mid off w => mbxWrite s n mid.toNat off.toNat w
    | .link .. => s) s

/-- The hub releases chain `n` of a unit. -/
def hubRelease (s : State) (u : UnitId) (n : Nat) : State :=
  let es := chainEntries (hubSide s.hub u) n
  let s := { s with hub := { s.hub with
    side0 := dropChains s.hub.side0 n, side1 := dropChains s.hub.side1 n, released := some n } }
  hubReleaseEntries s es

/-- A number put into an ascending list. -/
def insertNat (n : Nat) : List Nat → List Nat
  | [] => [n]
  | m :: r => if n < m then n :: m :: r else m :: insertNat n r

/-- The chains of a list of sides below `hi`, in order. -/
def chainsBelow (l : List ChainOut) (hi : Nat) : List Nat :=
  ((l.map (fun c => c.cn)).filter (fun n => decide (n < hi))).foldr insertNat []

/-- Every chain of the active unit whose simplex release time has passed is released: chain `n` at the unit's edge of
boundary n + 1 (04 R113, R115). A die whose lanes are down has its outputs discarded (04 R102). -/
def simplexRelease (s : State) : State :=
  let u := foreUnit s
  let hi := (getUnit s u).cn
  let one := fun (s : State) (d : DieId) =>
    if (dieOf s d).lanesDown || (dieOf s d).stopped then
      modDie s d (fun x => { x with side0 := dropChains x.side0 (hi - 1), side1 := dropChains x.side1 (hi - 1) })
    else
      let s := (chainsBelow (dieSide (dieOf s d) u) hi).foldl (fun s n => dieRelease s d u n) s
      if hi = 0 then s else modDie s d (fun x => { x with released := some (hi - 1) })
  let s := one (one (one (one s 0) 1) 2) 3
  let s := (chainsBelow (hubSide s.hub u) hi).foldl (fun s n => hubRelease s u n) s
  if hi = 0 then s else { s with hub := { s.hub with released := some (hi - 1) } }

/-- A unit's side of every closure buffer discarded, and what is held on it (04 R112, R113). -/
def discardSide (s : State) (u : UnitId) : State :=
  let one := fun (s : State) (d : DieId) =>
    modDie s d (fun x => { setDieSide x u [] with held := [], compared := x.released })
  let s := one (one (one (one s 0) 1) 2) 3
  { s with hub := setHubSide s.hub u [] }

/-- Every held output of every die and of the hub discarded (04 R98). -/
def discardAll (s : State) : State :=
  let one := fun (s : State) (d : DieId) =>
    modDie s d (fun x => { x with side0 := [], side1 := [], held := [], referee := none, waitOut := [] })
  let s := one (one (one (one s 0) 1) 2) 3
  { s with hub := { s.hub with side0 := [], side1 := [], decision := none } }

/-- The die of an output's port keeps it. -/
def outDie : OutBody → Option DieId
  | .link p _ => some (portDie p)
  | .mailbox .. => none

/-- The budget B_max of a die for the current chain (02 R35): 64 GB/s of the shorter of this period and the next, or the
cap of CHN_CFG.OUTCAP. -/
def outBudget (s : State) : Nat :=
  let x := foreState s
  let p := min (periodEff x) s.gen.nextPeriod.toNat
  let cap := bitsOf x.chn.cfg 16 16
  let rate := 32000 * 2 ^ p
  if cap = 0 then rate else min rate ((if cap < 32 then 32 else cap) * 1024)

/-- The free space on one side of a die's closure buffer of 4 MiB. -/
def sideFree (x : DieState) (u : UnitId) : Nat :=
  4194304 - (sideOcc (dieSide x u) + (x.waitOut.map entryLen).sum)

/-- The back-pressure that a die raises as an output arrives (02 R36): for the budget, and for buffer space. -/
def raisePressure (s : State) (d : DieId) : State :=
  let x := dieOf s d
  let s := if !x.pressBudget && decide (outBudget s - 16384 < x.bytes) then
      issueDie (modDie s d (fun x => { x with pressBudget := true })) d (.pressure true false) else s
  if !x.pressSpace && (decide (sideFree x .u0 < 16384) || decide (sideFree x .u1 < 16384)) then
    issueDie (modDie s d (fun x => { x with pressSpace := true })) d (.pressure true true) else s

/-- Buffer-space back-pressure ends when both sides have 64 KiB free (02 R37). -/
def endSpace (s : State) (d : DieId) : State :=
  let x := dieOf s d
  if x.pressSpace && decide (65536 ≤ sideFree x .u0) && decide (65536 ≤ sideFree x .u1) then
    issueDie (modDie s d (fun x => { x with pressSpace := false })) d (.pressure false true) else s

/-- A unit emits an output in its current chain (04 R94). Closure takes nothing from a dropped unit (R112), and a die
whose lanes are down, or are up again only for a later chain, or that has stopped, discards it (R102, 06 R207). -/
def emitOut (s : State) (u : UnitId) (ucc : Nat) (o : OutBody) : State :=
  if (getUnit s u).dropped || s.bench.checkstop then s else
  let e : OutEntry := { ucc := ucc, body := o }
  let n := (getUnit s u).cn
  match outDie o with
  | none => { s with hub := setHubSide s.hub u (addEntry (hubSide s.hub u) n e) }
  | some d =>
    if (dieOf s d).lanesDown || (dieOf s d).stopped || decide (n < (dieOf s d).noCompareBefore) then s else
    let s := modDie s d (fun x =>
      let x := setDieSide x u (addEntry (dieSide x u) n e)
      if u = foreUnit s then { x with bytes := x.bytes + entryLen e } else x)
    raisePressure s d

end Sys2Proof.Machine
end

