-- ==== Sys2Proof/Machine/DramOps.lean ====
section
/-! DEFINITION. DRAM controllers: registers by offset, address mapping, queues, the write to the array. -/
namespace Sys2Proof.Machine

/-- The reset value of the MC_ register at an offset of controller `c` (12 R382, R363). -/
def mcReset (c : Nat) (off : Nat) : Word :=
  match off with
  | 0x000 => if c = 0 ∨ c = 6 then 0x404 else 0x400
  | 0x060 => 0x2060
  | 0x080 => 100
  | 0x088 => 400
  | 0x090 => 200
  | 0x098 => 400
  | 0x0A0 => 2000
  | 0x0A8 => 1000
  | 0x0B0 => 200
  | 0x0B8 => 1000
  | 0x0C8 => 0x1000FFFFFFFF
  | 0x0D0 => 0x1000000
  | 0x0D8 => 0xFFFF0000
  | _ => 0

/-- Controller `c` of a unit. -/
def mcOf (x : UnitState) (c : Fin 12) : McState := x.mem.mc.get c

/-- A unit with controller `c` replaced. -/
def setMc (x : UnitState) (c : Fin 12) (m : McState) : UnitState :=
  { x with mem := { x.mem with mc := x.mem.mc.set c.val m c.isLt } }

/-- A unit with controller `c` changed. -/
def modMc (x : UnitState) (c : Fin 12) (f : McState → McState) : UnitState := setMc x c (f (mcOf x c))

/-- The value of an MC_ register. -/
def mcReg (x : UnitState) (c : Fin 12) (off : Nat) : Word := tabGet (mcReset c.val) (mcOf x c).regs off

/-- An MC_ register given a value. -/
def setMcReg (x : UnitState) (c : Fin 12) (off : Nat) (w : Word) : UnitState :=
  modMc x c (fun m => { m with regs := tabSet (mcReset c.val) m.regs off w })

/-- MC_CTL.GEN: DDR4 (12 R382). -/
def mcDdr4 (x : UnitState) (c : Fin 12) : Bool := bitOf (mcReg x c 0) 1

/-- w_BG, w_SUB, w_CID, w_RANK, w_DIMM, w_ROW of a channel (12 R359, R357). -/
def wBg (x : UnitState) (c : Fin 12) : Nat := if mcDdr4 x c then 2 else 3
/-- w_SUB. -/
def wSub (x : UnitState) (c : Fin 12) : Nat := if mcDdr4 x c then 0 else 1
/-- w_CID. -/
def wCid (x : UnitState) (c : Fin 12) : Nat := bitsOf (mcReg x c 8) 3 2
/-- w_RANK. -/
def wRank (x : UnitState) (c : Fin 12) : Nat := bitsOf (mcReg x c 8) 2 1
/-- w_DIMM. -/
def wDimm (x : UnitState) (c : Fin 12) : Nat := if bitsOf (mcReg x c 8) 0 2 = 2 then 1 else 0
/-- w_ROW. -/
def wRow (x : UnitState) (c : Fin 12) : Nat :=
  (if mcDdr4 x c then 17 else 16) + bitsOf (mcReg x c 8) 5 1

/-- Installed DRAM of a unit in bytes (12 R357, R358), from MC_GEOM of controller 0; zero while MC_GEOM names no DIMM. -/
def installed (x : UnitState) : Nat :=
  let g := mcReg x 0 8
  let dpc := bitsOf g 0 2
  let die := (if mcDdr4 x 0 then 16 else 32) * 2 ^ bitsOf g 5 1 * 2 ^ 30
  if dpc = 1 ∨ dpc = 2 then 12 * dpc * (die * 2 ^ bitsOf g 2 1 * 2 ^ bitsOf g 3 2) else 0

/-- The channel of a line (12 R359). -/
def lineChan (line : Nat) : Fin 12 := Fin.ofNat 12 (line / 64)

/-- The place of a line in its channel (12 R359). -/
structure DramPlace where
  sub : Nat
  dimm : Nat
  rank : Nat
  cid : Nat
  bg : Nat
  ba : Nat
  row : Nat
  col : Nat
  deriving DecidableEq, Repr

/-- The XOR of the bits of a number under a mask of 52 bits. -/
def maskParity (v : Nat) (m : Word) : Nat := bit (parity (BitVec.ofNat 64 v &&& m))

/-- The mapping of 12 R359. -/
def dramPlace (x : UnitState) (line : Nat) : DramPlace :=
  let c := lineChan line
  let q := line / 64 / 12
  let ca := q * 4096 + line % 64 * 64
  let bg := wBg x c
  let oSub := bg + 2
  let oH := oSub + wSub x c
  let oCid := oH + 1
  let oRank := oCid + wCid x c
  let oDimm := oRank + wRank x c
  let oRow := oDimm + wDimm x c
  let fld := fun (o w : Nat) => q / 2 ^ o % 2 ^ w
  let hash := fun (base n : Nat) =>
    (List.range n).foldl (fun a i => a + 2 ^ i * maskParity ca (mcReg x c (base + 8 * i))) 0
  { sub := fld oSub (wSub x c), dimm := fld oDimm (wDimm x c), rank := fld oRank (wRank x c), cid := hash 0x030 (wCid x c),
    bg := hash 0x048 bg, ba := hash 0x020 2, row := fld oRow (wRow x c), col := fld oH 1 * 64 + line % 64 }

/-- A bank as one number: SUB, DIMM, RANK, CID, BG, BA. -/
def bankId (p : DramPlace) : Nat :=
  p.sub + 2 * p.dimm + 4 * p.rank + 8 * p.cid + 64 * p.bg + 512 * p.ba

/-- The bank that an MC_BANKRETIRE entry names (12 R382). -/
def entryBank (w : Word) : Nat :=
  bitsOf w 1 1 + 2 * bitsOf w 2 1 + 4 * bitsOf w 3 1 + 8 * bitsOf w 4 3 + 64 * bitsOf w 8 3 + 512 * bitsOf w 12 2

/-- The bank of a line is retired (12 R380). -/
def bankRetired (x : UnitState) (line : Nat) : Bool :=
  let c := lineChan line
  let b := bankId (dramPlace x line)
  (List.range 8).any (fun i =>
    let w := mcReg x c (0x200 + 8 * i)
    bitOf w 0 && entryBank w == b)

/-- An unlisted DRAM byte reads 0, the model's choice (log 6). -/
def byteDef : Nat → Byte := fun _ => 0

/-- A line without a mark. -/
def markDef : Nat → BitVec 8 := fun _ => 0

/-- The page set in both DRAM dirty maps (04 R118). -/
def dirtyPage (x : UnitState) (page : Nat) : UnitState :=
  let put := fun (m : DirtyMap) => { m with pages := tabSet (fun _ => false) m.pages page true }
  { x with mem := { x.mem with mapA := put x.mem.mapA, mapB := put x.mem.mapB } }

/-- The items that a DRAM write folds into its controller's signature: the line address, then the 64 data bytes as four
items (03 R76). The line holds 512 bits; each item takes 16 of its bytes. -/
def dramItems (line : Nat) (bytes : List Byte) : List Quad :=
  let v := leNat bytes
  BitVec.ofNat 128 line :: (List.range 4).map (fun k => BitVec.ofNat 128 (v / 2 ^ (128 * k)))

/-- A line whose check bytes the controller computed. -/
def chkDef : Nat → List Byte := fun _ => []

/-- A write that the controller issues to the array: the array's bytes and mark, the signature, the dirty maps. -/
def dramArrayWrite (x : UnitState) (line : Nat) (bytes : List Byte) (mark : BitVec 8) : UnitState :=
  let x := { x with mem := { x.mem with
    dram := tabSetList byteDef x.mem.dram (64 * line) bytes, dmark := tabSet markDef x.mem.dmark line mark
    dchk := tabSet chkDef x.mem.dchk line [] } }
  let x := modSig x (fun g => { g with mc := foldTab g.mc (lineChan line).val (dramItems line bytes) })
  dirtyPage x (line / 64)

/-- The coherent bytes of a line. -/
def lineBytes (x : UnitState) (line : Nat) : List Byte := tabGetList byteDef x.mem.data (64 * line) 64

/-- The coherent mark of a line. -/
def lineMark (x : UnitState) (line : Nat) : BitVec 8 := tabGet markDef x.mem.mark line

/-- A request as its controller would queue it (12 R362). -/
def mcRequest (x : UnitState) (port line : Nat) (w : Option (List Byte × BitVec 8)) : McReq :=
  let p := dramPlace x line
  { port := port, line := line, write := w, since := x.ucc, bank := bankId p, row := p.row, num := (mcOf x (lineChan line)).num
    retired := bankRetired x line }

/-- A queued read finds an entry (12 R362): 192 entries, of which 4 are kept for each port. -/
def readRoom (m : McState) (port : Nat) : Bool :=
  let mine := (m.rq.filter (fun q => q.port = port)).length
  let shared := (List.range 8).foldl (fun a k => a + ((m.rq.filter (fun q => q.port = k)).length - 4)) 0
  decide (mine < 4) || decide (shared < 160)

/-- A request put into its queue, or left at its port while the queue is full or an earlier one of the port waits; a full write queue
starts drain mode (12 R362, R365). -/
def mcPut (c : Fin 12) (m : McState) (r : McReq) : McState :=
  let m := { m with num := m.num + 1 }
  if m.blocked.any (fun q => q.port == r.port) then { m with blocked := m.blocked ++ [r] } else
  match r.write with
  | some _ =>
    let m := if m.wq.length < 128 then { m with wq := m.wq ++ [r] } else { m with blocked := m.blocked ++ [r] }
    { m with drain := m.drain || decide (bitsOf (tabGet (mcReset c.val) m.regs 0x060) 0 8 ≤ m.wq.length) }
  | none => if readRoom m r.port then { m with rq := m.rq ++ [r] } else { m with blocked := m.blocked ++ [r] }

/-- The first request, a read or a write, that waits at the head of its port and that a test passes (12 R362). -/
def portHead (m : McState) (write : Bool) (f : McReq → Bool) : Option McReq :=
  m.blocked.find? (fun r => r.write.isSome == write && f r && m.blocked.find? (fun q => q.port == r.port) == some r)

/-- A request that waited is accepted: its age and its order run from now (12 R362, R364). -/
def accepted (x : UnitState) (m : McState) (r : McReq) : McReq :=
  { r with since := x.ucc, num := m.num, retired := bankRetired x r.line }

/-- The reads at the heads of their ports take the read entries that are free (12 R362). `n` bounds them. -/
def admitReads (x : UnitState) : Nat → McState → McState
  | 0, m => m
  | n + 1, m =>
    match portHead m false (fun r => readRoom m r.port) with
    | none => m
    | some r => admitReads x n { m with rq := m.rq ++ [accepted x m r], blocked := m.blocked.erase r, num := m.num + 1 }

/-- A write of a line sent to its controller (12 R362). -/
def mcAcceptWrite (x : UnitState) (port line : Nat) : UnitState :=
  let r := mcRequest x port line (some (lineBytes x line, lineMark x line))
  modMc x (lineChan line) (fun m => mcPut (lineChan line) m r)

/-- A read of a line sent to its controller (12 R362). -/
def mcAcceptRead (x : UnitState) (port line : Nat) : UnitState :=
  let r := mcRequest x port line none
  modMc x (lineChan line) (fun m => mcPut (lineChan line) m r)

end Sys2Proof.Machine
end

