-- ==== Sys2Proof/Machine/FaultOps.lean ====
section
/-! DEFINITION. The fault collector and what its reactions do: counting, black box, first fault, module checkstop, drop of a
unit, promotion, failing cores (17 R488 to R508, 04 R106 to R116). -/
namespace Sys2Proof.Machine

/-- A source as the table of 17 R489 gives it at reset: N, W, reactions (INT, MCHK, BLOCK_RESET, UNIT_CHECKSTOP,
MODULE_RESET, ERROR_N from bit 0), whether it attributes, is fixed, and has the MCHECK reaction. -/
structure SrcInfo where
  n : Nat
  w : Nat
  react : Nat
  attr : Bool := false
  fixed : Bool := false
  mcheck : Bool := false
  deriving DecidableEq, Repr

/-- A source with INT. -/
def srcInt : SrcInfo := { n := 1, w := 0, react := 1 }
/-- A source with INT and ERROR_N. -/
def srcIntErr : SrcInfo := { n := 1, w := 0, react := 0x21 }
/-- An attributing source with INT. -/
def srcAttr : SrcInfo := { n := 1, w := 0, react := 1, attr := true }
/-- A counted source without reactions. -/
def srcCount : SrcInfo := { n := 255, w := 1024, react := 0 }
/-- A fixed source with MCHECK and ERROR_N. -/
def srcMchk : SrcInfo := { n := 1, w := 0, react := 0x20, fixed := true, mcheck := true }
/-- A fixed source with MCHECK alone. -/
def srcMchkOnly : SrcInfo := { n := 1, w := 0, react := 0, fixed := true, mcheck := true }
/-- A fixed attributing source with UNIT_CHECKSTOP and ERROR_N. -/
def srcUnitStop : SrcInfo := { n := 1, w := 0, react := 0x28, attr := true, fixed := true }

/-- The module sources (17 R489). -/
def moduleSrc : Nat → Option SrcInfo
  | 0x000 => some srcMchk
  | 0x001 => some { n := 1, w := 0, react := 0x20 }
  | 0x002 => some srcMchk
  | 0x003 => some srcInt
  | 0x004 => some srcIntErr
  | 0x005 => some srcInt
  | 0x006 => some srcInt
  | 0x008 => some srcMchk
  | 0x009 => some srcMchk
  | 0x00A => some srcMchkOnly
  | 0x00B => some srcMchkOnly
  | 0x00C => some srcMchk
  | 0x010 => some srcInt
  | 0x011 => some srcIntErr
  | 0x012 => some srcInt
  | 0x013 => some srcIntErr
  | 0x014 => some srcIntErr
  | 0x0F0 => some { n := 1, w := 0, react := 0, fixed := true }
  | _ => none

/-- The sources of a Traverse die by offset (17 R489). -/
def dieSrc : Nat → Option SrcInfo
  | 0 => some srcCount
  | 1 => some srcInt
  | 2 => some srcIntErr
  | 3 => some srcInt
  | 4 => some srcIntErr
  | 5 => some { n := 16, w := 1024, react := 1 }
  | _ => none

/-- The sources of a unit from offset 0x200 on (17 R489). -/
def unitSrcHigh : Nat → Option SrcInfo
  | 0x200 => some srcAttr
  | 0x201 => some srcInt
  | 0x202 => some srcAttr
  | 0x203 => some srcAttr
  | 0x204 => some srcUnitStop
  | 0x205 => some srcUnitStop
  | 0x206 => some srcUnitStop
  | 0x207 => some srcAttr
  | 0x208 => some srcAttr
  | 0x209 => some srcAttr
  | 0x20A => some srcInt
  | 0x20B => some srcInt
  | 0x20C => some srcInt
  | 0x20D => some srcInt
  | 0x20E => some srcCount
  | 0x20F => some srcInt
  | 0x210 => some srcCount
  | 0x211 => some srcInt
  | 0x212 => some srcAttr
  | 0x310 => some srcInt
  | 0x311 => some srcInt
  | o => if 0x300 ≤ o ∧ o < 0x310 then some srcInt else none

/-- The sources of a unit by offset (17 R489). -/
def unitSrc (o : Nat) : Option SrcInfo :=
  if o < 0x30 then some { n := 3, w := 1024, react := 1 }
  else if 0x40 ≤ o ∧ o < 0x70 then some srcAttr
  else if 0x80 ≤ o ∧ o < 0xB0 then some srcInt
  else if 0x100 ≤ o ∧ o < 0x10C then some srcCount
  else if 0x110 ≤ o ∧ o < 0x11C then some srcInt
  else if 0x120 ≤ o ∧ o < 0x12C then some srcInt
  else if 0x130 ≤ o ∧ o < 0x13C then some srcAttr
  else if 0x140 ≤ o ∧ o < 0x14C then some srcAttr
  else if 0x150 ≤ o ∧ o < 0x15C then some srcInt
  else unitSrcHigh o

/-- A source number's entry; none where it is reserved (17 R488, R489). -/
def srcInfo (n : Nat) : Option SrcInfo :=
  if n < 0x100 then moduleSrc n
  else if n < 0x500 then dieSrc (n % 0x100)
  else if 0x800 ≤ n ∧ n < 0x1000 then unitSrc (n % 0x400)
  else none

/-- The unit of a unit-range source. -/
def srcUnit (n : Nat) : Option UnitId :=
  if 0x800 ≤ n ∧ n < 0xC00 then some .u0 else if 0xC00 ≤ n ∧ n < 0x1000 then some .u1 else none

/-- The number of a unit's source at an offset. -/
def unitSrcNum (u : UnitId) (o : Nat) : Nat := 0x800 + 0x400 * u.toNat + o

/-- The number of a die's source at an offset. -/
def dieSrcNum (d : DieId) (o : Nat) : Nat := 0x100 + 0x100 * d.val + o

/-- The reset state of a source. -/
def srcReset (i : SrcInfo) : Source :=
  { n := BitVec.ofNat 8 i.n, w := BitVec.ofNat 16 i.w, react := BitVec.ofNat 6 i.react }

/-- A source's state. -/
def srcOf (s : State) (n : Nat) (i : SrcInfo) : Source :=
  (tabGet (fun _ => (none : Option Source)) s.coll.srcs n).getD (srcReset i)

/-- A source's state replaced. -/
def setSrc (s : State) (n : Nat) (x : Source) : State :=
  { s with coll := { s.coll with srcs := tabSet (fun _ => (none : Option Source)) s.coll.srcs n (some x) } }

/-- One event counted (17 R490); whether it made the source severe. -/
def countEvent (x : Source) (cn : Nat) : Source × Bool :=
  let x := { x with count := saturate 32 (x.count + 1) }
  let x := if x.openW then x else { x with openW := true, opened := cn, wcnt := 0 }
  let x := { x with wcnt := x.wcnt + 1 }
  if x.wcnt = x.n.toNat then ({ x with openW := false }, true) else (x, false)

/-- BENCH_STATUS (17 R506). -/
def benchStatus (s : State) : Word :=
  let root := s.keys.root0.isSome || s.keys.root1.isSome
  BitVec.ofNat 64 (bit s.pow.pwrGood + 2 * bit s.sahya.running + 4 * bit s.sahya.fwDown
    + 8 * bit (s.gen.run && !s.gen.stopped) + 16 * bit s.bench.checkstop + 32 * bit s.bench.error + 64 * bit s.bench.frozen
    + 128 * bit (!root) + 256 * bitsOf s.bench.shadowLvl 0 3 + 2048 * bitsOf s.bench.shadowLvl 3 2
    + 65536 * s.bench.lastReset.toNat)

/-- The snapshot words of a freeze (17 R498). -/
def snapWords (s : State) : List Word :=
  [BitVec.ofNat 64 s.gen.cn, BitVec.ofNat 64 s.u0.ucc, BitVec.ofNat 64 s.u1.ucc, s.bench.shadowLvl, s.bench.shadowClo,
    s.bench.shadowDrop, s.bench.shadowChn, s.bench.fltFirst, s.bench.fltFirstCn, benchStatus s, s.bench.shadowRelevel]

/-- The black box freezes with a cause (17 R498); a frozen one is kept (R508). -/
def bbFreezeWith (s : State) (cause : BitVec 3) : State :=
  if s.bench.frozen then s
  else { s with bench := { s.bench with frozen := true, fcause := cause, snap := snapWords s } }

/-- A record put into the ring (17 R497). -/
def bbRecord (s : State) (r : List Word) : State :=
  if s.bench.frozen then s else
  { s with bench := { s.bench with
      ring := tabSet (fun _ => ([] : List Word)) s.bench.ring s.bench.head r
      wrapped := s.bench.wrapped || decide (s.bench.head = 1023), head := (s.bench.head + 1) % 1024 } }

/-- FLT_FIRST latches the first severe event with reactions; later ones set OVF (17 R496). -/
def latchFirst (s : State) (src ucc cn : Nat) : State :=
  if bitOf s.bench.fltFirst 12 then { s with bench := { s.bench with fltFirst := withBit s.bench.fltFirst 13 true } }
  else { s with bench := { s.bench with
      fltFirst := BitVec.ofNat 64 (src + 2 ^ 12 + 2 ^ 16 * (ucc % 2 ^ 48)), fltFirstCn := BitVec.ofNat 64 cn } }

/-- The channels of a unit enter self-refresh (04 R112, 17 R495): MC_STATUS.STATE READY or FCHG becomes SELF_REFRESH. -/
def selfRefresh (x : UnitState) : UnitState :=
  (List.finRange 12).foldl (fun x c =>
    let st := mcReg x c 0x018
    if bitsOf st 0 3 = 2 ∨ bitsOf st 0 3 = 4 then setMcReg x c 0x018 (withBits st 0 3 3) else x) x

/-- Every transmit queue stopped, its frames lost (04 R98, 17 R495). -/
def stopQueues (s : State) : State :=
  { s with ports := tabMap (fun _ => ({} : DiePort)) (fun _ p => { p with tx := [], txBytes := 0 }) s.ports }

/-- Module checkstop (17 R495), after the first fault is latched. -/
def moduleCheckstop (s : State) : State :=
  if s.bench.checkstop then s else
  let s := bbFreezeWith s 1
  let s := { s with gen := { s.gen with stopped := true } }
  let s := stopQueues (discardAll s)
  let s := { s with bench := { s.bench with checkstop := true, error := true } }
  modBoth s selfRefresh

/-- The event frame of the fault collector (17 R505). -/
def faultWords (src react : Nat) (inj : Bool) (ucc cn : Nat) (info : Word) (cores : BitVec 48) : List Word :=
  [BitVec.ofNat 64 (src + 2 ^ 12 * react + 2 ^ 18 * bit inj), BitVec.ofNat 64 ucc, BitVec.ofNat 64 cn, info, cores.setWidth 64]

/-- A failing logical core is noted for sparing or deconfiguration (10 R315). -/
def declareFailing (s : State) (l : Nat) : State :=
  if s.sahya.failing.contains l then s else { s with sahya := { s.sahya with failing := s.sahya.failing ++ [l] } }

/-- The position of a failing logical core is marked failed in its unit (03 R86, 10 R316). -/
def markFailed (x : UnitState) (l : Nat) : UnitState :=
  let p := tabGet (fun n => n) x.exe.map l
  { x with exe := { x.exe with failed := x.exe.failed ||| BitVec.ofNat 56 (2 ^ p) } }

/-- Firmware spares or deconfigures the next failing core: none while a sparing sequence runs or in a re-level freeze
(03 R86, R88, 10 R318). The target is the lowest position of the common spare set. -/
def pumpFailing (s : State) : State :=
  let x := foreState s
  match s.sahya.failing with
  | [] => s
  | l :: r =>
    if !sahyaUp s || isOff s || relevelPhase s == 5 || decide (x.ucc < s.sahya.spareUntil) then s else
    let st := boundaryStamp s
    let s := { s with sahya := { s.sahya with failing := r } }
    match bitList x.exe.spares 56 with
    | [] => issueFw s (some st) (.deconfig (Fin.ofNat 48 l))
    | p :: _ =>
      let s := { s with sahya := { s.sahya with spareUntil := st + 208000 } }
      issueFw s (some st) (.spare (Fin.ofNat 48 l) (Fin.ofNat 56 p))

/-- The block that BLOCK_RESET resets (17 R493): 0 a traverse-engine cluster with its number, 1 cipher, 2 compression. -/
def srcBlock (n : Nat) : Option (BitVec 2 × Fin 16) :=
  let o := n % 0x400
  if srcUnit n = none then none
  else if 0x300 ≤ o ∧ o < 0x310 then some (0, Fin.ofNat 16 (o - 0x300))
  else if o = 0x310 then some (1, 0)
  else if o = 0x311 then some (2, 0)
  else none

/-- A unit is dropped and does not join in a re-level. -/
def outOfService (s : State) (u : UnitId) : Bool :=
  (getUnit s u).dropped && (match s.hub.relevel with | some r => decide (r.join ≠ u) | none => true)

/-- The reactions of a severe event that are carried out (17 R493), as R497 shows them. A module checkstop makes the later
ones void; MCHK and INT need the firmware; a dropped unit's BLOCK_RESET, MCHK and INT are not issued. -/
def carriedOut (s : State) (src : Nat) (i : SrcInfo) (x : Source) : Nat :=
  let r := x.react
  let err := if r.getLsbD 5 then 0x20 else 0
  let stop := i.mcheck || r.getLsbD 4
  let dropped := match srcUnit src with | none => false | some u => outOfService s u
  if s.bench.checkstop then err
  else if stop then err + 0x10
  else
    let fw := sahyaUp s && !dropped
    err + (if r.getLsbD 3 && (srcUnit src).isSome && !dropped then 8 else 0)
      + (if r.getLsbD 2 && (srcBlock src).isSome && !dropped then 4 else 0)
      + (if r.getLsbD 1 && fw then 2 else 0) + (if r.getLsbD 0 && fw then 1 else 0)

/-- One event of a source through 17 R490 to R493. `drop` is what the UNIT_CHECKSTOP reaction does. -/
def raiseWith (drop : State → UnitId → State) (s : State) (src ucc : Nat) (info : Word) (inj : Bool) : State :=
  match srcInfo src with
  | none => s
  | some i =>
    let cn := match srcUnit src with | none => s.gen.cn | some u => (getUnit s u).cn
    let (x, severe) := countEvent (srcOf s src i) cn
    let s := setSrc s src x
    let attr := i.attr && !inj
    let s := match attr, srcUnit src with
      | true, some u => { s with hub := { s.hub with indic := s.hub.indic ++ [(u, ucc)] } }
      | _, _ => s
    let react := if severe then carriedOut s src i x else 0
    let s := if severe ∨ attr ∨ src = 0x0F0 then
        bbRecord s [BitVec.ofNat 64 (src + 2 ^ 12 * bit severe + 2 ^ 13 * react + 2 ^ 19 * bit attr + 2 ^ 20 * bit inj),
          BitVec.ofNat 64 ucc, BitVec.ofNat 64 cn, info] else s
    let failing := match srcUnit src with
      | none => none
      | some _ =>
        let o := src % 0x400
        if o < 0x30 ∧ severe then some o
        else if 0x40 ≤ o ∧ o < 0x70 ∧ bitsOf info 0 8 = 0x24 then some (o - 0x40) else none
    let s := match failing, srcUnit src with
      | some l, some u => declareFailing (modUnit s u (fun x => markFailed x l)) l
      | _, _ => s
    if !severe then pumpFailing s else
    let s := if i.mcheck || decide (x.react ≠ 0) then latchFirst s src ucc cn else s
    let s := if react / 32 % 2 = 1 then { s with bench := { s.bench with error := true } } else s
    let s := if react / 16 % 2 = 1 then
        let s := moduleCheckstop s
        if x.react.getLsbD 4 then { s with bench := { s.bench with mrDelay := true } } else s
      else s
    let s := match srcUnit src with
      | some u => if react / 8 % 2 = 1 then drop s u else s
      | none => s
    let s := match srcBlock src with
      | some (k, n) => if react / 4 % 2 = 1 then issueSvc s (some (boundaryStamp s)) (.blockReset k n) else s
      | none => s
    let s := if react / 2 % 2 = 1 then
        issueFw (postEvent s 0x0C 0 (faultWords src react inj ucc cn info x.cores)) none (.mchk x.cores (BitVec.ofNat 12 src))
      else s
    let s := if react % 2 = 1 then postEvent s 0x0C 0 (faultWords src react inj ucc cn info 0) else s
    pumpFailing s

/-- An event of a source that never drops a unit. -/
def raisePlain (s : State) (src ucc : Nat) (info : Word) : State := raiseWith (fun s _ => s) s src ucc info false

/-- A free value taken: the next one of the run (log 8). -/
def nextFree (s : State) : Word × State := (Config.freeWord s.freeCtr, { s with freeCtr := s.freeCtr + 1 })

/-- An event without drop of a source whose INFO the spec leaves open (log 8). -/
def raisePlainFree (s : State) (src : Nat) : State :=
  let (w, s) := nextFree s
  raisePlain s src (foreState s).ucc w

/-- The loss of both units, or of the only one: CLO_LAST_UNIT (17 R489, 04 R110, R126). -/
def lastUnit (s : State) : State := raisePlainFree s 0x009

/-- A unit stops executing and emitting and enters self-refresh; the retired stores in its store buffers are discarded
(04 R112, 09 R294). -/
def haltUnit (x : UnitState) : UnitState :=
  let x := selfRefresh x
  { x with dropped := true, executing := false, feed := []
           exe := { x.exe with cores := tabMap coreDef (fun _ c => { c with sb := [] }) x.exe.cores
                               engines := tabMap engineDef (fun _ c => { c with sb := [] }) x.exe.engines } }

/-- CLO_DROP as the CTL DROP stake will record it, for the LEVEL_EVENT (17 R489). -/
def dropWord (dropped : UnitId) (wasFore : Bool) (cause cn : Nat) : Word :=
  BitVec.ofNat 64 (cause + 2 ^ 8 * dropped.toNat + 2 ^ 9 * bit (!wasFore) + 2 ^ 10 * bit wasFore + 2 ^ 11 + 2 ^ 16 * (cn % 2 ^ 48))

/-- The event frame that ends a re-level (04 R120): to its channel with its tag, or as an unsolicited event. -/
def relevelEvent (s : State) (r : Relevel) (code : Nat) (ws : List Word) : State :=
  match r.chan with
  | some (n, _) =>
    if r.auto then postEvent s 0x01 code ws
    else if sahyaUp s then queueReplies s n (replyFrames r.v2 r.tag 0x01 0xFF code 0 (ws.length + 1) ws) else s
  | none => postEvent s 0x01 code ws

/-- The issuers stop feeding a second unit (04 R112): nothing of their stake lines remains to be read, and records that waited
for room follow (03 R67). -/
def emptyLines (s : State) : State :=
  let one := fun (s : State) (d : DieId) => modDie s d (fun x => { x with line := [] })
  let s := one (one (one (one s 0) 1) 2) 3
  let s := { s with sahya := { s.sahya with line := [] } }
  drainHeldIn s.sahya.heldIn.length s

/-- A re-level ends without the second unit (04 R125, R126, R550): event ABORTED, the module stays simplex, the joining
unit halts. A freeze that has begun is cut short: its step in progress completes, and the active unit resumes
at the next tick. -/
def relevelAbort (s : State) (cause : Nat) : State :=
  match s.hub.relevel with
  | none => s
  | some r =>
    if r.phase = 7 then s else
    let s := modUnit s r.join haltUnit
    let s := if s.hub.frozen then { s with hub := { s.hub with resume := true, frozen := decide (r.step < 7), cutStep := min 7 (r.step + 1) } } else s
    let s := modUnit s r.join.other (fun x => { x with mem := { x.mem with coh := { x.mem.coh with wt := false } } })
    let s := emptyLines { s with hub := { s.hub with relevel := none, recs0 := [], recs1 := [] } }
    let s := simplexRelease (discardSide s r.join)
    let s := hubCfg s (.relevelPhase 0 r.full (BitVec.ofNat 8 r.passes))
    let s := hubCfg s (.levelState 2 (if r.join = .u1 then 2 else 3))
    let s := raisePlain s 0x0F0 (foreState s).ucc (foreState s).clo.drop
    relevelEvent s r 0x82 [BitVec.ofNat 64 (cause + 2 ^ 8 * r.phase)]

/-- A unit is dropped (04 R112 to R114): its outputs and stakes end, a CTL DROP stake records it, and the remaining unit's
outputs become authoritative; the Foresight's drop promotes the other unit. The only unit's loss, and the active unit's
loss in a re-level, is CLO_LAST_UNIT. -/
def dropUnit (s : State) (u : UnitId) (cause : Nat) : State :=
  if isOff s ∨ outOfService s u ∨ s.bench.checkstop then s else
  match (if relevelPhase s = 7 then none else s.hub.relevel) with
  | some r =>
    if u = r.join then
      let s := raisePlain s 0x0F0 (foreState s).ucc (dropWord u false cause (foreState s).cn)
      let s := if cause = 0x0A then { s with hub := { s.hub with count := bumpField s.hub.count 32 16 } } else s
      let s := relevelAbort s cause
      issueSvc s none (.drop u (BitVec.ofNat 8 cause))
    else lastUnit s
  | none =>
    if isLevelled s then
      let wasFore := decide (u = foreUnit s)
      let s := modUnit s u haltUnit
      let s := discardSide s u
      let s := if wasFore then { s with hub := { s.hub with edgeLate := true } } else s
      let s := { s with hub := { s.hub with
        decision := none, reports := [], relevel := none, recs0 := [], recs1 := []
        count := if cause = 1 then bumpField s.hub.count 32 16 else s.hub.count } }
      let s := { s with sahya := { s.sahya with auto := true } }
      let s := if wasFore then s else emptyLines { s with keys := { s.keys with log := [] } }
      let s := issueSvc s none (.drop u (BitVec.ofNat 8 cause))
      let s := raisePlain s 0x0F0 (foreState s).ucc (dropWord u wasFore cause (foreState s).cn)
      simplexRelease s
    else lastUnit s

/-- A UNIT_CHECKSTOP reaction (04 R110). -/
def unitCheckstop (s : State) (u : UnitId) : State := dropUnit s u 0x03

/-- One event of a fault source (17 R490 to R493). -/
def raiseFault (s : State) (src ucc : Nat) (info : Word) : State := raiseWith unitCheckstop s src ucc info false

/-- An event of a unit's source at its UCC. -/
def raiseUnit (s : State) (u : UnitId) (off : Nat) (info : Word) : State :=
  raiseFault s (unitSrcNum u off) (getUnit s u).ucc info

end Sys2Proof.Machine
end

