-- ==== Sys2Proof/Machine/Flags.lean ====
section
/-! DEFINITION. The condition flags of arithmetic (08 R239) and the conditions of 07 R226. -/
namespace Sys2Proof.Machine

/-- Sum with a carry in: the result, its carry out of bit w - 1, and signed overflow (08 R239). -/
def addFull {w : Nat} (x y : BitVec w) (cin : Bool) : BitVec w × Bool × Bool :=
  let r := x + y + BitVec.ofNat w (bit cin)
  (r, decide (2 ^ w ≤ x.toNat + y.toNat + bit cin), decide (r.toInt ≠ x.toInt + y.toInt + bit cin))

/-- Difference with a borrow in: the result, C (no borrow), and signed overflow (08 R239). -/
def subFull {w : Nat} (x y : BitVec w) (bin : Bool) : BitVec w × Bool × Bool :=
  let r := x - y - BitVec.ofNat w (bit bin)
  (r, decide (y.toNat + bit bin ≤ x.toNat), decide (r.toInt ≠ x.toInt - y.toInt - bit bin))

/-- N, Z, C and V set from a result (08 R239). -/
def setNzcv {w : Nat} (p : Psw) (r : BitVec w) (c v : Bool) : Psw :=
  { p with n := r.msb, z := decide (r = 0), c := c, v := v }

/-- N and Z set from a result, V cleared, C unchanged (07 R228). -/
def setNz {w : Nat} (p : Psw) (r : BitVec w) : Psw := { p with n := r.msb, z := decide (r = 0), v := false }

/-- N, Z and V written, C unchanged (07 R228). -/
def setNzv (p : Psw) (n z v : Bool) : Psw := { p with n := n, z := z, v := v }

/-- A condition holds (07 R226); the reserved value never does. -/
def condHolds (p : Psw) (c : BitVec 4) : Bool :=
  match c.toNat with
  | 0x0 => true
  | 0x1 => p.z
  | 0x2 => !p.z
  | 0x3 => !p.c
  | 0x4 => p.c
  | 0x5 => !p.c || p.z
  | 0x6 => p.c && !p.z
  | 0x7 => p.n != p.v
  | 0x8 => p.n == p.v
  | 0x9 => p.z || (p.n != p.v)
  | 0xA => !p.z && (p.n == p.v)
  | 0xB => p.n
  | 0xC => !p.n
  | 0xD => p.v
  | 0xE => !p.v
  | _ => false

end Sys2Proof.Machine
end

