-- ==== Sys2Proof/Machine/Operands.lean ====
section
/-! DEFINITION. Operand forms: effective addresses, immediates, the short and long register forms (07 R223, R224, R228). -/
namespace Sys2Proof.Machine

/-- EA = Aa + (XV = 1 ? Dx * 2^SC : 0) + sext(DISP19), modulo 2^64 (07 R224). -/
def effAddr (c : Core) (e : Ea) : Word :=
  rdA c e.a + (if e.xv then rdD c e.x <<< e.sc.toNat else 0) + e.disp.signExtend 64

/-- A branch target: the address of the first syllable plus sext(DISP30), modulo 2^48 (07 R224). -/
def branchTo (pc : CodeAddr) (disp : BitVec 30) : CodeAddr := pc + disp.signExtend 48

/-- IMM12 with its sign (07 R224). -/
def imm12s (i : BitVec 12) : Word := i.signExtend 64

/-- IMM12 zero-extended (07 R228, ANDI, ORI, XORI). -/
def imm12z (i : BitVec 12) : Word := i.setWidth 64

/-- The quick operand of ADDQ and AADDQ, -8 to 7 (07 R228). -/
def quick (q : BitVec 4) : Word := q.signExtend 64

/-- Destination and operands of an instruction with an F1 and an F2 form: Dd := Dd op Ds, or Dd := Ds op Dt. -/
def aluRegs : Alu3 → Reg × Reg × Reg
  | .short d s => (d, d, s)
  | .long d s t => (d, s, t)

/-- The syllables of the two forms (07 R223). -/
def aluLen : Alu3 → Nat
  | .short .. => 1
  | .long .. => 2

/-- The register code of the PSW (07 R219). -/
def codePsw : BitVec 8 := 0x30

/-- The fold item of a PSW write: its code and its value (03 R76). -/
def pswItem (c : Core) : BitVec 8 × Quad := (codePsw, (pswWord c.psw).setWidth 128)

/-- The fold item of a data register as it stands. -/
def dItem (c : Core) (r : Reg) : BitVec 8 × Quad := (codeD r, (rdD c r).setWidth 128)

/-- The fold item of an address register as it stands. -/
def aItem (c : Core) (r : Reg) : BitVec 8 × Quad := (codeA r, (rdA c r).setWidth 128)

/-- The fold item of an accumulator as it stands. -/
def kItem (c : Core) (r : Reg) : BitVec 8 × Quad := (codeK r, rdK c r)

end Sys2Proof.Machine
end

