-- ==== Sys2Proof/Machine/CohOps.lean ====
section
/-! DEFINITION. The coherence fabric: home hash, directory transitions, conflicts with transactions, and the accesses of
agents served as one step (11). -/
namespace Sys2Proof.Machine

/-- The home slice of a line (11 R331). -/
def homeSlice (a : Nat) : Nat :=
  let g := (BitVec.ofNat 16 a) ^^^ (BitVec.ofNat 16 (a / 2 ^ 16)) ^^^ (BitVec.ofNat 16 (a / 2 ^ 32 % 2 ^ 14))
  g.toNat % 24

/-- The set of a line in its slice (11 R331). -/
def homeSet (a : Nat) : Nat :=
  ((BitVec.ofNat 15 a) ^^^ (BitVec.ofNat 15 (a / 2 ^ 15)) ^^^ (BitVec.ofNat 15 (a / 2 ^ 30))).toNat

/-- Two lines share a directory set. -/
def sameSet (a b : Nat) : Bool := homeSlice a == homeSlice b && homeSet a == homeSet b

/-- A line with no directory entry. -/
def dirDef : Nat → DirEnt := fun _ => {}

/-- The directory entry of a line. -/
def dirOf (x : UnitState) (line : Nat) : DirEnt := tabGet dirDef x.mem.coh.dir line

/-- A unit with its coherence state changed. -/
def modCoh (x : UnitState) (f : CohState → CohState) : UnitState := { x with mem := { x.mem with coh := f x.mem.coh } }

/-- The code of a directory state (11 R335). -/
def dirCode : DirSt → Nat
  | .free => 0
  | .shared => 1
  | .witnessed => 2
  | .owned => 3
  | .recall => 4

/-- The item of a directory transition (03 R76). -/
def dirItem (line old new agent : Nat) : Quad :=
  BitVec.ofNat 128 (line % 2 ^ 46 + old * 2 ^ 48 + new * 2 ^ 52 + agent * 2 ^ 56)

/-- A directory entry replaced; a change of state, holders, witness or owner is a transition and folds into the home
slice's signature (11 R335). An entry with nothing left is released. -/
def setDir (x : UnitState) (line agent : Nat) (e : DirEnt) : UnitState :=
  let o := dirOf x line
  let x' := if o.st = e.st ∧ o.holders = e.holders ∧ o.own = e.own then x else
    modSig x (fun g => { g with home := foldTab g.home (homeSlice line) [dirItem line (dirCode o.st) (dirCode e.st) agent] })
  let e := if e.st = .free ∧ e.pin = none ∧ e.tvec = 0 then {} else e
  modCoh x' (fun c => { c with dir := tabSet dirDef c.dir line e })

/-- The state of an agent's copy of a line. -/
def agOf (x : UnitState) (agent line : Nat) : AgSt := tabGet (fun _ => AgSt.i) x.mem.coh.ag (128 * line + agent)

/-- An agent's copy of a line put into a state. -/
def setAg (x : UnitState) (agent line : Nat) (st : AgSt) : UnitState :=
  modCoh x (fun c => { c with ag := tabSet (fun _ => AgSt.i) c.ag (128 * line + agent) st })

/-- What the L3 holds of a line. -/
def l3Of (x : UnitState) (line : Nat) : L3St := tabGet (fun _ => L3St.absent) x.mem.coh.l3 line

/-- The L3's copy of a line put into a state. -/
def setL3 (x : UnitState) (line : Nat) (st : L3St) : UnitState :=
  modCoh x (fun c => { c with l3 := tabSet (fun _ => L3St.absent) c.l3 line st })

/-- The home takes a line for home data: from L3, or from DRAM with an allocation in L3 (11 R337, R341). -/
def l3Fill (x : UnitState) (line : Nat) : UnitState :=
  if l3Of x line ≠ .absent then x else setL3 (if line < 2 ^ 41 then mcAcceptRead x 0 line else x) line .clean

/-- A dirty line that reaches the L3; in write-through mode it goes to DRAM at once and stays clean (11 R337, R348). -/
def l3Dirty (x : UnitState) (line : Nat) : UnitState :=
  if x.mem.coh.wt then setL3 (mcAcceptWrite x 1 line) line .clean else setL3 x line .dirty

/-- A dirty L3 line written to DRAM; its copy stays, clean. -/
def l3Clean (x : UnitState) (line : Nat) : UnitState :=
  if l3Of x line = .dirty then setL3 (mcAcceptWrite x 1 line) line .clean else x

/-- The holders of an entry, by position. -/
def holderList (e : DirEnt) : List Nat := bitList e.holders 80

/-- One position as a set. -/
def posBit (n : Nat) : BitVec 80 := BitVec.ofNat 80 (2 ^ n)

/-- Copies of a line dropped at a list of positions. -/
def dropCopies (x : UnitState) (line : Nat) (ps : List Nat) : UnitState := ps.foldl (fun y p => setAg y p line .i) x

/-- A dirty owner's data taken into the L3. -/
def takeDirty (x : UnitState) (line : Nat) : UnitState :=
  let e := dirOf x line
  if e.st = .owned ∧ agOf x e.own line = .d then l3Dirty x line else x

/-- An older begin-stamp (09 R282): a lower UCC, or at equal UCC a lower core number. -/
def stampOlder (a b : Nat × Nat) : Bool := decide (a.1 < b.1) || (decide (a.1 = b.1) && decide (a.2 < b.2))

/-- The registers of a checkpoint put back (09 R286): RSV and RETRYCNT are not restored. -/
def restoreCkpt (c : Core) (k : Checkpoint) : Core :=
  { c with a := k.a, d := k.d, k := k.k, psw := { k.psw with tx := false }, rm := k.rm, subn := k.subn, fpsw := k.fpsw }

/-- The core's part of an abort (09 R286, R290): the checkpoint, TSTAT.CODE, the abort path, the carried stamp. -/
def abortCore (c : Core) (code : BitVec 8) : Core :=
  match c.txn with
  | none => c
  | some t =>
    { restoreCkpt c t.ckpt with
        tcode := code, pc := t.abortPath, txn := none,
        carried := if code = 1 ∨ code = 2 then some (t.stamp, t.tbegPc) else none }

/-- A core position as a bit of a transaction vector. -/
def tvecBit (p : Nat) : BitVec 56 := BitVec.ofNat 56 (2 ^ p)

/-- The transaction bits of a core taken off a list of lines. -/
def releaseLines (x : UnitState) (pos : Nat) (ls : List Nat) : UnitState :=
  ls.foldl (fun y l => let e := dirOf y l; setDir y l pos { e with tvec := e.tvec &&& ~~~(tvecBit pos) }) x

/-- The position of a logical core (03 R85). -/
def corePos (x : UnitState) (l : Nat) : Nat := tabGet (fun n => n) x.exe.map l

/-- An open transaction aborted with a code (09 R286); nothing happens where none is open. -/
def txAbort (x : UnitState) (l : Nat) (code : BitVec 8) : UnitState :=
  match (unitCore x l).txn with
  | none => x
  | some t => setUnitCore (releaseLines x (corePos x l) (t.readSet ++ t.writeSet)) l (abortCore (unitCore x l) code)

/-- The logical cores whose open transactions a request for a line conflicts with (09 R287): it would write a line of a
read or write set, or read a line of a write set. -/
def txHolders (x : UnitState) (line : Nat) (write : Bool) (self : Option Nat) : List (Nat × (Nat × Nat)) :=
  x.exe.cores.filterMap (fun e =>
    if some e.1 = self then none else
    match e.2.txn with
    | none => none
    | some t => if t.writeSet.contains line || (write && t.readSet.contains line) then some (e.1, t.stamp) else none)

/-- What the home answers to a request under R287. -/
inductive TxRes | go | wait | selfAbort
  deriving DecidableEq, Repr

/-- A conflict resolved (09 R287). `stamp` is the requester's begin-stamp when its request is transactional. -/
def txResolve (x : UnitState) (line : Nat) (write : Bool) (self : Option Nat) (stamp : Option (Nat × Nat)) :
    UnitState × TxRes :=
  match txHolders x line write self with
  | [] => (x, .go)
  | hs =>
    match stamp with
    | none => (x, .wait)
    | some t =>
      if hs.all (fun h => stampOlder t h.2) then (hs.foldl (fun y h => txAbort y h.1 1) x, .go) else (x, .selfAbort)

/-- The lines of a directory set that have entries. -/
def setEntries (x : UnitState) (line : Nat) : List (Nat × DirEnt) := x.mem.coh.dir.filter (fun e => sameSet e.1 line)

/-- The least recently used entry of a list. -/
def lruOf : List (Nat × DirEnt) → Option (Nat × DirEnt)
  | [] => none
  | e :: r =>
    match lruOf r with
    | none => some e
    | some b => if b.2.lru < e.2.lru then some b else some e

/-- A victim entry reclaimed (11 R336): RECALL, INV to every holder, dirty data into L3, the way freed. -/
def recallEntry (x : UnitState) (line agent : Nat) : UnitState :=
  let e := dirOf x line
  let x := takeDirty x line
  let x := setDir x line agent { e with st := .recall }
  let x := dropCopies x line (holderList e)
  setDir x line agent {}

/-- The transactions that hold entries of a directory set, with their stamps. -/
def setTxns (x : UnitState) (line : Nat) : List (Nat × (Nat × Nat)) :=
  x.exe.cores.filterMap (fun e =>
    match e.2.txn with
    | none => none
    | some t => if (t.readSet ++ t.writeSet).any (sameSet line) then some (e.1, t.stamp) else none)

/-- The youngest of a list of transactions. -/
def youngestTxn : List (Nat × (Nat × Nat)) → Option (Nat × (Nat × Nat))
  | [] => none
  | t :: r =>
    match youngestTxn r with
    | none => some t
    | some b => if stampOlder t.2 b.2 then some b else some t

/-- A way made free for a line that has no entry (11 R336, 09 R288); `false` when the request must wait. -/
def ensureWay (x : UnitState) (line agent : Nat) : UnitState × Bool :=
  if (x.mem.coh.dir.any (fun e => e.1 == line)) then (x, true) else
  let es := setEntries x line
  if es.length < 16 then (x, true) else
  match lruOf (es.filter (fun e => e.2.pin.isNone && e.2.tvec == 0)) with
  | some v => (recallEntry x v.1 agent, true)
  | none =>
    let ts := setTxns x line
    if ts.length < 2 then (x, false) else
    match youngestTxn ts with
    | none => (x, false)
    | some t => (txAbort x t.1 2, false)

/-- A way sought again after each transaction that the home has aborted for it (09 R288). `n` bounds the tries. -/
def takeWay (line agent : Nat) : Nat → UnitState → UnitState × Bool
  | 0, x => (x, false)
  | n + 1, x =>
    match ensureWay x line agent with
    | (y, true) => (y, true)
    | (y, false) => if (setTxns y line).length < (setTxns x line).length then takeWay line agent n y else (y, false)

/-- The time of an entry's last use. -/
def touchEntry (x : UnitState) (line : Nat) : UnitState :=
  let e := dirOf x line
  let x := modCoh x (fun c => { c with clock := c.clock + 1 })
  if e = {} then x else
  modCoh x (fun c => { c with dir := tabSet dirDef c.dir line { e with lru := c.clock } })

/-- A read with a copy kept, served whole (11 R334, R341 RDS): the copy states of requester and owner and the entry. -/
def cohRead (x : UnitState) (agent line : Nat) : UnitState :=
  if agOf x agent line ≠ .i then x else
  let e := dirOf x line
  let hs := e.holders ||| posBit agent
  let x := match e.st with
    | .free | .recall =>
      setDir (setAg (l3Fill x line) agent line .e) line agent { e with st := .owned, holders := posBit agent, own := agent }
    | .shared => setDir (setAg (l3Fill x line) agent line .w) line agent { e with st := .witnessed, holders := hs, own := agent }
    | .witnessed => setDir (setAg x agent line .s) line agent { e with holders := hs }
    | .owned =>
      let y := setAg (takeDirty x line) e.own line .w
      setDir (setAg y agent line .s) line agent { e with st := .witnessed, holders := hs }
  touchEntry x line

/-- Exclusive ownership, served whole (11 R334, R341 RDX and UPG): every other copy is dropped and the requester's copy
is dirty. -/
def cohOwn (x : UnitState) (agent line : Nat) : UnitState :=
  match agOf x agent line with
  | .d => x
  | .e => setAg x agent line .d
  | _ =>
    let e := dirOf x line
    let x := if e.st = .owned then x else l3Fill x line
    let x := dropCopies x line ((holderList e).filter (fun p => p ≠ agent))
    let x := setDir (setAg x agent line .d) line agent { e with st := .owned, holders := posBit agent, own := agent }
    touchEntry x line

/-- The reservations and held context translations that a performed store by another agent ends (11 R344, 09 R279;
15 R448): the pin of the line is released with its holder's RSV.VALID, and a core whose walker holds the line discards
its translations. `self` is the storing core or engine. -/
def storeEffects (x : UnitState) (line : Nat) (selfCore selfEngine : Option Nat) : UnitState :=
  let clr := fun (c : Core) => if c.rsvGranule.toNat = line then { c with rsvValid := false } else c
  let dropTlb := fun (own : Bool) (c : Core) =>
    if c.ctxLine = some line then
      (if own then { c with ctxStale := true } else { c with tlb := [], codeTlb := [], ctxLine := none }) else c
  let x := { x with exe := { x.exe with
    cores := tabMap coreDef (fun n c => dropTlb (some n = selfCore) (if some n = selfCore then c else clr c)) x.exe.cores
    engines := tabMap engineDef (fun n c => dropTlb (some n = selfEngine) (if some n = selfEngine then c else clr c)) x.exe.engines } }
  let e := dirOf x line
  let mine := match e.pin, selfCore, selfEngine with
    | some (p, _), some l, _ => decide (p = corePos x l)
    | some (p, k), none, some en => decide (p = 56 + en / 16) && decide (k = en % 16)
    | none, _, _ => true
    | _, _, _ => false
  if mine then x else setDir x line 0 { e with pin := none }

/-- The held context translations that a store to a line ends (15 R448): every core whose walker holds the line discards its own. -/
def ctxEffects (x : UnitState) (line : Nat) : UnitState :=
  let drop := fun (c : Core) => if c.ctxLine = some line then { c with tlb := [], codeTlb := [], ctxLine := none } else c
  { x with exe := { x.exe with
    cores := tabMap coreDef (fun _ c => drop c) x.exe.cores
    engines := tabMap engineDef (fun _ c => drop c) x.exe.engines } }

/-- Bytes stored into the coherent value of DRAM. A write merges into a marked line and the mark stays (13 R389). -/
def putBytes (x : UnitState) (addr : Nat) (bs : List Byte) : UnitState :=
  { x with mem := { x.mem with data := tabSetList byteDef x.mem.data addr bs } }

/-- In write-through mode an agent that makes a dirty line sends it to the home at once as EVW and keeps it in E
(11 R348). -/
def writeThrough (x : UnitState) (agent line : Nat) : UnitState :=
  if x.mem.coh.wt ∧ agOf x agent line = .d then l3Dirty (setAg x agent line .e) line else x

/-- A store performed in DRAM by an agent (09 R266): ownership, the bytes, and what it ends elsewhere. -/
def performStore (x : UnitState) (agent addr : Nat) (bs : List Byte) (selfCore selfEngine : Option Nat) : UnitState :=
  let line := addr / 64
  let x := cohOwn x agent line
  let x := putBytes x addr bs
  storeEffects (writeThrough x agent line) line selfCore selfEngine

/-- The line of a full-line write (11 R341 WRL): every copy is dropped, the line goes into L3, and without POISON it clears a stored
mark (11 R351, 13 R389). -/
def wrlLine (x : UnitState) (agent line : Nat) (bs : List Byte) : UnitState :=
  let e := dirOf x line
  let x := dropCopies x line (holderList e)
  let x := setDir x line agent { e with st := .free, holders := 0, own := 0 }
  let x := putBytes x (64 * line) bs
  let x := { x with mem := { x.mem with mark := tabSet markDef x.mem.mark line 0 } }
  l3Dirty x line

/-- A full-line write with no copy kept, served whole: its line, and what it ends elsewhere (11 R344, 09 R279). -/
def performWrl (x : UnitState) (agent line : Nat) (bs : List Byte) : UnitState :=
  storeEffects (wrlLine x agent line bs) line none none

/-- CLEAN of a line (11 R341 CLN): dirty data into L3, the L3 line to DRAM. -/
def performClean (x : UnitState) (line : Nat) : UnitState :=
  let e := dirOf x line
  let x := if e.st = .owned ∧ agOf x e.own line = .d then setAg (l3Dirty x line) e.own line .e else x
  l3Clean x line

/-- FLUSH of a line (11 R341 FLS): every copy dropped, dirty data to DRAM, the L3 line dropped. -/
def performFlush (x : UnitState) (agent line : Nat) : UnitState :=
  let e := dirOf x line
  let x := takeDirty x line
  let x := dropCopies x line (holderList e)
  let x := setDir x line agent { e with st := .free, holders := 0, own := 0 }
  setL3 (l3Clean x line) line .absent

/-- A line is in service for a message-level request, so that an access of it waits (11 R340). -/
def inService (x : UnitState) (line : Nat) : Bool := (tabGet (fun _ => (none : Option Svc)) x.mem.coh.svc line).isSome

end Sys2Proof.Machine
end

