-- ==== Sys2Proof/Machine/Xlate.lean ====
section
/-! DEFINITION. Parcels and translation: the parcel map, context entries, the data and code walks (15). -/
namespace Sys2Proof.Machine

/-- No parcel. -/
def parcelDef : Nat → Option Parcel := fun _ => none

/-- A parcel of a unit, where it exists. -/
def parcelOf (x : UnitState) (p : Nat) : Option Parcel := tabGet parcelDef x.mem.parcels p

/-- A unit with a parcel replaced or removed. -/
def setParcel (x : UnitState) (p : Nat) (v : Option Parcel) : UnitState :=
  { x with mem := { x.mem with parcels := tabSet parcelDef x.mem.parcels p v } }

/-- The segment table entry of a DRAM module segment (15 R442). -/
def segOf (x : UnitState) (mseg : Nat) : SegEnt := tabGet (fun _ => {}) x.mem.segs mseg

/-- The valid map entry of a parcel for a segment number (15 R439). -/
def mapFind (x : UnitState) (p pseg : Nat) : Option MapEnt :=
  match parcelOf x p with
  | none => none
  | some q => q.map.find? (fun e => e.pseg.toNat == pseg)

/-- A parcel-physical address translated: the map entry and the module-physical address (15 R439). -/
def xlatePpa (x : UnitState) (p ppa : Nat) : Option (MapEnt × Nat) :=
  match mapFind x p (ppa / 2 ^ 36 % 2 ^ 16) with
  | none => none
  | some e => some (e, e.mseg.toNat * 2 ^ 36 + ppa % 2 ^ 36)

/-- The page is in the retired-page table (15 R443). -/
def pageRetired (x : UnitState) (mpa : Nat) : Bool := x.mem.retired.contains (mpa / 4096)

/-- The segment's ACL has the parcel (15 R442). -/
def aclHas (x : UnitState) (mseg p : Nat) : Bool := (segOf x mseg).acl.getLsbD p

/-- A parcel access to DRAM that is not code passes steps 3 and 4 of 15 R452; its module-physical address. -/
def dramAccess (x : UnitState) (p ppa : Nat) : Option Nat :=
  match xlatePpa x p ppa with
  | none => none
  | some (e, mpa) =>
    if e.code || e.fieldbook || e.device || !aclHas x e.mseg.toNat p || pageRetired x mpa
      || decide (installed x ≤ mpa) then none else some mpa

/-- The 64-bit word that memory holds at a module-physical address. -/
def memWord (x : UnitState) (mpa : Nat) : Word := BitVec.ofNat 64 (leNat (tabGetList byteDef x.mem.data mpa 8))

/-- A table word read by a walk: in a DRAM segment that is not a code segment, without a mark (15 R447, R450). -/
def tableWord (x : UnitState) (p ppa : Nat) : Option Word :=
  match dramAccess x p ppa with
  | none => none
  | some mpa => if lineMark x (mpa / 64) = 0 then some (memWord x mpa) else none

/-- The context entry of logical core or engine entry `n` of a parcel (15 R445): words 0 and 1. None where the parcel
or its table cannot be read, or a reserved bit is set. -/
def ctxEntry (x : UnitState) (p n : Nat) : Option (Word × Word) :=
  match parcelOf x p with
  | none => none
  | some q =>
    match tableWord x p (q.ctxBase + 64 * n), tableWord x p (q.ctxBase + 64 * n + 8) with
    | some w0, some w1 =>
      if bitsOf w0 2 10 = 0 ∧ bitsOf w0 52 12 = 0 ∧ bitsOf w1 0 11 = 0 ∧ bitsOf w1 52 12 = 0 then some (w0, w1) else none
    | _, _ => none

/-- The line of memory that holds a context entry. -/
def ctxEntryLine (x : UnitState) (p n : Nat) : Option Nat :=
  match parcelOf x p with
  | none => none
  | some q => (dramAccess x p (q.ctxBase + 64 * n)).map (fun m => m / 64)

/-- A data walk from a level (15 R446, R447): the parcel-physical 4 KiB page and the rights W and U. -/
def walkData (x : UnitState) (p va : Nat) : Nat → Nat → Option (Nat × Bool × Bool)
  | 0, _ => none
  | lvl + 1, table =>
    match tableWord x p (table + 8 * (va / 2 ^ (12 + 9 * lvl) % 512)) with
    | none => none
    | some e =>
      let ppn := bitsOf e 12 40
      if !bitOf e 0 || bitsOf e 4 8 ≠ 0 then none
      else if bitOf e 1 then
        if lvl = 3 ∨ ppn % 2 ^ (9 * lvl) ≠ 0 then none
        else some (ppn + va / 4096 % 2 ^ (9 * lvl), bitOf e 2, bitOf e 3)
      else if lvl = 0 then none
      else walkData x p va lvl (ppn * 4096)

/-- A code walk from a level (15 R449, R450): the parcel-physical address of the 16 KiB frame, and the rights L and U. -/
def walkCode (x : UnitState) (p ca : Nat) : Nat → Nat → Option (Nat × Bool × Bool)
  | 0, _ => none
  | lvl + 1, table =>
    match tableWord x p (table + 8 * (ca / 2 ^ (13 + 9 * lvl) % 512)) with
    | none => none
    | some e =>
      if !bitOf e 0 then none
      else if lvl = 0 then
        if !bitOf e 1 || bitsOf e 4 10 ≠ 0 then none else some (bitsOf e 14 38 * 2 ^ 14, bitOf e 2, bitOf e 3)
      else if bitOf e 1 || bitsOf e 4 7 ≠ 0 then none
      else walkCode x p ca lvl (bitsOf e 11 41 * 2048)

/-- A data address translated by the tables as they stand (15 R446): the 4 KiB parcel-physical page, W and U. -/
def dataXlate (x : UnitState) (p n : Nat) (va : Word) : Option (Nat × Bool × Bool) :=
  match ctxEntry x p n with
  | none => none
  | some (w0, _) =>
    if bitOf w0 0 then
      if bitsOf va 47 17 = 0 ∨ bitsOf va 47 17 = 2 ^ 17 - 1 then walkData x p va.toNat 4 (bitsOf w0 12 40 * 4096) else none
    else if bitsOf va 52 12 = 0 then some (va.toNat / 4096, true, true) else none

/-- A code address translated by the tables as they stand (15 R449): the parcel-physical address of the 16 KiB that
hold its code page, L and U. -/
def codeXlate (x : UnitState) (p n : Nat) (ca : CodeAddr) : Option (Nat × Bool × Bool) :=
  match ctxEntry x p n with
  | none => none
  | some (w0, w1) =>
    if bitOf w0 1 then walkCode x p ca.toNat 4 (bitsOf w1 11 41 * 2048)
    else some (ca.toNat / 8192 * 16384, true, true)

/-- The memory slot of the code word of a code address inside its page's frame (07 R213). -/
def slotOff (ca : CodeAddr) : Nat := ca.toNat % 8192 / 4 * 8

/-- The module-physical address of the code frame at a parcel-physical address: the page must lie in a code segment
that the parcel may map, within installed DRAM, not retired (15 R450). -/
def codeFrame (x : UnitState) (p ppa : Nat) : Option Nat :=
  match xlatePpa x p ppa with
  | none => none
  | some (e, mpa) =>
    if e.code && aclHas x e.mseg.toNat p && !pageRetired x mpa && decide (mpa < installed x) then some mpa else none

/-- The parity nibble of a code word's slot agrees with its syllables (07 R213). -/
def slotParityOk (w : Word) : Bool :=
  (List.range 4).all (fun k => parity (BitVec.ofNat 14 (bitsOf w (14 * k) 14)) == bitOf w (56 + k))

/-- The context entry number of a processor (15 R445): its logical core, or 48 for an engine. -/
def ctxIndex : Proc → Nat
  | .core _ l => l
  | .engine .. => 48
  | .service => 49

/-- The walker of a core keeps the line of its own context entry (15 R448). -/
def keepCtxLine (x : UnitState) (p n : Nat) (c : Core) : Core := { c with ctxLine := ctxEntryLine x p n }

/-- A code page translated for a processor, through the entries it holds, else by a walk that fills one; CODE_FAULT
where it fails. The frame's module-physical address, L and U, and the core with the entry. -/
def codePage (x : UnitState) (n : Nat) (c : Core) (ca : CodeAddr) : Option (Nat × Bool × Bool × Core) :=
  let pg := ca.toNat / 8192
  match c.codeTlb.find? (fun e => e.vpage == pg) with
  | some e => some (e.mpage * 16384, e.w, e.u, c)
  | none =>
    match codeXlate x c.parcel.toNat n ca with
    | none => none
    | some (ppa, l, u) =>
      match codeFrame x c.parcel.toNat ppa with
      | none => none
      | some mpa =>
        let c := keepCtxLine x c.parcel.toNat n c
        some (mpa, l, u, { c with codeTlb := { vpage := pg, mpage := mpa / 16384, w := l, u := u } :: c.codeTlb })

/-- A core discards every translation it holds (15 R448). -/
def flushTlb (c : Core) : Core := { c with tlb := [], codeTlb := [], ctxLine := none, ctxStale := false }

/-- Every core and engine of a unit discards its translations (15 R448). -/
def flushAllTlbs (x : UnitState) : UnitState :=
  { x with exe := { x.exe with
    cores := tabMap coreDef (fun _ c => flushTlb c) x.exe.cores,
    engines := tabMap engineDef (fun _ c => flushTlb c) x.exe.engines } }

end Sys2Proof.Machine
end

