-- ==== Sys2Proof/Machine/Ops.lean ====
section
/-! DEFINITION. Taking an exception and returning from one, interrupts, and the frame in which every instruction executes
(07 R237, 09 R284 to R289, 10 R297 to R310). -/
namespace Sys2Proof.Machine

/-- The four entry points of 10 R299. -/
inductive EntryKind | mcheck | exception | svc | interrupt
  deriving DecidableEq, Repr

/-- The kind of entry of a cause (10 R302). -/
def causeKind (code : Nat) : EntryKind :=
  if 0x20 ≤ code then .mcheck else if code = 0x0C then .svc else if code = 0x10 ∨ code = 0x11 then .interrupt else .exception

/-- The offset of an entry point from VBASE in syllables (10 R299). -/
def entryOffset : EntryKind → Nat
  | .mcheck => 0
  | .exception => 256
  | .svc => 512
  | .interrupt => 768

/-- The entry point of a cause on a core (10 R299, R301). -/
def entryPoint (c : Core) (k : EntryKind) : CodeAddr :=
  c.vbase.setWidth 48 <<< 10 + BitVec.ofNat 48 (entryOffset k)

/-- The entry sequence of 10 R297 on a core's registers: the return address and the status saved, the cause recorded,
supervisor state with interrupts off, the stack switched from problem state, the reservation cleared, the branch. A cause
that is not a machine check leaves MCIP as it stands: only RTE clears it (log 17). -/
def enterCore (c : Core) (code ilen : Nat) (tx : Bool) (iaddr epc : CodeAddr) (eaddr : Word) : Core :=
  let k := causeKind code
  let c' : Core := { c with
    epc := epc, epsw := { c.psw with tx := false },
    ecause := { code := BitVec.ofNat 8 code, ilen := BitVec.ofNat 2 ilen, tx := tx,
                mcip := c.ecause.mcip || decide (k = .mcheck), iaddr := iaddr }
    eaddr := eaddr, psw := { c.psw with s := true, ie := false, tx := false }, rsvValid := false, waiting := false
    pinWait := none, pc := entryPoint c k }
  if c.psw.s then c' else { wrA c' 15 c.ssp with ea15 := rdA c 15 }

/-- RTE on a core's registers (10 R298). -/
def returnCore (c : Core) : Core :=
  let c' : Core := { c with psw := { c.epsw with tx := false }, ecause := { c.ecause with mcip := false }, pc := c.epc }
  if c.epsw.s then c' else wrA c' 15 c.ea15

/-- The pin that a logical core's reservation holds at a home is released (09 R280, 11 R344). -/
def releasePin (x : UnitState) (pos eng : Nat) (line : Nat) : UnitState :=
  let e := dirOf x line
  if e.pin = some (pos, eng) then setDir x line pos { e with pin := none } else x

/-- A logical core's reservation is cleared, with its pin. -/
def clearRsv (x : UnitState) (l : Nat) : UnitState :=
  let c := unitCore x l
  let x := releasePin x (corePos x l) 0 c.rsvGranule.toNat
  setUnitCore x l { c with rsvValid := false }

/-- An engine's reservation is cleared, with its pin. -/
def clearEngineRsv (x : UnitState) (e : Nat) : UnitState :=
  let c := unitEngine x e
  let x := releasePin x (56 + e / 16) (e % 16) c.rsvGranule.toNat
  setUnitEngine x e { c with rsvValid := false }

/-- The open transaction of a core aborts, and the core takes the cause: EPC is then the abort path (09 R289). -/
def enterFrom (x : UnitState) (l code ilen : Nat) (iaddr epc : CodeAddr) (eaddr : Word) : UnitState :=
  let c := unitCore x l
  let tx := c.txn.isSome
  let x := txAbort x l (if causeKind code = .mcheck then 9 else 8)
  let x := clearRsv x l
  let c' := unitCore x l
  setUnitCore x l (enterCore c' code ilen tx iaddr (if tx then c'.pc else epc) eaddr)

/-- An event whose INFO the spec leaves open: INFO is a free value (log 8). -/
def raiseFree (s : State) (src ucc : Nat) : State :=
  let (w, s) := nextFree s
  raiseFault s src ucc w

/-- An event of a unit's source with a free INFO. -/
def raiseUnitFree (s : State) (u : UnitId) (off : Nat) : State := raiseFree s (unitSrcNum u off) (getUnit s u).ucc

/-- A logical core takes a cause of 10 R302. A machine check while MCIP is 1 is UNIT_CHECKSTOP (R310); a cause raised by
the instruction at its own entry point stops the core with VECTOR_FAULT (R299). A local machine check is also an event of
CORE_MCHK (R309, 17 R489). -/
def takeCause (s : State) (u : UnitId) (l code ilen : Nat) (iaddr epc : CodeAddr) (eaddr : Word) : State :=
  let c := unitCore (getUnit s u) l
  let k := causeKind code
  let s := if 0x21 ≤ code then
      raiseUnit s u (0x40 + l) (BitVec.ofNat 64 (code + 2 ^ 8 * (eaddr.toNat % 2 ^ 56))) else s
  if k = .mcheck ∧ c.ecause.mcip then raiseUnitFree s u 0x206
  else if k ≠ .interrupt ∧ code ≠ 0x20 ∧ iaddr = entryPoint c k then
    raiseUnitFree (modUnit s u (fun x => modUnitCore x l (fun c => { c with vectorStop := true }))) u (0x80 + l)
  else modUnit s u (fun x => enterFrom x l code ilen iaddr epc eaddr)

/-- An interrupt is pending: the timer, or an external vector (10 R305 to R307). -/
def timerPending (x : UnitState) (c : Core) : Bool := decide (c.tcmp ≠ 0) && decide (c.tcmp.toNat ≤ x.ucc)

/-- The lowest pending external vector. -/
def lowestPending (c : Core) : Option Nat := (bitList c.pend 256).head?

/-- Interrupts may be taken at this boundary (10 R303). -/
def intEnabled (c : Core) : Bool := c.psw.ie && !c.psw.tx && c.txn.isNone

/-- The interrupt that a core takes at an instruction boundary, timer first, then the lowest vector (10 R303 to R306);
none where nothing is due. -/
def takeInterrupt (s : State) (u : UnitId) (l : Nat) : Option State :=
  let x := getUnit s u
  let c := unitCore x l
  if !intEnabled c then none
  else if timerPending x c then
    let v := c.tcmp
    let s := modUnit s u (fun x => modUnitCore x l (fun c => { c with tcmp := 0 }))
    some (takeCause s u l 0x10 0 c.pc c.pc v)
  else
    match lowestPending c with
    | none => none
    | some v =>
      let s := modUnit s u (fun x => modUnitCore x l (fun c => { c with pend := withBit c.pend v false }))
      some (takeCause s u l 0x11 0 c.pc c.pc (BitVec.ofNat 64 v))

/-- A parcel's vector raised in a unit (10 R304, R305): pending at the routed core; unrouted, it is counted on
VEC_UNROUTED. -/
def raiseVector (s : State) (u : UnitId) (p v : Nat) : State :=
  let x := getUnit s u
  let route := match parcelOf x p with
    | none => none
    | some q => tabGet (fun _ => (none : Option Nat)) q.vectors v
  match route with
  | some l => modUnit s u (fun x => modUnitCore x l (fun c => { c with pend := withBit c.pend (v % 256) true }))
  | none => raiseUnitFree s u 0x20C

/-- What an instruction's own effect comes to: it retires with its register writes, counting `n` instructions; it raises a
cause with an EADDR; it waits and has not executed; its transaction aborts; the machine stops. -/
inductive XOut
  | done (s : State) (ws : List (BitVec 8 × Quad)) (n : Nat)
  | exn (s : State) (code : Nat) (eaddr : Word)
  | wait (s : State)
  | abort (s : State) (code : BitVec 8)
  | stop (f : Fault)
  | refuse (r : Refusal)
  deriving DecidableEq

/-- How an instruction is encoded, as decode checks it (07 R210, R222, R237): its syllables, the profiles that have it,
whether it is privileged, its encoding illegal, a repeat hazard, and forbidden in a transaction (09 R284). -/
structure Enc where
  len : Nat
  c : Bool := true
  t : Bool := true
  sv : Bool := true
  priv : Bool := false
  bad : Bool := false
  hazard : Bool := false
  txBad : Bool := false

/-- The profile has the instruction (07 R210). -/
def encHas (e : Enc) : Profile → Bool
  | .c => e.c
  | .t => e.t
  | .s => e.sv

/-- The UCC lies in the chain in progress of a unit that executes (02 R32). -/
def unitOpen (s : State) (u : UnitId) (ucc : Nat) : Bool :=
  let x := getUnit s u
  x.executing && !x.dropped && !x.held && decide (ucc < nextUb s x)

/-- A unit executes at a UCC: every record with a STAMP up to it has been applied at the start of its cycle (03 R61). -/
def unitRuns (s : State) (u : UnitId) (ucc : Nat) : Bool :=
  unitOpen s u ucc && (getUnit s u).feed.all (fun k => decide (ucc < k.stamp))

/-- The cores of a unit issue in a cycle: no patch stall is under way, and the throttle leaves the cycle (10 R325, 18 R527). -/
def coresIssue (x : UnitState) (ucc : Nat) : Bool :=
  (match x.exe.ucode.stallEnd with | none => true | some e => decide (e ≤ ucc)) && decide (ucc % 8 < 8 - x.exe.throttle.toNat)

/-- A logical core can take an instruction boundary (03 R87, R88, R90, 10 R299, R307). -/
def coreRuns (c : Core) : Bool :=
  !c.waiting && !c.vectorStop && !c.debugHalt && !c.offline && !c.sparing

/-- The processor executes at the issue's UCC. -/
def canRun (s : State) (i : Issue) : Bool :=
  match i.proc with
  | .core u l =>
    let c := unitCore (getUnit s u) l
    unitRuns s u i.ucc && coresIssue (getUnit s u) i.ucc && coreRuns c && decide (c.resumeAt ≤ i.ucc)
  | .engine u e => unitRuns s u i.ucc && !(unitEngine (getUnit s u) e).progEnd
  | .service => s.sahya.running && !s.sahya.lockStop

/-- The unit's UCC at the issue. -/
def atUcc (s : State) (i : Issue) : State :=
  match i.proc with
  | .core u _ | .engine u _ => modUnit s u (fun x => { x with ucc := later x.ucc i.ucc })
  | .service => s

/-- A code word's slots of an instruction agree with their parity (07 R213): the failing word's address. An instruction that would span
two pages is fetched from its own page alone: it is ILLEGAL at its first syllable (07 R222). -/
def fetchParity (x : UnitState) (frame : Nat) (pc : CodeAddr) (len : Nat) : Option CodeAddr :=
  let first := pc.toNat / 4
  let last := (pc.toNat + len - 1) / 4
  let bad := fun w => !slotParityOk (memWord x (frame + w % 2048 * 8))
  if bad first then some (BitVec.ofNat 48 (4 * first)) else if last ≠ first ∧ last % 2048 ≠ 0 ∧ bad last then some (BitVec.ofNat 48 (4 * last)) else none

/-- The fetch of an instruction (07 R237 step 1, 15 R449, R450): a core or engine translates its code page; problem state
needs U; a parity failure is MC_CODE. The standard program set, code addresses with bit 47 set, is not translated on an
engine. None when nothing is raised. The code that the row names is what the fetch reads (log 18). -/
def fetchCheck (s : State) (p : Proc) (len : Nat) : State × Option (Nat × Word) :=
  let go := fun (u : UnitId) =>
    let x := getUnit s u
    let c := getCore s p
    match codePage x (ctxIndex p) c c.pc with
    | none => (s, some (0x06, c.pc.setWidth 64))
    | some (frame, _, uOk, c') =>
      let s := setCore s p c'
      if !c.psw.s && !uOk then (s, some (0x06, c.pc.setWidth 64)) else
      match fetchParity x frame c.pc len with
      | some a => (s, some (0x23, a.setWidth 64))
      | none => (s, none)
  match p with
  | .core u _ => go u
  | .engine u _ => if (getCore s p).pc.getLsbD 47 then (s, none) else go u
  | .service => (s, none)

/-- An instruction's cause taken by its processor (07 R211, 10 R297, introduction of 10). -/
def takeExn (s : State) (p : Proc) (code ilen : Nat) (eaddr : Word) : Host.Outcome State Fault Refusal :=
  match p with
  | .core u l =>
    let c := unitCore (getUnit s u) l
    let epc := if code = 0x0C then c.pc + 2 else c.pc
    .next (takeCause s u l code ilen c.pc epc eaddr)
  | .engine u e => .next (modUnit s u (fun x => setUnitEngine x e { unitEngine x e with progEnd := true }))
  | .service => .fault .firmwareException

/-- Retirement: register writes fold into the signature, the instruction is counted, a transaction counts it (03 R76,
07 R236, 09 R284). -/
def retire (s : State) (p : Proc) (ws : List (BitVec 8 × Quad)) (n : Nat) : State :=
  match p with
  | .core u l => modUnit s u (fun x =>
      let x := countRetired (foldCoreWrites x l ws) l n
      modUnitCore x l (fun c =>
        { c with txn := c.txn.map (fun t => { t with count := t.count + n }), retrying := none }))
  | .engine u e => modUnit s u (fun x => foldEngineWrites x e ws)
  | .service => s

/-- The abort of a processor's own transaction. -/
def selfAbort (s : State) (p : Proc) (code : BitVec 8) : State :=
  match p with
  | .core u l => modUnit s u (fun x => txAbort x l code)
  | _ => s

/-- The decode checks after the fetch, in order (07 R237): ILLEGAL, PRIVILEGED, REPEAT_HAZARD; 0 when none applies. -/
def decodeCause (e : Enc) (prof : Profile) (c : Core) : Nat :=
  if !encHas e prof || e.bad || decide (8192 < c.pc.toNat % 8192 + e.len) then 0x01
  else if e.priv && !c.psw.s then 0x02
  else if e.hazard then 0x03 else 0

/-- The limit of 09 R284 that the instruction itself would pass: LENGTH, where the count holds the
TBEG itself too, or FORBIDDEN; none outside a transaction. -/
def txLimit (e : Enc) (c : Core) : Option (BitVec 8) :=
  match c.txn with
  | none => none
  | some t => if 513 ≤ t.count then some 6 else if e.txBad then some 7 else none

/-- What an instruction's body comes to, in the state with the pc moved past it. -/
def finish (s0 : State) (p : Proc) (len : Nat) : XOut → Host.Outcome State Fault Refusal
  | .done s ws n => .next (retire s p ws n)
  | .exn s code ea => takeExn (modCore s p (fun c => { c with pc := (getCore s0 p).pc })) p code (len - 1) ea
  | .wait s => .next (modCore s p (fun c => { c with pc := (getCore s0 p).pc }))
  | .abort s code => .next (selfAbort s p code)
  | .stop f => .fault f
  | .refuse r => .refused r

/-- One instruction on a processor: an interrupt that is due is taken in its place (10 R303); fetch, decode checks and
transaction limits in order; then its body. A processor that does not execute leaves the state as it is (log 2). -/
def runInstr (s : State) (i : Issue) (e : Enc) (body : State → XOut) : Host.Outcome State Fault Refusal :=
  if !canRun s i then .next s else
  let s := atUcc s i
  let p := i.proc
  let irq := match p with | .core u l => takeInterrupt s u l | _ => none
  match irq with
  | some s' => .next s'
  | none =>
    if (getCore s p).pinWait.isSome then .next s else
    let (s, f) := fetchCheck s p e.len
    match f with
    | some (code, ea) => takeExn s p code (e.len - 1) ea
    | none =>
      let c := getCore s p
      let d := decodeCause e (procProfile p) c
      if d ≠ 0 then takeExn s p d (e.len - 1) 0 else
      match txLimit e c with
      | some code => .next (selfAbort s p code)
      | none => finish s p e.len (body (modCore s p (fun c => { c with pc := c.pc + BitVec.ofNat 48 e.len })))

/-- A body that works on the processor's registers alone: the new core and its fold items. -/
def regBody (p : Proc) (f : Core → Core × List (BitVec 8 × Quad)) (s : State) : XOut :=
  let r := f (getCore s p)
  .done (setCore s p r.1) r.2 1

/-- An instruction that works on registers alone. -/
def runReg (s : State) (i : Issue) (e : Enc) (f : Core → Core × List (BitVec 8 × Quad)) : Host.Outcome State Fault Refusal :=
  runInstr s i e (regBody i.proc f)

/-- A data register written, with its fold item. -/
def putD (c : Core) (r : Reg) (v : Word) : Core × List (BitVec 8 × Quad) := let c := wrD c r v; (c, [dItem c r])

/-- An address register written, with its fold item. -/
def putA (c : Core) (r : Reg) (v : Word) : Core × List (BitVec 8 × Quad) := let c := wrA c r v; (c, [aItem c r])

/-- An accumulator written, with its fold item. -/
def putK (c : Core) (r : Reg) (v : Quad) : Core × List (BitVec 8 × Quad) := let c := wrK c r v; (c, [kItem c r])

/-- Flags written after the destination: the PSW folds last (log 19). -/
def withFlags (r : Core × List (BitVec 8 × Quad)) (f : Psw → Psw) : Core × List (BitVec 8 × Quad) :=
  let c : Core := { r.1 with psw := f r.1.psw }
  (c, r.2 ++ [pswItem c])

end Sys2Proof.Machine
end

