-- ==== Sys2Proof/WellFormed.lean ====
section
/-! DEFINITION. Which command terms are well formed: the fields that an encoding or a payload cannot hold are refused. -/
namespace Sys2Proof

/-- An accumulator field holds its number in its low two bits; the upper two are zero (07 R218). -/
def wfK (r : Reg) : Bool := decide (r.toNat < 4)

/-- With XV = 0 the index and scale fields are zero (07 R224). -/
def wfEa (e : Ea) : Bool := e.xv || (decide (e.x = 0) && decide (e.sc = 0))

/-- A condition value is assigned (07 R226). -/
def wfCond (c : BitVec 4) : Bool := decide (c ≠ 0xF)

/-- The fields of a string instruction by its operation (07 R231): `useE` when it has an explicit operand, `useStop`
when STOP may be set, `byteOnly` when SZ must be 0, `down` when DIR must be 1. -/
def wfStr (o : StrOp) (useE useStop byteOnly down : Bool) : Bool :=
  (useE || decide (o.e = 0)) && (useStop || !o.stop) && (!byteOnly || decide (o.sz = 0)) && (!down || o.dir)

/-- A binary32 or binary64 operand needs no further check; an immediate shift names one of five operations (07 R228). -/
def wfShift (imm : BitVec 12) : Bool := decide (imm.toNat / 64 < 5)

/-- The command is well formed. -/
def wellFormed : Instr → Bool
  | .mulwu _ k _ _ | .mulws _ k _ _ | .macwu _ k _ _ | .macws _ k _ _ | .kclr _ k => wfK k
  | .kadd _ k s | .kaddc _ k s | .ksub _ k s | .ksubb _ k s | .kmov _ k s | .kcmp _ k s => wfK k && wfK s
  | .dadd _ k s | .dsub _ k s | .dcmp _ k s => wfK k && wfK s
  | .mfkl _ _ k | .mfkh _ _ k | .mtkl _ k _ | .mtkh _ k _ | .cvbd _ k _ | .cvdb _ _ k => wfK k
  | .dshl _ k n | .dshr _ k n => wfK k && decide (n.toNat < 32)
  | .csel _ c _ _ _ | .b _ c _ => wfCond c
  | .call _ c _ | .tbeg _ c _ => decide (c = 0)
  | .sext _ _ _ t | .zext _ _ _ t => decide (t.toNat < 3)
  | .shifti _ _ _ imm => wfShift imm
  | .mfc _ _ code | .mtc _ code _ => decide (0x30 ≤ code.toNat) && decide (code.toNat < 0x40) && decide (code ≠ 0x3E)
  | .tabt _ fn => decide (0x80 ≤ fn.toNat)
  | .ldih _ _ imm => decide (imm.toNat < 2 ^ 20)
  | .movs _ o => wfStr o false false false false
  | .cmps _ o => wfStr o false true false false
  | .scans _ o => wfStr o true true false false
  | .fills _ o => wfStr o true false false false
  | .xlats _ o => wfStr o true false true false
  | .dadds _ o => wfStr o false false true true
  | .ldk _ r e | .stk _ r e => wfK r && wfEa e
  | .ldb _ _ e | .ldbu _ _ e | .ldh _ _ e | .ldhu _ _ e | .ldw _ _ e | .ldwu _ _ e | .ldd _ _ e => wfEa e
  | .stb _ _ e | .sth _ _ e | .stw _ _ e | .std _ _ e | .ald _ _ e | .ast _ _ e | .aref _ _ e => wfEa e
  | .hostStake _ _ _ _ _ ws => decide (1 ≤ ws.length) && decide (ws.length ≤ 16)
  | .ctlMcode _ _ img => decide (img.words.length ≤ 1024) && decide (img.entries.length ≤ 32)
  | .ctlCode _ _ _ ws => decide (ws.length = 2048)
  | .wrl _ _ d => decide (d.length = 64)
  | .wrt _ _ off d => decide (off.toNat + d.length ≤ 64)
  | .stationTakeover _ _ _ _ ps => decide (ps.length ≤ 12)
  | .pathPort _ _ _ _ _ ms => decide (ms.length = 8)
  | .pathGroup _ _ _ _ ps => decide (ps.length = 8)
  | .memConfig _ ws => decide (ws.length = 14)
  | .memTiming _ _ vs => decide (1 ≤ vs.length) && decide (vs.length ≤ 13)
  | .imageWrite _ _ _ ws => decide (ws.length ≤ 12)
  | .calWrite _ _ ws => decide (ws.length ≤ 13)
  | .keyImport _ _ _ _ ws => decide (ws.length ≤ 5)
  | _ => true

end Sys2Proof
end

