-- ==== Sys2Proof/Machine/AccumOps.lean ====
section
/-! DEFINITION. Accumulator instructions (08 R242, R243). -/
namespace Sys2Proof.Machine

/-- The 128-bit unsigned product. -/
def prodU (x y : Word) : Quad := BitVec.ofNat 128 (x.toNat * y.toNat)
/-- The 128-bit signed product. -/
def prodS (x y : Word) : Quad := BitVec.ofInt 128 (x.toInt * y.toInt)

/-- Kd plus a product modulo 2^128, C the carry out of bit 127 (08 R242). -/
def macOp (c : Core) (k : Reg) (p : Quad) : Core × List (BitVec 8 × Quad) :=
  let r := addFull (rdK c k) p false
  withFlags (putK c k r.1) (fun w => { w with c := r.2.1 })

/-- A 128-bit sum with NZCV (08 R243). -/
def kaddOp (c : Core) (k : Reg) (x y : Quad) (cin : Bool) : Core × List (BitVec 8 × Quad) :=
  let r := addFull x y cin
  withFlags (putK c k r.1) (fun p => setNzcv p r.1 r.2.1 r.2.2)

/-- A 128-bit difference with NZCV (08 R243). -/
def ksubOp (c : Core) (k : Reg) (x y : Quad) (bin : Bool) : Core × List (BitVec 8 × Quad) :=
  let r := subFull x y bin
  withFlags (putK c k r.1) (fun p => setNzcv p r.1 r.2.1 r.2.2)

/-- KCLR Kk (08 R243). -/
def execKclr (i : Issue) (k : Reg) (s : State) : Host.Outcome State Fault Refusal :=
  runReg s i { len := 1, sv := false, bad := !wellFormed (.kclr i k) } (fun c => putK c k 0)

/-- MULWU: the unsigned product (08 R242). -/
def execMulwu (i : Issue) (k rs t : Reg) (s : State) : Host.Outcome State Fault Refusal :=
  runReg s i { len := 2, sv := false, bad := !wellFormed (.mulwu i k rs t) } (fun c => putK c k (prodU (rdD c rs) (rdD c t)))

/-- MULWS: the signed product (08 R242). -/
def execMulws (i : Issue) (k rs t : Reg) (s : State) : Host.Outcome State Fault Refusal :=
  runReg s i { len := 2, sv := false, bad := !wellFormed (.mulws i k rs t) } (fun c => putK c k (prodS (rdD c rs) (rdD c t)))

/-- MACWU: Kd plus the unsigned product; C the carry (08 R242). -/
def execMacwu (i : Issue) (k rs t : Reg) (s : State) : Host.Outcome State Fault Refusal :=
  runReg s i { len := 2, sv := false, bad := !wellFormed (.macwu i k rs t) } (fun c => macOp c k (prodU (rdD c rs) (rdD c t)))

/-- MACWS: Kd plus the signed product; C the carry (08 R242). -/
def execMacws (i : Issue) (k rs t : Reg) (s : State) : Host.Outcome State Fault Refusal :=
  runReg s i { len := 2, sv := false, bad := !wellFormed (.macws i k rs t) } (fun c => macOp c k (prodS (rdD c rs) (rdD c t)))

/-- KADD (08 R243). -/
def execKadd (i : Issue) (k rs : Reg) (s : State) : Host.Outcome State Fault Refusal :=
  runReg s i { len := 2, sv := false, bad := !wellFormed (.kadd i k rs) } (fun c => kaddOp c k (rdK c k) (rdK c rs) false)

/-- KADDC (08 R243). -/
def execKaddc (i : Issue) (k rs : Reg) (s : State) : Host.Outcome State Fault Refusal :=
  runReg s i { len := 2, sv := false, bad := !wellFormed (.kaddc i k rs) } (fun c => kaddOp c k (rdK c k) (rdK c rs) c.psw.c)

/-- KSUB (08 R243). -/
def execKsub (i : Issue) (k rs : Reg) (s : State) : Host.Outcome State Fault Refusal :=
  runReg s i { len := 2, sv := false, bad := !wellFormed (.ksub i k rs) } (fun c => ksubOp c k (rdK c k) (rdK c rs) false)

/-- KSUBB (08 R243). -/
def execKsubb (i : Issue) (k rs : Reg) (s : State) : Host.Outcome State Fault Refusal :=
  runReg s i { len := 2, sv := false, bad := !wellFormed (.ksubb i k rs) } (fun c => ksubOp c k (rdK c k) (rdK c rs) (!c.psw.c))

/-- KMOV (08 R243). -/
def execKmov (i : Issue) (k rs : Reg) (s : State) : Host.Outcome State Fault Refusal :=
  runReg s i { len := 2, sv := false, bad := !wellFormed (.kmov i k rs) } (fun c => putK c k (rdK c rs))

/-- MFKL: the low half (08 R243). -/
def execMfkl (i : Issue) (d k : Reg) (s : State) : Host.Outcome State Fault Refusal :=
  runReg s i { len := 2, sv := false, bad := !wellFormed (.mfkl i d k) } (fun c => putD c d ((rdK c k).setWidth 64))

/-- MFKH: the high half (08 R243). -/
def execMfkh (i : Issue) (d k : Reg) (s : State) : Host.Outcome State Fault Refusal :=
  runReg s i { len := 2, sv := false, bad := !wellFormed (.mfkh i d k) } (fun c => putD c d ((rdK c k >>> 64).setWidth 64))

/-- MTKL: the low half written, the other kept (08 R243). -/
def execMtkl (i : Issue) (k rs : Reg) (s : State) : Host.Outcome State Fault Refusal :=
  runReg s i { len := 2, sv := false, bad := !wellFormed (.mtkl i k rs) } (fun c => putK c k (withBits (rdK c k) 0 64 (rdD c rs).toNat))

/-- MTKH: the high half written, the other kept (08 R243). -/
def execMtkh (i : Issue) (k rs : Reg) (s : State) : Host.Outcome State Fault Refusal :=
  runReg s i { len := 2, sv := false, bad := !wellFormed (.mtkh i k rs) } (fun c => putK c k (withBits (rdK c k) 64 64 (rdD c rs).toNat))

/-- KCMP: flags as KSUB (08 R243). -/
def execKcmp (i : Issue) (k rs : Reg) (s : State) : Host.Outcome State Fault Refusal :=
  runReg s i { len := 2, sv := false, bad := !wellFormed (.kcmp i k rs) } (fun c => let r := subFull (rdK c k) (rdK c rs) false; withFlags (c, []) (fun p => setNzcv p r.1 r.2.1 r.2.2))

end Sys2Proof.Machine
end

