-- ==== Sys2Proof/Machine/Alu.lean ====
section
/-! DEFINITION. Integer, address, immediate and register-branch instructions (07 R228, 08 R239 to R241). -/
namespace Sys2Proof.Machine

/-- One syllable, every profile. -/
def encAll1 : Enc := { len := 1 }
/-- Two syllables, every profile. -/
def encAll2 : Enc := { len := 2 }
/-- The encoding of a form of ADD and its kin. -/
def encAlu (o : Alu3) : Enc := { len := aluLen o }

/-- A sum written to Dd with NZCV (08 R239). -/
def addOp (c : Core) (d : Reg) (x y : Word) (cin : Bool) : Core × List (BitVec 8 × Quad) :=
  let r := addFull x y cin
  withFlags (putD c d r.1) (fun p => setNzcv p r.1 r.2.1 r.2.2)

/-- A difference written to Dd with NZCV (08 R239). -/
def subOp (c : Core) (d : Reg) (x y : Word) (bin : Bool) : Core × List (BitVec 8 × Quad) :=
  let r := subFull x y bin
  withFlags (putD c d r.1) (fun p => setNzcv p r.1 r.2.1 r.2.2)

/-- A comparison: the flags of a difference, nothing written (08 R240). -/
def cmpOp (c : Core) (x y : Word) : Core × List (BitVec 8 × Quad) :=
  let r := subFull x y false
  withFlags (c, []) (fun p => setNzcv p r.1 r.2.1 r.2.2)

/-- A result written to Dd with N and Z set, V cleared (07 R228). -/
def nzOp (c : Core) (d : Reg) (v : Word) : Core × List (BitVec 8 × Quad) := withFlags (putD c d v) (fun p => setNz p v)

/-- Leading zeros of the low `n` bits. -/
def leadingZeros : Nat → Nat → Nat
  | 0, _ => 0
  | n + 1, v => if v / 2 ^ n % 2 = 1 then 0 else 1 + leadingZeros n v

/-- SHL, SHR, SAR, ROL, ROR by number (07 R228 SHIFTI, 08 R240). -/
def shiftBy (op : Nat) (v : Word) (n : Nat) : Word :=
  match op with
  | 0 => v <<< n
  | 1 => v >>> n
  | 2 => v.sshiftRight n
  | 3 => v.rotateLeft n
  | _ => v.rotateRight n

/-- DIV: quotient toward zero; the edge cases of 08 R241. -/
def divS (x y : Word) : Word := if y = 0 then BitVec.allOnes 64 else BitVec.ofInt 64 (x.toInt.tdiv y.toInt)
/-- REM: the sign of the dividend. -/
def remS (x y : Word) : Word := if y = 0 then x else BitVec.ofInt 64 (x.toInt.tmod y.toInt)
/-- DIVU. -/
def divU (x y : Word) : Word := if y = 0 then BitVec.allOnes 64 else x / y
/-- REMU. -/
def remU (x y : Word) : Word := if y = 0 then x else x % y

/-- The low byte, half or word of a value, extended (07 R228 SEXT, ZEXT). -/
def extendLow (sgn : Bool) (v : Word) (size : Nat) : Word :=
  match size, sgn with
  | 0, true => (v.setWidth 8).signExtend 64
  | 0, false => (v.setWidth 8).setWidth 64
  | 1, true => (v.setWidth 16).signExtend 64
  | 1, false => (v.setWidth 16).setWidth 64
  | _, true => (v.setWidth 32).signExtend 64
  | _, false => (v.setWidth 32).setWidth 64

/-- NEG Dd: 0 - Dd (08 R240). -/
def execNeg (i : Issue) (d : Reg) (s : State) : Host.Outcome State Fault Refusal :=
  runReg s i encAll1 (fun c => subOp c d 0 (rdD c d) false)

/-- NOT Dd (07 R228, 08 R239). -/
def execNot (i : Issue) (d : Reg) (s : State) : Host.Outcome State Fault Refusal :=
  runReg s i encAll1 (fun c => nzOp c d (~~~(rdD c d)))

/-- CLZ Dd (08 R240). -/
def execClz (i : Issue) (d : Reg) (s : State) : Host.Outcome State Fault Refusal :=
  runReg s i encAll1 (fun c => putD c d (BitVec.ofNat 64 (leadingZeros 64 (rdD c d).toNat)))

/-- POPC Dd (08 R240). -/
def execPopc (i : Issue) (d : Reg) (s : State) : Host.Outcome State Fault Refusal :=
  runReg s i encAll1 (fun c => putD c d (BitVec.ofNat 64 (popCount (rdD c d))))

/-- BSWAP Dd (08 R240). -/
def execBswap (i : Issue) (d : Reg) (s : State) : Host.Outcome State Fault Refusal :=
  runReg s i encAll1 (fun c => putD c d (BitVec.ofNat 64 (beNat (leBytes 8 (rdD c d).toNat))))

/-- NOP (07 R228). -/
def execNop (i : Issue) (s : State) : Host.Outcome State Fault Refusal :=
  runReg s i encAll1 (fun c => (c, []))

/-- MOV Dd, Ds (07 R228). -/
def execMov (i : Issue) (d rs : Reg) (s : State) : Host.Outcome State Fault Refusal :=
  runReg s i encAll1 (fun c => putD c d (rdD c rs))

/-- ADD, both forms (07 R228, 08 R239, R240). -/
def execAdd (i : Issue) (o : Alu3) (s : State) : Host.Outcome State Fault Refusal :=
  runReg s i (encAlu o) (fun c => let r := aluRegs o; addOp c r.1 (rdD c r.2.1) (rdD c r.2.2) false)

/-- SUB, both forms (07 R228, 08 R239, R240). -/
def execSub (i : Issue) (o : Alu3) (s : State) : Host.Outcome State Fault Refusal :=
  runReg s i (encAlu o) (fun c => let r := aluRegs o; subOp c r.1 (rdD c r.2.1) (rdD c r.2.2) false)

/-- AND, both forms (07 R228, 08 R239, R240). -/
def execAnd (i : Issue) (o : Alu3) (s : State) : Host.Outcome State Fault Refusal :=
  runReg s i (encAlu o) (fun c => let r := aluRegs o; nzOp c r.1 (rdD c r.2.1 &&& rdD c r.2.2))

/-- OR, both forms (07 R228, 08 R239, R240). -/
def execOr (i : Issue) (o : Alu3) (s : State) : Host.Outcome State Fault Refusal :=
  runReg s i (encAlu o) (fun c => let r := aluRegs o; nzOp c r.1 (rdD c r.2.1 ||| rdD c r.2.2))

/-- XOR, both forms (07 R228, 08 R239, R240). -/
def execXor (i : Issue) (o : Alu3) (s : State) : Host.Outcome State Fault Refusal :=
  runReg s i (encAlu o) (fun c => let r := aluRegs o; nzOp c r.1 (rdD c r.2.1 ^^^ rdD c r.2.2))

/-- CMP Dd, Ds: flags as SUB (08 R240). -/
def execCmp (i : Issue) (d rs : Reg) (s : State) : Host.Outcome State Fault Refusal :=
  runReg s i encAll1 (fun c => cmpOp c (rdD c d) (rdD c rs))

/-- AMOV Ad, As (07 R216, R228). -/
def execAmov (i : Issue) (d rs : Reg) (s : State) : Host.Outcome State Fault Refusal :=
  runReg s i encAll1 (fun c => putA c d (rdA c rs))

/-- AMOVD Ad, Ds (07 R216, R228). -/
def execAmovd (i : Issue) (d rs : Reg) (s : State) : Host.Outcome State Fault Refusal :=
  runReg s i encAll1 (fun c => putA c d (rdD c rs))

/-- DMOVA Dd, As (07 R216, R228). -/
def execDmova (i : Issue) (d rs : Reg) (s : State) : Host.Outcome State Fault Refusal :=
  runReg s i encAll1 (fun c => putD c d (rdA c rs))

/-- AADD: Ad := Ad + Ds, or Ad := As + Dt (07 R216, R228). -/
def execAadd (i : Issue) (o : Alu3) (s : State) : Host.Outcome State Fault Refusal :=
  runReg s i (encAlu o) (fun c => let r := aluRegs o; putA c r.1 (rdA c r.2.1 + rdD c r.2.2))

/-- ACMP Ad, As: flags as SUB (08 R240). -/
def execAcmp (i : Issue) (d rs : Reg) (s : State) : Host.Outcome State Fault Refusal :=
  runReg s i encAll1 (fun c => cmpOp c (rdA c d) (rdA c rs))

/-- ADDQ Dd, #q (08 R240). -/
def execAddq (i : Issue) (d : Reg) (q : BitVec 4) (s : State) : Host.Outcome State Fault Refusal :=
  runReg s i encAll1 (fun c => addOp c d (rdD c d) (quick q) false)

/-- AADDQ Ad, #q (07 R228). -/
def execAaddq (i : Issue) (d : Reg) (q : BitVec 4) (s : State) : Host.Outcome State Fault Refusal :=
  runReg s i encAll1 (fun c => putA c d (rdA c d + quick q))

/-- ADDC: Ds + Dt + C (08 R240). -/
def execAddc (i : Issue) (d rs t : Reg) (s : State) : Host.Outcome State Fault Refusal :=
  runReg s i encAll2 (fun c => addOp c d (rdD c rs) (rdD c t) c.psw.c)

/-- SUBB: Ds - Dt - (1 - C) (08 R240). -/
def execSubb (i : Issue) (d rs t : Reg) (s : State) : Host.Outcome State Fault Refusal :=
  runReg s i encAll2 (fun c => subOp c d (rdD c rs) (rdD c t) (!c.psw.c))

/-- ANDN: Ds AND NOT Dt (08 R240). -/
def execAndn (i : Issue) (d rs t : Reg) (s : State) : Host.Outcome State Fault Refusal :=
  runReg s i encAll2 (fun c => nzOp c d (rdD c rs &&& ~~~(rdD c t)))

/-- SHL Dd, Ds, Dt: count Dt[5:0] (08 R240). -/
def execShl (i : Issue) (d rs t : Reg) (s : State) : Host.Outcome State Fault Refusal :=
  runReg s i encAll2 (fun c => nzOp c d (shiftBy 0 (rdD c rs) (bitsOf (rdD c t) 0 6)))

/-- SHR Dd, Ds, Dt: count Dt[5:0] (08 R240). -/
def execShr (i : Issue) (d rs t : Reg) (s : State) : Host.Outcome State Fault Refusal :=
  runReg s i encAll2 (fun c => nzOp c d (shiftBy 1 (rdD c rs) (bitsOf (rdD c t) 0 6)))

/-- SAR Dd, Ds, Dt: count Dt[5:0] (08 R240). -/
def execSar (i : Issue) (d rs t : Reg) (s : State) : Host.Outcome State Fault Refusal :=
  runReg s i encAll2 (fun c => nzOp c d (shiftBy 2 (rdD c rs) (bitsOf (rdD c t) 0 6)))

/-- ROL Dd, Ds, Dt: count Dt[5:0] (08 R240). -/
def execRol (i : Issue) (d rs t : Reg) (s : State) : Host.Outcome State Fault Refusal :=
  runReg s i encAll2 (fun c => nzOp c d (shiftBy 3 (rdD c rs) (bitsOf (rdD c t) 0 6)))

/-- ROR Dd, Ds, Dt: count Dt[5:0] (08 R240). -/
def execRor (i : Issue) (d rs t : Reg) (s : State) : Host.Outcome State Fault Refusal :=
  runReg s i encAll2 (fun c => nzOp c d (shiftBy 4 (rdD c rs) (bitsOf (rdD c t) 0 6)))

/-- MUL: bits [63:0] of the product; V cleared, C unchanged (08 R240). -/
def execMul (i : Issue) (d rs t : Reg) (s : State) : Host.Outcome State Fault Refusal :=
  runReg s i encAll2 (fun c => nzOp c d (rdD c rs * rdD c t))

/-- DIV (08 R241); PSW unchanged. -/
def execDiv (i : Issue) (d rs t : Reg) (s : State) : Host.Outcome State Fault Refusal :=
  runReg s i encAll2 (fun c => putD c d (divS (rdD c rs) (rdD c t)))

/-- DIVU (08 R241); PSW unchanged. -/
def execDivu (i : Issue) (d rs t : Reg) (s : State) : Host.Outcome State Fault Refusal :=
  runReg s i encAll2 (fun c => putD c d (divU (rdD c rs) (rdD c t)))

/-- REM (08 R241); PSW unchanged. -/
def execRem (i : Issue) (d rs t : Reg) (s : State) : Host.Outcome State Fault Refusal :=
  runReg s i encAll2 (fun c => putD c d (remS (rdD c rs) (rdD c t)))

/-- REMU (08 R241); PSW unchanged. -/
def execRemu (i : Issue) (d rs t : Reg) (s : State) : Host.Outcome State Fault Refusal :=
  runReg s i encAll2 (fun c => putD c d (remU (rdD c rs) (rdD c t)))

/-- SEXT Dd, Ds, size in t (07 R228). -/
def execSext (i : Issue) (d rs t : Reg) (s : State) : Host.Outcome State Fault Refusal :=
  runReg s i { encAll2 with bad := !wellFormed (.sext i d rs t) }
    (fun c => putD c d (extendLow true (rdD c rs) t.toNat))

/-- ZEXT Dd, Ds, size in t (07 R228). -/
def execZext (i : Issue) (d rs t : Reg) (s : State) : Host.Outcome State Fault Refusal :=
  runReg s i { encAll2 with bad := !wellFormed (.zext i d rs t) }
    (fun c => putD c d (extendLow false (rdD c rs) t.toNat))

/-- CSEL.cc: Dd := cc ? Ds : Dt (07 R226, R228). -/
def execCsel (i : Issue) (cond : BitVec 4) (d rs t : Reg) (s : State) : Host.Outcome State Fault Refusal :=
  runReg s i { encAll2 with bad := !wellFormed (.csel i cond d rs t) }
    (fun c => putD c d (if condHolds c.psw cond then rdD c rs else rdD c t))

/-- ASUB Ad, As, Dt (07 R216, R228). -/
def execAsub (i : Issue) (d rs t : Reg) (s : State) : Host.Outcome State Fault Refusal :=
  runReg s i encAll2 (fun c => putA c d (rdA c rs - rdD c t))

/-- ADIFF: Dd := As - At, flags as SUB (08 R240). -/
def execAdiff (i : Issue) (d rs t : Reg) (s : State) : Host.Outcome State Fault Refusal :=
  runReg s i encAll2 (fun c => subOp c d (rdA c rs) (rdA c t) false)

/-- ADDI (08 R240). -/
def execAddi (i : Issue) (d rs : Reg) (imm : BitVec 12) (s : State) : Host.Outcome State Fault Refusal :=
  runReg s i encAll2 (fun c => addOp c d (rdD c rs) (imm12s imm) false)

/-- ANDI, immediate zero-extended (07 R228). -/
def execAndi (i : Issue) (d rs : Reg) (imm : BitVec 12) (s : State) : Host.Outcome State Fault Refusal :=
  runReg s i encAll2 (fun c => nzOp c d (rdD c rs &&& imm12z imm))

/-- ORI, immediate zero-extended (07 R228). -/
def execOri (i : Issue) (d rs : Reg) (imm : BitVec 12) (s : State) : Host.Outcome State Fault Refusal :=
  runReg s i encAll2 (fun c => nzOp c d (rdD c rs ||| imm12z imm))

/-- XORI, immediate zero-extended (07 R228). -/
def execXori (i : Issue) (d rs : Reg) (imm : BitVec 12) (s : State) : Host.Outcome State Fault Refusal :=
  runReg s i encAll2 (fun c => nzOp c d (rdD c rs ^^^ imm12z imm))

/-- CMPI: flags as SUB (08 R240). -/
def execCmpi (i : Issue) (rs : Reg) (imm : BitVec 12) (s : State) : Host.Outcome State Fault Refusal :=
  runReg s i encAll2 (fun c => cmpOp c (rdD c rs) (imm12s imm))

/-- SHIFTI: IMM12[5:0] count, [8:6] the operation (07 R228). -/
def execShifti (i : Issue) (d rs : Reg) (imm : BitVec 12) (s : State) : Host.Outcome State Fault Refusal :=
  runReg s i { encAll2 with bad := !wellFormed (.shifti i d rs imm) }
    (fun c => nzOp c d (shiftBy (bitsOf imm 6 3) (rdD c rs) (bitsOf imm 0 6)))

/-- AADDI Ad, As, #imm12 (07 R228). -/
def execAaddi (i : Issue) (d rs : Reg) (imm : BitVec 12) (s : State) : Host.Outcome State Fault Refusal :=
  runReg s i encAll2 (fun c => putA c d (rdA c rs + imm12s imm))

/-- MOVI Dd, #imm30 (07 R228). -/
def execMovi (i : Issue) (d : Reg) (imm : BitVec 30) (s : State) : Host.Outcome State Fault Refusal :=
  runReg s i { encAll2 with len := 3 } (fun c => putD c d (imm.signExtend 64))

/-- AREF Ar, EA: Ar := EA (07 R228). -/
def execAref (i : Issue) (r : Reg) (ea : Ea) (s : State) : Host.Outcome State Fault Refusal :=
  runReg s i { encAll2 with len := 3, bad := !wellFormed (.aref i r ea) } (fun c => putA c r (effAddr c ea))

/-- LDI Dd, #imm44 (07 R228). -/
def execLdi (i : Issue) (d : Reg) (imm : BitVec 44) (s : State) : Host.Outcome State Fault Refusal :=
  runReg s i { encAll2 with len := 4 } (fun c => putD c d (imm.signExtend 64))

/-- LDIH: Dd[63:44] := imm20, Dd[43:0] kept (07 R228). -/
def execLdih (i : Issue) (d : Reg) (imm : BitVec 44) (s : State) : Host.Outcome State Fault Refusal :=
  runReg s i { encAll2 with len := 4, bad := !wellFormed (.ldih i d imm) }
    (fun c => putD c d (withBits (rdD c d) 44 20 imm.toNat))

/-- ALDI Ad, #imm44 (07 R228). -/
def execAldi (i : Issue) (d : Reg) (imm : BitVec 44) (s : State) : Host.Outcome State Fault Refusal :=
  runReg s i { encAll2 with len := 4 } (fun c => putA c d (imm.signExtend 64))

/-- B.cc disp30 (07 R224, R226). -/
def execB (i : Issue) (cond : BitVec 4) (disp : BitVec 30) (s : State) : Host.Outcome State Fault Refusal :=
  runReg s i { encAll2 with len := 3, bad := !wellFormed (.b i cond disp) }
    (fun c => (if condHolds c.psw cond then { c with pc := branchTo (c.pc - 3) disp } else c, []))

/-- JMPF target48 (07 R228). -/
def execJmpf (i : Issue) (target : CodeAddr) (s : State) : Host.Outcome State Fault Refusal :=
  runReg s i { encAll2 with len := 4 } (fun c => ({ c with pc := target }, []))

/-- JMPR Aa: the syllable address in Aa[47:0] (07 R212, R228). -/
def execJmpr (i : Issue) (a : Reg) (s : State) : Host.Outcome State Fault Refusal :=
  runReg s i encAll1 (fun c => ({ c with pc := (rdA c a).setWidth 48 }, []))

end Sys2Proof.Machine
end

