-- ==== Sys2Proof/Machine/DmaOps.lean ====
section
/-! DEFINITION. Accesses of engines to the DRAM of a parcel: traverse engines, the cipher and compression engines, under the
parcel's tag (15 R452, 11 R334, 09 R287). -/
namespace Sys2Proof.Machine

/-- How such an access ends: done; a poisoned line (11 R351); a failed tag check (15 R452); it waits at the home for a
transaction or a directory way (09 R287, R288), and nothing has happened yet. -/
inductive DmaRes | ok | poison | tag | wait
  deriving DecidableEq, Repr

/-- A line made readable, or writable, for an agent; `false` when the request waits at the home. -/
def dmaTouch (x : UnitState) (agent line : Nat) (write : Bool) : UnitState × Bool :=
  match txResolve x line write none none with
  | (x, .go) =>
    match takeWay line agent 56 x with
    | (x, true) => (if write then x else cohRead x agent line, !inService x line)
    | (x, false) => (x, false)
  | (x, _) => (x, false)

/-- A whole line that may be written at its home, where no entry is needed (11 R341 WRL). -/
def dmaWhole (x : UnitState) (line : Nat) : UnitState × Bool :=
  match txResolve x line true none none with
  | (x, .go) => (x, !inService x line)
  | (x, _) => (x, false)

/-- Bytes read from a parcel's DRAM, line by line; on a poisoned line or a failed check, the bytes before it. -/
def dmaReadN : Nat → UnitState → Nat → Nat → Nat → Nat → List Byte → UnitState × List Byte × DmaRes
  | 0, x, _, _, _, _, acc => (x, acc, .ok)
  | f + 1, x, agent, p, ppa, len, acc =>
    if len = 0 then (x, acc, .ok) else
    match dramAccess x p ppa with
    | none => (x, acc, .tag)
    | some mpa =>
      match dmaTouch x agent (mpa / 64) false with
      | (x, false) => (x, acc, .wait)
      | (x, true) =>
        if lineMark x (mpa / 64) ≠ 0 then (x, acc, .poison) else
        let n := min len (64 - mpa % 64)
        dmaReadN f x agent p (ppa + n) (len - n) (acc ++ tabGetList byteDef x.mem.data mpa n)

/-- Bytes read from a parcel's DRAM. -/
def dmaRead (x : UnitState) (agent p ppa len : Nat) : UnitState × List Byte × DmaRes :=
  dmaReadN (len / 64 + 2) x agent p ppa len []

/-- Bytes written to a parcel's DRAM, line by line: a whole line as WRL, a part as a store (11 R341). -/
def dmaWriteN : Nat → UnitState → Nat → Nat → Nat → List Byte → UnitState × DmaRes
  | 0, x, _, _, _, _ => (x, .ok)
  | f + 1, x, agent, p, ppa, bs =>
    if bs.isEmpty then (x, .ok) else
    match dramAccess x p ppa with
    | none => (x, .tag)
    | some mpa =>
      let n := 64 - mpa % 64
      let part := bs.take n
      match (if part.length = 64 then dmaWhole x (mpa / 64) else dmaTouch x agent (mpa / 64) true) with
      | (x, false) => (x, .wait)
      | (x, true) =>
        let x := if part.length = 64 then performWrl x agent (mpa / 64) part else performStore x agent mpa part none none
        dmaWriteN f x agent p (ppa + part.length) (bs.drop n)

/-- Bytes written to a parcel's DRAM. -/
def dmaWrite (x : UnitState) (agent p ppa : Nat) (bs : List Byte) : UnitState × DmaRes :=
  dmaWriteN (bs.length / 64 + 2) x agent p ppa bs

/-- The bytes of a list of words in memory order (07 R230). -/
def wordsBytes (ws : List Word) : List Byte := ws.flatMap (fun w => leBytes 8 w.toNat)

/-- The words of a list of bytes, `n` of them. -/
def bytesWords : Nat → List Byte → List Word
  | 0, _ => []
  | n + 1, bs => BitVec.ofNat 64 (leNat (bs.take 8)) :: bytesWords n (bs.drop 8)

end Sys2Proof.Machine
end

