-- ==== Sys2Proof/Machine/Compression.lean ====
section
/-! DEFINITION. The compression engines (14 R426 to R433). -/
namespace Sys2Proof.Machine

/-- A channel of an engine. -/
def cmpChan (x : UnitState) (e : Fin 2) (c : Nat) : CmpChan := tabGet (fun _ => ({} : CmpChan)) (x.cph.cmp.get e).chans c

/-- An engine changed. -/
def modCmp (x : UnitState) (e : Fin 2) (f : CmpEngine → CmpEngine) : UnitState :=
  { x with cph := { x.cph with cmp := x.cph.cmp.set e.val (f (x.cph.cmp.get e)) e.isLt } }

/-- A channel changed. -/
def modCmpChan (x : UnitState) (e : Fin 2) (c : Nat) (f : CmpChan → CmpChan) : UnitState :=
  modCmp x e (fun g => { g with chans := tabSet (fun _ => ({} : CmpChan)) g.chans c (f (cmpChan x e c)) })

/-- SIZE of CMP_RING: 4 to 16 give a ring (14 R433). -/
def cmpSize (c : CmpChan) : Nat := bitsOf c.ring 0 5

/-- A channel has a job waiting. -/
def cmpReady (x : UnitState) (e : Fin 2) (c : Nat) : Bool :=
  let g := cmpChan x e c
  g.owner.isSome && decide (g.prod ≠ g.cons) && decide (4 ≤ cmpSize g ∧ cmpSize g ≤ 16)

/-- The next channel in round robin after the last one served (14 R429). -/
def cmpNext (x : UnitState) (e : Fin 2) : Option Nat :=
  ((List.range 16).map (fun k => ((x.cph.cmp.get e).last + 1 + k) % 16)).find? (cmpReady x e)

/-- The address of the descriptor that a channel's CONS names. -/
def cmpDesc (g : CmpChan) : Nat := bitsOf g.ring 12 40 * 4096 + g.cons.toNat % 2 ^ cmpSize g * 64

/-- Two ranges share a byte. -/
def rangesMeet (a n b m : Nat) : Bool := decide (a < b + m) && decide (b < a + n) && decide (0 < n) && decide (0 < m)

/-- The bytes of the stream state in HIST (14 R430). -/
def histLen (wlog : Nat) : Nat := 2 ^ wlog + 65536

/-- A descriptor breaks a rule of 14 R430 (BAD_DESC). -/
def cmpBad (ws : List Word) : Bool :=
  let w := fun k => ws.getD k (0 : Word)
  let op := bitsOf (w 0) 0 2
  let fmt := bitsOf (w 0) 2 2
  let wlog := bitsOf (w 0) 7 5
  let src := bitsOf (w 1) 0 52
  let dst := bitsOf (w 3) 0 52
  let hist := bitsOf (w 5) 0 52
  decide (2 ≤ op) || bitsOf (w 0) 17 7 ≠ 0 || bitsOf (w 0) 48 16 ≠ 0 || bitsOf (w 1) 52 12 ≠ 0 || bitsOf (w 2) 32 32 ≠ 0
    || bitsOf (w 3) 52 12 ≠ 0 || bitsOf (w 4) 32 32 ≠ 0 || bitsOf (w 5) 52 12 ≠ 0 || bitsOf (w 5) 0 12 ≠ 0
    || (op == 0 && (decide (5 ≤ bitsOf (w 0) 4 3) || bitsOf (w 0) 13 2 == 3))
    || (if fmt = 3 then decide (wlog < 10 ∨ 23 < wlog) else wlog != 15)
    || rangesMeet hist (histLen wlog) src (bitsOf (w 2) 0 32) || rangesMeet hist (histLen wlog) dst (bitsOf (w 4) 0 32)

/-- A job's end: its words 6 and 7 (14 R430). -/
def cmpEnd (x : UnitState) (e : Fin 2) (c : Nat) (ws : List Word) (code : Nat) (ended : Bool) (outLen inLen check : Nat) : UnitState :=
  let w0 := ws.getD 0 (0 : Word)
  let x := modCmpChan x e c (fun g => { g with
    needFirst := if code = 0 ∨ code = 3 then (if bitOf w0 12 then false else g.needFirst) else true })
  let j : CmpJob :=
    { chan := c, descAddr := cmpDesc (cmpChan x e c)
      w6 := BitVec.ofNat 64 (1 + 2 ^ 8 * code + 2 ^ 16 * bit ended + 2 ^ 32 * outLen)
      w7 := BitVec.ofNat 64 (inLen + 2 ^ 32 * check), irq := bitOf w0 16, vec := BitVec.ofNat 8 (bitsOf w0 24 8) }
  modCmp x e (fun g => { g with job := some j })

/-- What the compressor and decompressor depend on besides data and history (14 R428): word 0 without IRQ, VEC and CTX, and
whether the stream needs a FIRST job. -/
def cmpFields (w0 : Word) (needFirst : Bool) : Nat := bitsOf w0 0 16 + 2 ^ 16 * bit needFirst

/-- The output of a job is never longer than this (14 R431). -/
def cmpBound (n : Nat) : Nat := n + 5 * ((n + 16383) / 16384) + 64

/-- CHECK of a job: 0 for raw DEFLATE (14 R430). -/
def cmpCheckOf (w0 : Word) (v : BitVec 32) : Nat := if bitsOf w0 2 2 = 0 then 0 else v.toNat

/-- What a compression job puts out (14 R428, R431): the output, the new stream state, CHECK. -/
def cmpOut (x : UnitState) (e : Fin 2) (c : Nat) (w0 : Word) (inp hist : List Byte) : List Byte × List Byte × Nat :=
  let r := Config.compress (cmpFields w0 (cmpChan x e c).needFirst) hist inp
  (r.1.take (cmpBound inp.length), r.2.1, cmpCheckOf w0 r.2.2)

/-- A compression job on its input and stream state: OVERFLOW writes nothing (14 R431). None while an access waits. -/
def cmpCompress (x : UnitState) (e : Fin 2) (c par : Nat) (ws : List Word) (inp hist : List Byte) : Option UnitState :=
  let w := fun k => ws.getD k (0 : Word)
  let r := cmpOut x e c (w 0) inp hist
  if bitsOf (w 4) 0 32 < r.1.length then some (cmpEnd x e c ws 3 false 0 0 r.2.2) else
  match dmaWrite x 73 par (bitsOf (w 3) 0 52) r.1 with
  | (_, .wait) => none
  | (x, .ok) =>
    match dmaWrite x 73 par (bitsOf (w 5) 0 52) (r.2.1.take (histLen (bitsOf (w 0) 7 5))) with
    | (_, .wait) => none
    | (x, .ok) => some (cmpEnd x e c ws 0 false r.1.length inp.length r.2.2)
    | (x, _) => some (cmpEnd x e c ws 0x0B false r.1.length inp.length r.2.2)
  | (x, _) => some (cmpEnd x e c ws 0x0B false 0 0 0)

/-- A decompression job on its input and stream state (14 R431). None while an access waits. -/
def cmpDecompress (x : UnitState) (e : Fin 2) (c par : Nat) (ws : List Word) (inp hist : List Byte) : Option UnitState :=
  let w := fun k => ws.getD k (0 : Word)
  let r := Config.decompress (cmpFields (w 0) (cmpChan x e c).needFirst) (bitsOf (w 4) 0 32) hist inp
  let o := r.1.take (bitsOf (w 4) 0 32)
  let code := r.2.2.2.1.toNat
  match dmaWrite x 73 par (bitsOf (w 3) 0 52) o with
  | (_, .wait) => none
  | (x, .ok) =>
    match dmaWrite x 73 par (bitsOf (w 5) 0 52) (r.2.2.2.2.1.take (histLen (bitsOf (w 0) 7 5))) with
    | (_, .wait) => none
    | (x, .ok) => some (cmpEnd x e c ws code r.2.2.1 o.length (min r.2.1 inp.length) (cmpCheckOf (w 0) r.2.2.2.2.2))
    | (x, _) => some (cmpEnd x e c ws 0x0B false o.length (min r.2.1 inp.length) (cmpCheckOf (w 0) r.2.2.2.2.2))
  | (x, _) => some (cmpEnd x e c ws 0x0B false 0 0 0)

/-- The job of a channel's next descriptor, where its OP is the row's or reserved (14 R430, R431). None while an access
waits, or where the OP is the other row's. -/
def cmpJob (x : UnitState) (e : Fin 2) (c : Nat) (op : Nat) : Option UnitState :=
  let g := cmpChan x e c
  match g.owner with
  | none => none
  | some (p, ctx) =>
    let par := p.toNat
    let start := fun (x : UnitState) => modCmpChan (modCmp x e (fun g => { g with last := c })) e c (fun g => { g with busy := true })
    match dmaRead x 73 par (cmpDesc g) 64 with
    | (_, _, .wait) => none
    | (x, _, .poison) => some (cmpEnd (start x) e c [] 0x0A false 0 0 0)
    | (x, _, .tag) => some (cmpEnd (start x) e c [] 0x0B false 0 0 0)
    | (x, bs, .ok) =>
      let ws := bytesWords 8 bs
      let w := fun k => ws.getD k (0 : Word)
      if bitsOf (w 0) 0 2 ≠ op ∧ bitsOf (w 0) 0 2 < 2 then none else
      let x := start x
      if bitsOf (w 0) 32 16 ≠ ctx.toNat then some (cmpEnd x e c ws 2 false 0 0 0)
      else if cmpBad ws then some (cmpEnd x e c ws 1 false 0 0 0)
      else
        match dmaRead x 73 par (bitsOf (w 1) 0 52) (bitsOf (w 2) 0 32) with
        | (_, _, .wait) => none
        | (x, _, .poison) => some (cmpEnd x e c ws 0x0A false 0 0 0)
        | (x, _, .tag) => some (cmpEnd x e c ws 0x0B false 0 0 0)
        | (x, inp, .ok) =>
          match (if bitOf (w 0) 12 then (x, ([] : List Byte), DmaRes.ok) else dmaRead x 73 par (bitsOf (w 5) 0 52) (histLen (bitsOf (w 0) 7 5))) with
          | (_, _, .wait) => none
          | (x, _, .poison) => some (cmpEnd x e c ws 0x0A false 0 0 0)
          | (x, _, .tag) => some (cmpEnd x e c ws 0x0B false 0 0 0)
          | (x, hist, .ok) => if op = 0 then cmpCompress x e c par ws inp hist else cmpDecompress x e c par ws inp hist

/-- The idle engine takes its next job when that job's OP is the row's. -/
def cmpRun (s : State) (u : UnitId) (e : Fin 2) (op : Nat) : State :=
  let x := getUnit s u
  if ((x.cph.cmp.get e).job).isSome then s else
  match cmpNext x e with
  | none => s
  | some c =>
    match cmpJob x e c op with
    | none => s
    | some x => setUnit s u x

/-- COMPRESS (14 R431). -/
def execCompress (u : UnitId) (e : Fin 2) (s : State) : Host.Outcome State Fault Refusal := .next (cmpRun s u e 0)

/-- DECOMPRESS (14 R431). -/
def execDecompress (u : UnitId) (e : Fin 2) (s : State) : Host.Outcome State Fault Refusal := .next (cmpRun s u e 1)

/-- JOB_COMPLETE (14 R430): word 7, then word 6, then CMP_CONS, then the vector. -/
def execJobComplete (u : UnitId) (e : Fin 2) (s : State) : Host.Outcome State Fault Refusal :=
  let x := getUnit s u
  match (x.cph.cmp.get e).job with
  | none => .next s
  | some j =>
    let par := match (cmpChan x e j.chan).owner with | none => 64 | some (p, _) => p.toNat
    match dmaWrite x 73 par (j.descAddr + 48) (wordsBytes [j.w6, j.w7]) with
    | (_, .wait) => .next s
    | (x, _) =>
      let x := modCmpChan x e j.chan (fun g => { g with cons := g.cons + 1, busy := false })
      let s := setUnit s u (modCmp x e (fun g => { g with job := none }))
      .next (if j.irq then raiseVector s u par j.vec.toNat else s)

/-- CMP_RING_WRITE (14 R433): ignored while jobs are outstanding; reserved bits must be zero (00 R15). -/
def execCmpRingWrite (u : UnitId) (e : Fin 2) (c : Fin 16) (w : Word) (s : State) : Host.Outcome State Fault Refusal :=
  if bitsOf w 5 7 ≠ 0 ∨ bitsOf w 52 12 ≠ 0 then .fault .reservedWrite else
  .next (modUnit s u (fun x => modCmpChan x e c (fun g => if g.prod = g.cons then { g with ring := w } else g)))

end Sys2Proof.Machine
end

