-- ==== Sys2Proof/Machine/FbOps.lean ====
section
/-! DEFINITION. The fieldbook stack: words, writes in flight, books, records, marks (05 R148 to R154, R546, 13 R399 to
R401). -/
namespace Sys2Proof.Machine

/-- A fieldbook byte as reads see it. -/
def fbBytes (x : UnitState) (off n : Nat) : List Byte := tabGetList byteDef x.fb.view off n

/-- A 64-bit word of the fieldbook, little-endian (05 R546). -/
def fbWord (x : UnitState) (off : Nat) : Word := BitVec.ofNat 64 (leNat (fbBytes x off 8))

/-- `n` words of the fieldbook. -/
def fbWords (x : UnitState) (off n : Nat) : List Word := (List.range n).map (fun k => fbWord x (off + 8 * k))

/-- The XOR of the 64-bit words of a write (05 R139). -/
def xorWords (bs : List Byte) : Word := (bytesWords (bs.length / 8) bs).foldl (fun a w => a ^^^ w) 0

/-- The pages set in both fieldbook dirty maps (04 R118). -/
def fbDirty (x : UnitState) (off : Nat) : UnitState :=
  let put := fun (m : DirtyMap) => { m with pages := tabSet (fun _ => false) m.pages (off / 4096) true }
  { x with mem := { x.mem with fbMapA := put x.mem.fbMapA, fbMapB := put x.mem.fbMapB } }

/-- A write accepted by the stack, or waiting while 512 are in flight (13 R400): it completes 1,024 fabric (2,048 core) cycles after
issue. -/
def fbAccept (x : UnitState) (w : FbWrite) : UnitState :=
  if x.fb.flight.length < 512 then { x with fb := { x.fb with flight := x.fb.flight ++ [{ w with due := x.ucc + 2048 }] } }
  else { x with fb := { x.fb with waiting := x.fb.waiting ++ [w] } }

/-- A fieldbook write of an engine or core: reads see it, the dirty maps have it, and the stack takes it. -/
def fbPut (x : UnitState) (off : Nat) (bs : List Byte) (poison : Bool) (k : FbCont) : UnitState :=
  let x := { x with fb := { x.fb with view := tabSetList byteDef x.fb.view off bs } }
  fbAccept (fbDirty x off) { off := off, bytes := bs, poison := poison, due := 0, cont := k }

/-- A write by a traverse engine: it folds into its cluster's signature with code 0xFF (05 R139). -/
def fbEngPut (x : UnitState) (eng off : Nat) (bs : List Byte) (k : FbCont) : UnitState :=
  let item : Quad := BitVec.ofNat 128 (off % 2 ^ 33 + (xorWords bs).toNat * 2 ^ 64)
  fbPut (foldEngineWrites x eng [(0xFF, item)]) off bs false k

/-- An entry of a stack's log, FBM_ERRLOG (13 R403): 8 entries, the oldest kept. -/
def fbLog (x : UnitState) (kind off : Nat) : UnitState :=
  if 8 ≤ x.fb.log.length then x else
  { x with fb := { x.fb with log := x.fb.log ++ [BitVec.ofNat 64 (1 + 2 * kind + off / 32 * 32)] } }

/-- A count of a stack up by one, saturating. -/
def satUp (c : BitVec 16) (b : Bool) : BitVec 16 := if b && c ≠ 0xFFFF then c + 1 else c

/-- The oldest write ends after `fails` failed attempts (13 R400): its words become durable, or its first word fails. The
answer: the write, and whether it raised FB_WFAIL. -/
def fbFinish (x : UnitState) (w : FbWrite) (fails : Nat) : UnitState × Bool :=
  let noSpare := decide (2 ≤ fails) && decide (x.fb.sparesUsed = 16384)
  let bad := decide (4 ≤ fails) || noSpare
  let x := if 2 ≤ fails ∧ !noSpare then
      fbLog { x with fb := { x.fb with sparesUsed := x.fb.sparesUsed + 1 } } 3 w.off else x
  let mem := tabSetList byteDef x.fb.mem w.off w.bytes
  let words := (List.range (w.bytes.length / 32)).map (fun k => w.off / 32 + k)
  let x := { x with fb := { x.fb with
    mem := mem, wretry := satUp x.fb.wretry (decide (1 ≤ fails)), wfail := satUp x.fb.wfail bad
    bad := tabSet (fun _ => false) x.fb.bad (w.off / 32) bad
    poison := words.foldl (fun t k => tabSet (fun _ => false) t k w.poison) x.fb.poison } }
  (if bad then fbLog x 2 w.off else x, bad)

/-- A word of the fieldbook reads with an uncorrectable error or poisoned (13 R401). -/
def fbUnreadable (x : UnitState) (off n : Nat) : Bool :=
  (List.range ((off + n + 31) / 32 - off / 32)).any (fun k =>
    tabGet (fun _ => false) x.fb.bad (off / 32 + k) || tabGet (fun _ => false) x.fb.poison (off / 32 + k))

/-- Word `i` of a book's entry (05 R150). -/
def bookWord (x : UnitState) (b i : Nat) : Word := fbWord x (0x1000 + 64 * b + 8 * i)

/-- KIND of a book. -/
def bookKind (x : UnitState) (b : Nat) : Nat := bitsOf (bookWord x b 0) 0 2
/-- PARCEL. -/
def bookParcel (x : UnitState) (b : Nat) : Nat := bitsOf (bookWord x b 0) 2 6
/-- MIRRORED. -/
def bookMirrored (x : UnitState) (b : Nat) : Bool := bitOf (bookWord x b 0) 8 && bookKind x b == 1
/-- MLOSS: 1 is DEGRADE. -/
def bookDegrade (x : UnitState) (b : Nat) : Bool := bitOf (bookWord x b 0) 9
/-- PARTNER. -/
def bookPartner (x : UnitState) (b : Nat) : Nat := bitsOf (bookWord x b 0) 16 16
/-- MSTN. -/
def bookMstn (x : UnitState) (b : Nat) : Nat := bitsOf (bookWord x b 0) 32 20
/-- OBOOK. -/
def bookObook (x : UnitState) (b : Nat) : Nat := bitsOf (bookWord x b 0) 52 8
/-- BASE. -/
def bookBase (x : UnitState) (b : Nat) : Nat := bitsOf (bookWord x b 1) 0 33
/-- The bytes of a book's ring. -/
def bookSize (x : UnitState) (b : Nat) : Nat := bitsOf (bookWord x b 1) 40 24 * 4096
/-- HEAD. -/
def bookHead (x : UnitState) (b : Nat) : Nat := bitsOf (bookWord x b 2) 0 33
/-- TAIL. -/
def bookTail (x : UnitState) (b : Nat) : Nat := bitsOf (bookWord x b 3) 0 33
/-- HEAD_BSN. -/
def headBsn (x : UnitState) (b : Nat) : Nat := (bookWord x b 4).toNat
/-- TAIL_BSN. -/
def tailBsn (x : UnitState) (b : Nat) : Nat := (bookWord x b 5).toNat
/-- MCONF_BSN. -/
def mconfBsn (x : UnitState) (b : Nat) : Nat := (bookWord x b 6).toNat
/-- MSEQ. -/
def bookMseq (x : UnitState) (b : Nat) : Nat := bitsOf (bookWord x b 7) 0 48

/-- A book's entry rewritten with some words changed, as one 64-byte write (log 42). -/
def bookPut (x : UnitState) (eng b : Nat) (f : Nat → Word → Word) : UnitState :=
  let ws := (List.range 8).map (fun i => f i (bookWord x b i))
  fbEngPut x eng (0x1000 + 64 * b) (wordsBytes ws) .nothing

/-- Word `i` of a record. -/
def recWord (x : UnitState) (off i : Nat) : Word := fbWord x (off + 8 * i)
/-- KIND of a record (05 R152). -/
def recKind (x : UnitState) (off : Nat) : Nat := bitsOf (recWord x off 1) 0 4
/-- STATION. -/
def recStation (x : UnitState) (off : Nat) : Nat := bitsOf (recWord x off 1) 8 20
/-- LEN. -/
def recLen (x : UnitState) (off : Nat) : Nat := bitsOf (recWord x off 1) 32 16
/-- SEQ. -/
def recSeq (x : UnitState) (off : Nat) : Nat := (recWord x off 2).toNat
/-- STATE. -/
def recState (x : UnitState) (off : Nat) : Nat := bitsOf (recWord x off 6) 0 4
/-- LINK; none for all ones. -/
def recLink (x : UnitState) (off : Nat) : Option Nat :=
  if recWord x off 7 = BitVec.allOnes 64 then none else some (recWord x off 7).toNat
/-- The payload of a record. -/
def recPayload (x : UnitState) (off : Nat) : List Byte := fbBytes x (off + 64) (recLen x off)
/-- The bytes that a record takes. -/
def recSize (len : Nat) : Nat := 64 + alignUp len 64

/-- CHECK over words 0 to 4 and the payload (05 R152, R546). -/
def recCheck (ws : List Word) (payload : List Byte) : Word := crc64 (wordsBytes (ws.take 5) ++ payload)

/-- A record's CHECK is correct. -/
def recOk (x : UnitState) (off : Nat) : Bool := recWord x off 5 == recCheck (fbWords x off 5) (recPayload x off)

/-- The bytes in use in a book's ring. -/
def bookUsed (x : UnitState) (b : Nat) : Nat :=
  if headBsn x b = tailBsn x b then 0 else
  let d := (bookHead x b + bookSize x b - bookTail x b) % bookSize x b
  if d = 0 then bookSize x b else d

/-- An offset of a ring moved on by `n` bytes. -/
def ringStep (x : UnitState) (b off n : Nat) : Nat := if off + n = bookBase x b + bookSize x b then bookBase x b else off + n

/-- The records from an offset on, `n` of them: BSN and offset. -/
def recWalk (x : UnitState) (b : Nat) : Nat → Nat → Nat → List (Nat × Nat)
  | 0, _, _ => []
  | n + 1, bsn, off => (bsn, off) :: recWalk x b n (bsn + 1) (ringStep x b off (recSize (recLen x off)))

/-- The live records of a book in BSN order: BSN and offset. -/
def liveRecs (x : UnitState) (b : Nat) : List (Nat × Nat) :=
  recWalk x b (headBsn x b - tailBsn x b) (tailBsn x b) (bookTail x b)

/-- The bytes of padding that a record of `need` bytes has ahead of it (05 R153). -/
def padLen (x : UnitState) (b need : Nat) : Nat :=
  let toEnd := bookBase x b + bookSize x b - bookHead x b
  if need ≤ toEnd then 0 else toEnd

/-- A book has room for a record. -/
def bookRoom (x : UnitState) (b len : Nat) : Bool :=
  let need := recSize len
  decide (bookUsed x b + padLen x b need + need ≤ bookSize x b)

/-- A record's bytes written as consecutive writes of up to 4 KiB; the last one carries what waits (05 R142). -/
def fbPieces (eng : Nat) (k : FbCont) : Nat → UnitState → Nat → List Byte → UnitState
  | 0, x, _, _ => x
  | n + 1, x, off, bs =>
    if bs.length ≤ 4096 then fbEngPut x eng off bs k
    else fbPieces eng k n (fbEngPut x eng off (bs.take 4096) .nothing) (off + 4096) (bs.drop 4096)

/-- A record at HEAD of a book, with its CN (05 R152): its pieces, then the book's HEAD and HEAD_BSN. -/
def recordAt (cn : Nat) (x : UnitState) (eng b : Nat) (w1 seq w4 link : Word) (payload : List Byte) (k : Nat → Nat → FbCont) :
    UnitState × Nat × Nat :=
  let off := bookHead x b
  let bsn := headBsn x b
  let ws : List Word := [BitVec.ofNat 64 bsn, w1, seq, BitVec.ofNat 64 cn, w4]
  let bytes := wordsBytes (ws ++ [recCheck ws payload, 0, link]) ++ payload
    ++ List.replicate (alignUp payload.length 64 - payload.length) 0
  let x := fbPieces eng (k off bsn) (bytes.length / 4096 + 1) x off bytes
  let x := bookPut x eng b (fun i w =>
    if i = 2 then BitVec.ofNat 64 (ringStep x b off bytes.length) else if i = 4 then BitVec.ofNat 64 (bsn + 1) else w)
  (x, off, bsn)

/-- Word 1 of a record. -/
def recHead1 (kind jmode station len modid : Nat) : Word :=
  BitVec.ofNat 64 (kind + 2 ^ 4 * jmode + 2 ^ 8 * station + 2 ^ 32 * len + 2 ^ 48 * modid)

/-- A record appended to a book, behind a PAD record where it would not fit before the end of the ring (05 R153). The
answer: its offset and BSN. -/
def bookAppendCn (cn : Nat) (x : UnitState) (eng b : Nat) (w1 seq w4 link : Word) (payload : List Byte) (k : Nat → Nat → FbCont) :
    UnitState × Nat × Nat :=
  let pad := padLen x b (recSize payload.length)
  let x := if pad = 0 then x else
    (recordAt x.cn x eng b (recHead1 6 0 0 (pad - 64) (bitsOf x.lvl.modId 0 16)) 0 0 (BitVec.allOnes 64)
      (List.replicate (pad - 64) 0) (fun _ _ => .nothing)).1
  recordAt cn x eng b w1 seq w4 link payload k

/-- A record whose writing begins in the current chain. -/
def bookAppend (x : UnitState) (eng b : Nat) (w1 seq w4 link : Word) (payload : List Byte) (k : Nat → Nat → FbCont) :
    UnitState × Nat × Nat := bookAppendCn x.cn x eng b w1 seq w4 link payload k

/-- Bytes 32 to 63 of a record rewritten with a state, SCN and LINK, as one write (05 R145, R152). -/
def recPutState (x : UnitState) (eng off state : Nat) (link : Word) (k : FbCont) : UnitState :=
  let w6 := BitVec.ofNat 64 (state + 2 ^ 8 * (x.cn % 2 ^ 56))
  fbEngPut x eng (off + 32) (wordsBytes [recWord x off 4, recWord x off 5, w6, link]) k

/-- Word `i` of a station's mark (05 R150). -/
def markWord (x : UnitState) (n i : Nat) : Word := fbWord x (0x100000 + 64 * n + 8 * i)
/-- OPEN of a mark. -/
def markOpen (x : UnitState) (n : Nat) : Bool := bitOf (markWord x n 0) 26

/-- A station's mark written with one 32-byte write (05 R141, R150). -/
def markPut (x : UnitState) (n : Nat) (f : Nat → Word → Word) : UnitState :=
  fbEngPut x (n / 4096) (0x100000 + 64 * n) (wordsBytes ((List.range 4).map (fun i => f i (markWord x n i)))) .nothing

/-- Word 0 of a mark. -/
def markHead (n parcel book : Nat) (isOpen : Bool) : Word :=
  BitVec.ofNat 64 (n + 2 ^ 20 * parcel + 2 ^ 26 * bit isOpen + 2 ^ 27 * book)

/-- Superblock word 1 written as EPOCH + 1 with an LSTATE, word 2 with the chain (05 R151). -/
def epochPut (x : UnitState) (lstate : Nat) : UnitState :=
  let e := (bitsOf (fbWord x 8) 0 32 + 1) % 2 ^ 32
  let w0 := BitVec.ofNat 64 (1 + 2 ^ 16 * bitsOf x.lvl.modId 0 16)
  let x := fbEngPut x 0 0 (wordsBytes [w0, BitVec.ofNat 64 (e + 2 ^ 32 * lstate), BitVec.ofNat 64 x.cn, 0]) .nothing
  { x with fb := { x.fb with epoch := BitVec.ofNat 32 e, lstate := BitVec.ofNat 2 lstate } }

/-- What a power failure or a reset leaves of a stack (13 R402): accepted writes complete, waiting ones are lost. -/
def fbSettle (x : UnitState) : UnitState :=
  let mem := x.fb.flight.foldl (fun m w => tabSetList byteDef m w.off w.bytes) x.fb.mem
  { x with fb := { x.fb with mem := mem, view := mem, flight := [], waiting := [] } }

end Sys2Proof.Machine
end

