-- ==== Sys2Proof/Machine/StoreOps.lean ====
section
/-! DEFINITION. Stores of cores and engines performed at their homes: DRAM and fieldbook, the checks at the home, the store
buffer drained (09 R266, R267, R272, R294, 15 R453, R454). -/
namespace Sys2Proof.Machine

/-- The first address of fieldbook memory (01 R24). -/
def fbFirst : Nat := 0x800000000000
/-- The first address of the control window (01 R24). -/
def ctlFirst : Nat := 0xC00000000000

/-- An address of fieldbook memory (01 R24). -/
def isFbAddr (mpa : Nat) : Bool := decide (fbFirst ≤ mpa) && decide (mpa < fbFirst + 2 ^ 33)
/-- An address of the control window (01 R24). -/
def isCtlAddr (mpa : Nat) : Bool := decide (ctlFirst ≤ mpa) && decide (mpa < ctlFirst + 2 ^ 37)

/-- The book that holds a fieldbook offset, by 4 KiB page (05 R148). -/
def bookAt (x : UnitState) (off : Nat) : Option Nat :=
  (List.range 256).find? (fun b =>
    bookKind x b != 0 && decide (bookBase x b ≤ off) && decide (off < bookBase x b + bookSize x b))

/-- A core of a parcel may reach a fieldbook offset (05 R148). -/
def fbAllowed (x : UnitState) (p off : Nat) (write : Bool) : Bool :=
  if off < 0x4100000 ∨ 0x1E0000000 ≤ off then false else
  match bookAt x off with
  | none => false
  | some b => bookParcel x b == p && (bookKind x b == 3 || !write)

/-- The whole 32-byte words that a store of bytes to the fieldbook writes (13 R400): their offset and their bytes. -/
def fbWiden (x : UnitState) (off : Nat) (bs : List Byte) : Nat × List Byte :=
  let w := off / 32 * 32
  let n := alignUp (off + bs.length - w) 32
  let old := fbBytes x w n
  (w, old.take (off - w) ++ bs ++ old.drop (off - w + bs.length))

/-- A fieldbook line read with a copy kept (11 R341, R342): FREE grants W, never E. -/
def cohReadFb (x : UnitState) (agent line : Nat) : UnitState :=
  if agOf x agent line ≠ .i then x else
  let e := dirOf x line
  let hs := e.holders ||| posBit agent
  let x := match e.st with
    | .witnessed => setDir (setAg x agent line .s) line agent { e with holders := hs }
    | _ => setDir (setAg (l3Fill x line) agent line .w) line agent { e with st := .witnessed, holders := hs, own := agent }
  touchEntry x line

/-- WRT at the home (11 R341, R342): the other copies are dropped, the writer's own is kept in S, and what the store ends elsewhere. -/
def wrtHome (x : UnitState) (agent line : Nat) (selfCore selfEngine : Option Nat) : UnitState :=
  let e := dirOf x line
  let mine := e.holders.getLsbD agent
  let x := dropCopies (l3Fill x line) line ((holderList e).filter (fun p => p ≠ agent))
  let x := if mine then setDir (setAg x agent line .s) line agent { e with st := .shared, holders := posBit agent, own := 0 }
    else setDir x line agent { e with st := .free, holders := 0, own := 0 }
  storeEffects x line selfCore selfEngine

/-- A core's store to fieldbook memory performed (11 R342, 13 R400): at the home, then in the stack. -/
def fbCoreStore (x : UnitState) (l mpa : Nat) (bs : List Byte) : UnitState :=
  let x := wrtHome x (corePos x l) (mpa / 64) (some l) none
  let w := fbWiden x (mpa - fbFirst) bs
  fbPut x w.1 w.2 false (.coreStore l)

/-- An engine's store to fieldbook memory performed: the write folds into its cluster's signature (05 R139). -/
def fbEngStore (x : UnitState) (e mpa : Nat) (bs : List Byte) : UnitState :=
  let x := wrtHome x (56 + e / 16) (mpa / 64) none (some e)
  let w := fbWiden x (mpa - fbFirst) bs
  fbEngPut x e w.1 w.2 .nothing

/-- The home of an address accepts a parcel's store (15 R453): the segment's ACL and the retired-page table for DRAM, the
book table for the fieldbook. -/
def homeTakes (x : UnitState) (p mpa : Nat) : Bool :=
  if isFbAddr mpa then fbAllowed x p (mpa - fbFirst) true
  else aclHas x (mpa / 2 ^ 36) p && !pageRetired x mpa && decide (mpa < installed x)

/-- A DRAM line made ready for a core's access: it waits at its home, or it goes on. A transaction that the home aborts for a way
(09 R288) leaves the request waiting, to be offered again; the core's own transaction may be that one. -/
def coreTouch (x : UnitState) (l line : Nat) (write : Bool) (stamp : Option (Nat × Nat)) : UnitState × TxRes :=
  match txResolve x line write (some l) stamp with
  | (x, .go) =>
    match ensureWay x line (corePos x l) with
    | (y, true) => (y, if inService y line then .wait else .go)
    | (y, false) => (y, if (unitCore x l).txn.isSome && (unitCore y l).txn.isNone then .selfAbort else .wait)
  | r => r

/-- The oldest store of a core's buffer performed (09 R267): none while it waits at its home; a store that the home refuses
is discarded and raises TAG_LATE (15 R454). Where a transaction is aborted for its way (09 R288), the store is offered again. -/
def drainHead (s : State) (u : UnitId) (l : Nat) : Option State :=
  let x := getUnit s u
  let c := unitCore x l
  match c.sb with
  | [] => some s
  | e :: r =>
    let pop := fun (x : UnitState) => modUnitCore x l (fun c => { c with sb := r })
    if !homeTakes x c.parcel.toNat e.addr then some (raiseUnitFree (setUnit s u (pop x)) u 0x20B)
    else if isFbAddr e.addr then some (setUnit s u (fbCoreStore (pop x) l e.addr e.bytes))
    else
      match coreTouch x l (e.addr / 64) true none with
      | (x, .go) => some (setUnit s u (performStore (pop x) (corePos x l) e.addr e.bytes (some l) none))
      | (y, _) => if (setTxns y (e.addr / 64)).length < (setTxns x (e.addr / 64)).length then some (setUnit s u y) else none

/-- A core's buffer drained; none while a store waits at its home. `n` bounds the stores. -/
def drainBuf (u : UnitId) (l : Nat) : Nat → State → Option State
  | 0, s => some s
  | n + 1, s =>
    if (unitCore (getUnit s u) l).sb.isEmpty then some s else
    match drainHead s u l with
    | none => none
    | some s => drainBuf u l n s

/-- Every store of a core's buffer performed. -/
def drainSb (s : State) (u : UnitId) (l : Nat) : Option State := drainBuf u l 65 s

/-- The store buffer emptied as the core is taken (09 R294): its stores are performed; one that would wait at its home for
another core's transaction is performed after that transaction has ended, and the model performs it at once. -/
def forceBuf (u : UnitId) (l : Nat) : Nat → State → State
  | 0, s => s
  | n + 1, s =>
    let x := getUnit s u
    let c := unitCore x l
    match c.sb with
    | [] => s
    | e :: r =>
      match drainHead s u l with
      | some s => forceBuf u l n s
      | none => forceBuf u l n (setUnit s u (performStore (setUnitCore x l { c with sb := r }) (corePos x l) e.addr e.bytes (some l) none))

/-- Every store of a core's buffer performed now. -/
def forceSb (s : State) (u : UnitId) (l : Nat) : State := forceBuf u l 65 s

/-- A core taken out of its run (09 R289, R294): an open transaction aborts with HALT, the retired stores are performed. -/
def haltCore (s : State) (u : UnitId) (l : Nat) : State :=
  forceSb (modUnit s u (fun x => clearRsv (txAbort x l 0x0A) l)) u l

/-- A logical core reset (18 R513, R515): its buffer goes into L2, its architected state takes the reset values. -/
def resetCore (s : State) (u : UnitId) (l : Nat) (c : Core) : State :=
  let s := haltCore s u l
  modUnit s u (fun x => setUnitCore x l c)

/-- The lines of which an agent holds a copy. -/
def agentLines (x : UnitState) (a : Nat) : List Nat := (x.mem.coh.ag.filter (fun e => e.1 % 128 == a)).map (fun e => e.1 / 128)

/-- The lines of an agent's cache written back and its copies dropped (10 R316, 11 R350). -/
def salvageAgent (x : UnitState) (a : Nat) : UnitState :=
  (agentLines x a).foldl (fun x line =>
    let x := if agOf x a line = .d then l3Dirty x line else x
    let e := dirOf x line
    let hs := e.holders &&& ~~~(posBit a)
    let x := setAg x a line .i
    if e.own = a ∧ (e.st = .owned ∨ e.st = .witnessed) then
      if hs = 0 ∨ e.st = .owned then setDir x line a { e with st := .free, holders := 0, own := 0 }
      else setDir x line a { e with st := .shared, holders := hs, own := 0 }
    else if hs = 0 then setDir x line a { e with st := .free, holders := 0, own := 0 }
    else setDir x line a { e with holders := hs }) x

/-- The position of an agent goes out of service (11 R350): its readable cache is written back, and the directory walk that
reclaims what names it begins. -/
def killAgent (x : UnitState) (a : Nat) : UnitState :=
  let dirty := ((agentLines x a).filter (fun n => decide (agOf x a n = .d))).map (fun n => (a, n))
  modCoh (salvageAgent x a) (fun c => { c with
    dead := if c.dead.contains a then c.dead else c.dead ++ [a], walks := if c.walks.contains a then c.walks else c.walks ++ [a]
    salv := c.salv ++ dirty })

end Sys2Proof.Machine
end

