-- ==== Sys2Proof/Machine/MsgOps.lean ====
section
/-! DEFINITION. The coherence protocol message by message: requests in service at a home, forwards, replies, evictions (11 R334 to
R350). The value of a line is held once, in the unit's memory; messages move the states of copies and entries. -/
namespace Sys2Proof.Machine

/-- The service of a line (11 R340). -/
def svcOf (x : UnitState) (line : Nat) : Option Svc := tabGet (fun _ => (none : Option Svc)) x.mem.coh.svc line

/-- The service of a line replaced. -/
def setSvc (x : UnitState) (line : Nat) (v : Option Svc) : UnitState :=
  modCoh x (fun c => { c with svc := tabSet (fun _ => (none : Option Svc)) c.svc line v })

/-- A message sent. -/
def sendMsg (x : UnitState) (m : CohMsg) : UnitState := modCoh x (fun c => { c with msgs := c.msgs ++ [m] })

/-- The first message in flight that a test picks, taken. -/
def takeMsg (x : UnitState) (f : CohMsg → Bool) : Option (CohMsg × UnitState) :=
  (x.mem.coh.msgs.find? f).map (fun m => (m, modCoh x (fun c => { c with msgs := c.msgs.erase m })))

/-- A message of a kind between the home of a line and an agent. -/
def isMsg (k : MsgKind) (agent line : Nat) (m : CohMsg) : Bool := decide (m.kind = k) && m.agent == agent && m.line == line && !m.home

/-- An agent holds an eviction entry for a line (11 R334). -/
def evicting (x : UnitState) (agent line : Nat) : Bool := x.mem.coh.ev.contains (agent, line)

/-- A position is dead (11 R350). -/
def isDead (x : UnitState) (agent : Nat) : Bool := x.mem.coh.dead.contains agent

/-- A line lies in fieldbook memory (01 R24). -/
def fbLine (line : Nat) : Bool := isFbAddr (64 * line)

/-- The parcel tag of a request passes the checks of the home (11 R339, 15 R453). `bridge` says that CLO_RELEVEL.PHASE is 2 to 5. -/
def tagOk (x : UnitState) (bridge : Bool) (j : CohJob) : Bool :=
  let line := j.req.line.toNat
  let p := j.req.parcel.toNat
  if j.req.agent.val = 74 then bridge
  else if fbLine line then fbAllowed x p (64 * line - fbFirst) (decide (j.kind = .wrt) || decide (j.kind = .stc))
  else aclHas x (64 * line / 2 ^ 36) p && !pageRetired x (64 * line) && decide (64 * line < installed x)

/-- A request that writes its line (09 R287). -/
def jobWrites : ReqKind → Bool
  | .rdx | .upg | .wrl | .wrt | .stc => true
  | .rds | .rdo | .cln | .fls => false

/-- The logical core whose L2 lies at a position. -/
def coreAt (x : UnitState) (pos : Nat) : Option Nat := if pos < 56 then (List.range 48).find? (fun l => corePos x l == pos) else none

/-- The holder of a pin that a requester would be (11 R335). -/
def pinSelf (q : CohReq) : Nat × Nat := (q.agent.val, match q.engine with | some e => e.val | none => 0)

/-- INV sent to a list of holders (11 R341); a dead one owes nothing. -/
def sendInv (x : UnitState) (line : Nat) (drop : Bool) (ps : List Nat) : UnitState × List Nat :=
  let live := ps.filter (fun p => !isDead x p)
  (live.foldl (fun x p => sendMsg x { kind := .inv, line := line, agent := p, flag := drop }) x, live)

/-- GNT sent to the requester once nothing is owed to the home (11 R341). -/
def grantIfClear (x : UnitState) (line : Nat) : UnitState :=
  match svcOf x line with
  | none => x
  | some v =>
    if v.needGnt ∧ v.owed = [] ∧ !v.gntSent then
      setSvc (sendMsg x { kind := .gnt, line := line, agent := v.job.req.agent }) line (some { v with gntSent := true })
    else x

/-- What becomes of a request at its home: it waits, its own transaction aborts, it has ended, or it is in service. -/
inductive Offer
  | park (x : UnitState)
  | ended (x : UnitState)
  | serve (x : UnitState) (v : Svc)

/-- Data to the requester from the home, with the state it grants. -/
def homeData (x : UnitState) (j : CohJob) (st : AgSt) : UnitState :=
  let line := j.req.line.toNat
  sendMsg (l3Fill x line) { kind := .dat, line := line, agent := j.req.agent, st := st }

/-- A forward to the witness or owner. -/
def sendFwd (x : UnitState) (k : MsgKind) (line agent : Nat) : UnitState := sendMsg x { kind := k, line := line, agent := agent }

/-- The pin of a line set for a RDS with the PIN flag; one that its holder had elsewhere is released (11 R344). -/
def setPin (x : UnitState) (q : CohReq) : UnitState :=
  if !q.pin then x else
  let old := (x.mem.coh.dir.filter (fun e => e.2.pin == some (pinSelf q) && e.1 != q.line.toNat)).map (fun e => e.1)
  let x := old.foldl (fun x n => setDir x n q.agent { dirOf x n with pin := none }) x
  setDir x q.line.toNat q.agent { dirOf x q.line.toNat with pin := some (pinSelf q) }

/-- The entry of a line and the home's copy after a FLUSH (11 R341 FLS). -/
def flushHome (x : UnitState) (line agent : Nat) : UnitState :=
  let e := dirOf x line
  setL3 (l3Clean (setDir x line agent { e with st := .free, holders := 0, own := 0 }) line) line .absent

/-- RDS at its home (11 R341, R342, R344). -/
def serveRds (x : UnitState) (j : CohJob) : Offer :=
  let q := j.req
  let line := q.line.toNat
  let e := dirOf x line
  let x := setPin x q
  if q.pin && agOf x q.agent line != .i then .serve (sendMsg x { kind := .ack, line := line, agent := q.agent }) { job := j, needData := true } else
  let own := decide (e.own = q.agent.val) || isDead x e.own
  match e.st with
  | .witnessed => if own then .serve (homeData x j .w) { job := j, needData := true }
      else .serve (sendFwd x .fws line e.own) { job := j, fwd := some e.own, needData := true }
  | .owned => if own then .serve (homeData x j .e) { job := j, needData := true }
      else .serve (sendFwd x .fws line e.own) { job := j, fwd := some e.own, needData := true }
  | .shared => .serve (homeData x j .w) { job := j, needData := true }
  | .free | .recall => .serve (homeData x j (if fbLine line then .w else .e)) { job := j, needData := true }

/-- RDX at its home, and what is served as one: UPG of an agent that is no holder, STC of a pinned line (11 R341). -/
def serveRdx (x : UnitState) (j : CohJob) : Offer :=
  let q := j.req
  let line := q.line.toNat
  let e := dirOf x line
  let me := q.agent.val
  match e.st with
  | .free | .recall => .serve (homeData x j .e) { job := j, needData := true }
  | .shared =>
    let r := sendInv x line false ((holderList e).filter (fun p => p ≠ me))
    .serve (homeData r.1 j .e) { job := j, owed := r.2, needData := true, needGnt := true }
  | .witnessed =>
    let away := decide (e.own = me) || isDead x e.own
    let r := sendInv x line false ((holderList e).filter (fun p => p ≠ me ∧ p ≠ e.own))
    if away then .serve (homeData r.1 j .e) { job := j, owed := r.2, needData := true, needGnt := true }
    else .serve (sendFwd r.1 .fwx line e.own) { job := j, owed := r.2, fwd := some e.own, needData := true, needGnt := true }
  | .owned =>
    if e.own = me ∨ isDead x e.own then .serve (homeData x j .e) { job := j, needData := true }
    else .serve (sendFwd x .fwx line e.own) { job := j, fwd := some e.own, needData := true }

/-- UPG at its home (11 R341). -/
def serveUpg (x : UnitState) (j : CohJob) : Offer :=
  let q := j.req
  let line := q.line.toNat
  let e := dirOf x line
  if (e.st = .shared ∨ e.st = .witnessed) ∧ e.holders.getLsbD q.agent then
    let r := sendInv x line false ((holderList e).filter (fun p => p ≠ q.agent.val))
    .serve r.1 { job := j, owed := r.2, needGnt := true }
  else serveRdx x j

/-- RDO at its home (11 R341). -/
def serveRdo (x : UnitState) (j : CohJob) : Offer :=
  let line := j.req.line.toNat
  let e := dirOf x line
  if (e.st = .witnessed ∨ e.st = .owned) ∧ !isDead x e.own then
    .serve (sendFwd x .fwo line e.own) { job := j, fwd := some e.own, needData := true }
  else .serve (homeData x j .i) { job := j, needData := true }

/-- DONE to the requester; `ok` is success of a STC. -/
def sendDone (x : UnitState) (j : CohJob) (ok : Bool) : UnitState :=
  sendMsg x { kind := .done, line := j.req.line.toNat, agent := j.req.agent, flag := ok }

/-- The pin that a performed store of another agent clears, with the RSVL to its holder (11 R344). -/
def losePin (x : UnitState) (j : CohJob) : UnitState :=
  let line := j.req.line.toNat
  let e := dirOf x line
  match e.pin with
  | none => x
  | some h =>
    if h = pinSelf j.req ∨ j.req.txStamp.isSome then x else
    sendMsg (setDir x line j.req.agent { e with pin := none }) { kind := .rsvl, line := line, agent := h.1, engine := h.2 }

/-- The whole-line write of a WRL once every holder has answered (11 R341, R344, R351). -/
def finishWrl (x : UnitState) (j : CohJob) : UnitState :=
  sendDone (ctxEffects (wrlLine (losePin x j) j.req.agent j.req.line.toNat j.data) j.req.line.toNat) j true

/-- CLN once the owner has answered (11 R341). -/
def finishCln (x : UnitState) (j : CohJob) : UnitState := sendDone (l3Clean x j.req.line.toNat) j true

/-- FLS once every holder has answered (11 R341). -/
def finishFls (x : UnitState) (j : CohJob) : UnitState := sendDone (flushHome x j.req.line.toNat j.req.agent) j true

/-- WRT at its home (11 R341, R342, R344): performed as it is accepted; DONE when the stack write completes. -/
def serveWrt (x : UnitState) (j : CohJob) : Offer :=
  let q := j.req
  let line := q.line.toNat
  let others := (holderList (dirOf x line)).filter (fun p => p ≠ q.agent.val)
  let r := sendInv x line false others
  let x := losePin (l3Fill r.1 line) j
  let w := fbWiden x (64 * line + j.off - fbFirst) j.data
  .serve (fbPut x w.1 w.2 false (.cohDone q.agent line)) { job := j, owed := r.2 }

/-- A request whose way is free served by its kind (11 R341); a STC of a fieldbook line, which no agent owns, is written as a WRT (R342). -/
def serveKind (x : UnitState) (j : CohJob) : Offer :=
  let line := j.req.line.toNat
  let e := dirOf x line
  match j.kind with
  | .rds => serveRds x j
  | .rdx => serveRdx x j
  | .upg => serveUpg x j
  | .rdo => serveRdo x j
  | .wrt => serveWrt x j
  | .stc =>
    if e.pin ≠ some (pinSelf j.req) then .ended (sendDone x j false)
    else if fbLine line then serveWrt (setDir x line j.req.agent { e with pin := none }) { j with kind := .wrt }
    else serveRdx x j
  | .wrl =>
    let r := sendInv x line true (holderList e)
    if r.2 = [] then .ended (finishWrl r.1 j) else .serve r.1 { job := j, owed := r.2 }
  | .cln =>
    if e.st = .owned ∧ !isDead x e.own then
      .serve (sendFwd x .clnf line e.own) { job := j, fwd := some e.own, owed := [e.own] }
    else .ended (finishCln x j)
  | .fls =>
    let r := sendInv x line false (holderList e)
    if r.2 = [] then .ended (finishFls r.1 j) else .serve r.1 { job := j, owed := r.2 }

/-- Two holders of a pin in one set are within the bound of 8 (09 R280). -/
def pinFits (x : UnitState) (q : CohReq) : Bool :=
  !q.pin || decide (((setEntries x q.line.toNat).filter (fun e => match e.2.pin with | some h => h != pinSelf q | none => false)).length < 8)

/-- The transaction of the core at an agent has ended between two states. -/
def ownGone (x y : UnitState) (agent : Fin 80) : Bool :=
  match coreAt x agent with
  | some l => (unitCore x l).txn.isSome && (unitCore y l).txn.isNone
  | none => false

/-- A request accepted at its home (11 R339 to R341, R344, R345, 09 R287, R288): the tag, conflicts with transactions, a way in the
directory where the request leaves an entry, the bound on pins, then its service. -/
def offerJob (bridge : Bool) (x : UnitState) (j : CohJob) : Offer :=
  let q := j.req
  let line := q.line.toNat
  if !tagOk x bridge j then
    .ended (sendMsg x { kind := .err, line := line, agent := q.agent, flag := jobWrites j.kind })
  else
    match txResolve x line (jobWrites j.kind) (coreAt x q.agent) q.txStamp with
    | (x, .wait) => .park x
    | (x, .selfAbort) => .ended (match coreAt x q.agent with | some l => txAbort x l 1 | none => x)
    | (x, .go) =>
      if !pinFits x q then .park x else
      if j.kind = .rdo ∨ j.kind = .wrl ∨ j.kind = .wrt ∨ j.kind = .cln ∨ j.kind = .fls ∨ j.kind = .stc then serveKind x j else
      match takeWay line q.agent 56 x with
      | (y, ok) => if ownGone x y q.agent then .ended y else if ok then serveKind y j else .park y

/-- The requests that wait for a line served in order until one stays in service (11 R340); one that must wait is parked. -/
def serveList (bridge : Bool) (line : Nat) : List CohJob → UnitState → UnitState
  | [], x => setSvc x line none
  | j :: r, x =>
    match offerJob bridge x j with
    | .park x => serveList bridge line r (modCoh x (fun c => { c with parked := c.parked ++ [j] }))
    | .ended x => serveList bridge line r x
    | .serve x v => grantIfClear (setSvc x line (some { v with waiting := r })) line

/-- A request that reaches its home: behind the one in service for its line, or served. -/
def arriveJob (bridge : Bool) (x : UnitState) (j : CohJob) : UnitState :=
  let line := j.req.line.toNat
  match svcOf x line with
  | some v => setSvc x line (some { v with waiting := v.waiting ++ [j] })
  | none => serveList bridge line [j] x

/-- The parked requests offered again, in their order. -/
def retryParked (bridge : Bool) (x : UnitState) : UnitState :=
  x.mem.coh.parked.foldl (fun x j => arriveJob bridge x j) (modCoh x (fun c => { c with parked := [] }))

/-- The requests that a slice's tracker holds (11 R340): 256. -/
def trackerFull (x : UnitState) (line : Nat) : Bool :=
  let s := homeSlice line
  let waiting := x.mem.coh.svc.foldl (fun a e =>
    if homeSlice e.1 = s then a + (match e.2 with | some v => 1 + v.waiting.length | none => 0) else a) 0
  decide (256 ≤ waiting + (x.mem.coh.parked.filter (fun j => homeSlice j.req.line.toNat == s)).length)

/-- The entry of a line as the end of a service leaves it (11 R341). -/
def endEntry (e : DirEnt) (j : CohJob) : DirEnt :=
  let me := j.req.agent.val
  let hs := e.holders ||| posBit me
  match j.kind with
  | .rds => if j.req.pin && e.holders.getLsbD me then e else
    match e.st with
    | .shared => { e with st := .witnessed, holders := hs, own := me }
    | .witnessed => { e with holders := hs }
    | .owned => if e.own = me then e else { e with st := .witnessed, holders := hs }
    | .free | .recall => { e with st := if fbLine j.req.line.toNat then .witnessed else .owned, holders := posBit me, own := me }
  | .rdx | .upg | .stc => { e with st := .owned, holders := posBit me, own := me }
  | .wrt => if e.holders.getLsbD me then { e with st := .shared, holders := posBit me, own := 0 }
      else { e with st := .free, holders := 0, own := 0 }
  | .wrl | .fls => { e with st := .free, holders := 0, own := 0 }
  | .rdo | .cln => e

/-- The store of a STC performed (11 R341, R344): the bytes, DONE with success, the pin released. -/
def finishStc (x : UnitState) (j : CohJob) : UnitState :=
  let line := j.req.line.toNat
  let x := writeThrough (setAg (putBytes x (64 * line + j.off) j.data) j.req.agent line .d) j.req.agent line
  let x := ctxEffects x line
  sendDone (setDir x line j.req.agent { dirOf x line with pin := none }) j true

/-- What a transactional request adds at the home: the core's bit and the line in its set (11 R345). -/
def enterTx (x : UnitState) (j : CohJob) : UnitState :=
  let line := j.req.line.toNat
  match j.req.txStamp, coreAt x j.req.agent with
  | some _, some l =>
    if (unitCore x l).txn.isNone then x else
    let e := dirOf x line
    let w := jobWrites j.kind
    let x := setDir x line j.req.agent { e with tvec := e.tvec ||| tvecBit j.req.agent }
    modUnitCore x l (fun c => { c with txn := c.txn.map (fun t =>
      if w then { t with readSet := t.readSet.filter (fun k => k != line), writeSet := if t.writeSet.contains line then t.writeSet else t.writeSet ++ [line] }
      else if t.readSet.contains line || t.writeSet.contains line then t else { t with readSet := t.readSet ++ [line] }) })
  | _, _ => x

/-- An agent taken out of an entry (11 R341 EVC, EVD): FREE, SHARED or WITNESSED as the holders remaining give. -/
def dropHolder (x : UnitState) (line agent : Nat) : UnitState :=
  let e := dirOf x line
  let hs := e.holders &&& ~~~(posBit agent)
  if hs = 0 ∨ e.st = .owned then setDir x line agent { e with st := .free, holders := 0, own := 0 }
  else if e.st = .witnessed ∧ e.own = agent then setDir x line agent { e with st := .shared, holders := hs, own := 0 }
  else setDir x line agent { e with holders := hs }

/-- An eviction taken by the home (11 R341): data into L3, the holder removed, EACK. -/
def takeEvict (x : UnitState) (line agent : Nat) (dirty : Bool) : UnitState :=
  let x := if dirty then l3Dirty x line else x
  sendMsg (dropHolder x line agent) { kind := .eack, line := line, agent := agent }

/-- An eviction held during a service that has ended: data and holder as the entry now stands, then EACK. -/
def lateEvict (x : UnitState) (line : Nat) (h : Nat × Bool) : UnitState :=
  if (dirOf x line).holders.getLsbD h.1 then takeEvict x line h.1 h.2
  else sendMsg x { kind := .eack, line := line, agent := h.1 }

/-- A service ends (11 R340): the entry takes its next state, and the next request of the line starts. -/
def endSvc (bridge : Bool) (x : UnitState) (line : Nat) (v : Svc) : UnitState :=
  let j := v.job
  let x := setDir x line j.req.agent (endEntry (dirOf x line) j)
  let x := if j.kind = .rdx ∨ j.kind = .upg then losePin x j else x
  let x := touchEntry (enterTx (if j.kind = .stc then finishStc x j else x) j) line
  let x := v.heldEv.foldl (fun x h => lateEvict x line h) x
  serveList bridge line v.waiting x

/-- The requester has its data and any GNT, and sends CMP (11 R341). -/
def cmpIfDone (x : UnitState) (line : Nat) : UnitState :=
  match svcOf x line with
  | none => x
  | some v =>
    if v.needData ∨ v.needGnt ∨ v.cmpSent then x else
    setSvc (sendMsg x { kind := .cmp, line := line, agent := v.job.req.agent }) line (some { v with cmpSent := true })

/-- A GNT that the first service of a request has sent stands for its second: none goes out twice. -/
def keepGrant (x : UnitState) (line : Nat) (v : Svc) : UnitState :=
  match svcOf x line with
  | none => x
  | some w =>
    if !v.gntSent ∨ w.job ≠ v.job then x else
    let x := if w.gntSent then (match takeMsg x (isMsg .gnt v.job.req.agent line) with | some (_, y) => y | none => x) else x
    setSvc x line (some { w with needGnt := v.needGnt, gntSent := true })

/-- A forward answered by GONE, its eviction and every other reply arrived: the request is served as though the agent had not held
the line (11 R349). -/
def reserveIfGone (bridge : Bool) (x : UnitState) (line : Nat) : UnitState :=
  match svcOf x line with
  | none => x
  | some v =>
    match v.fwd with
    | none => x
    | some a =>
      if !v.gone ∨ v.owed ≠ [] then x else
      let again := fun (x : UnitState) => keepGrant (serveList bridge line (v.job :: v.waiting) (v.heldEv.foldl (fun x h => lateEvict x line h) x)) line v
      if v.heldEv.any (fun h => h.1 == a) then again x
      else if isDead x a then again (dropHolder x line a)
      else x

/-- A reply owed to the home has arrived: GNT may go, a service without CMP may end. -/
def replyArrives (bridge : Bool) (x : UnitState) (line agent : Nat) : UnitState :=
  match svcOf x line with
  | none => x
  | some v =>
    let v := { v with owed := v.owed.erase agent, goneInv := v.goneInv.erase agent }
    let x := grantIfClear (setSvc x line (some v)) line
    if v.owed ≠ [] then x
    else if v.gone then reserveIfGone bridge x line
    else
      let fin := fun (x : UnitState) => serveList bridge line v.waiting (v.heldEv.foldl (fun x h => lateEvict x line h) x)
      match v.job.kind with
      | .wrl => fin (finishWrl x v.job)
      | .fls => fin (finishFls x v.job)
      | .cln => fin (finishCln x v.job)
      | _ => x

/-- An eviction notice of an agent arrives at the home (11 R341, R349): held while the line is in service, else taken. One that
follows the agent's GONE to an INV completes that reply. -/
def evictArrives (bridge : Bool) (x : UnitState) (line agent : Nat) (dirty : Bool) : UnitState :=
  match svcOf x line with
  | none => takeEvict x line agent dirty
  | some v =>
    if v.goneInv.contains agent then replyArrives bridge (takeEvict x line agent dirty) line agent
    else reserveIfGone bridge (setSvc x line (some { v with heldEv := v.heldEv ++ [(agent, dirty)] })) line

/-- GONE arrives at the home (11 R349). -/
def goneArrives (bridge : Bool) (x : UnitState) (line agent : Nat) : UnitState :=
  match svcOf x line with
  | none => x
  | some v =>
    if v.fwd = some agent then
      reserveIfGone bridge (setSvc x line (some { v with gone := true, owed := v.owed.erase agent })) line
    else
      match v.heldEv.find? (fun h => h.1 == agent) with
      | some h =>
        replyArrives bridge (takeEvict (setSvc x line (some { v with heldEv := v.heldEv.erase h })) line agent h.2) line agent
      | none =>
        if isDead x agent then replyArrives bridge x line agent
        else setSvc x line (some { v with goneInv := v.goneInv ++ [agent] })

/-- The stack write of a WRT has completed (11 R341): DONE, the requester's own copy kept in S, and the service ends. -/
def wrtDone (x : UnitState) (agent line : Nat) : UnitState :=
  match svcOf x line with
  | none => x
  | some v =>
    if v.job.kind = .wrt ∧ v.job.req.agent.val = agent then
      let x := if agOf x agent line = .i then x else setAg x agent line .s
      endSvc false (sendDone (dropCopies x line v.owed) v.job true) line v
    else x

end Sys2Proof.Machine
end

