-- ==== Sys2Proof/Machine/Aes.lean ====
section
/-! DEFINITION. AES and AES-CMAC over lists of bytes, from their standards (14 R405 names them; log 40). A block is 16 bytes. -/
namespace Sys2Proof.Machine

/-- Multiplication by x in GF(2^8) modulo x^8 + x^4 + x^3 + x + 1. -/
def gfDouble (a : Byte) : Byte := if a.getLsbD 7 then (a <<< 1) ^^^ 0x1B else a <<< 1

/-- Multiplication in GF(2^8), by the low `n` bits of the second factor. -/
def gfMulN : Nat → Byte → Byte → Byte
  | 0, _, _ => 0
  | n + 1, a, b => (if b.getLsbD 0 then a else 0) ^^^ gfMulN n (gfDouble a) (b >>> 1)

/-- The AES S-box, a row of 16 bytes to a number, the first byte leftmost. -/
def aesSubRows : List Nat :=
  [0x637C777BF26B6FC53001672BFED7AB76, 0xCA82C97DFA5947F0ADD4A2AF9CA472C0, 0xB7FD9326363FF7CC34A5E5F171D83115]
  ++ [0x04C723C31896059A071280E2EB27B275, 0x09832C1A1B6E5AA0523BD6B329E32F84, 0x53D100ED20FCB15B6ACBBE394A4C58CF]
  ++ [0xD0EFAAFB434D338545F9027F503C9FA8, 0x51A3408F929D38F5BCB6DA2110FFF3D2, 0xCD0C13EC5F974417C4A77E3D645D1973]
  ++ [0x60814FDC222A908846EEB814DE5E0BDB, 0xE0323A0A4906245CC2D3AC629195E479, 0xE7C8376D8DD54EA96C56F4EA657AAE08]
  ++ [0xBA78252E1CA6B4C6E8DD741F4BBD8B8A, 0x703EB5664803F60E613557B986C11D9E, 0xE1F8981169D98E949B1E87E9CE5528DF]
  ++ [0x8CA1890DBFE6426841992D0FB054BB16]

/-- The inverse AES S-box, in the same form. -/
def aesInvRows : List Nat :=
  [0x52096AD53036A538BF40A39E81F3D7FB, 0x7CE339829B2FFF87348E4344C4DEE9CB, 0x547B9432A6C2233DEE4C950B42FAC34E]
  ++ [0x082EA16628D924B2765BA2496D8BD125, 0x72F8F66486689816D4A45CCC5D65B692, 0x6C704850FDEDB9DA5E154657A78D9D84]
  ++ [0x90D8AB008CBCD30AF7E45805B8B34506, 0xD02C1E8FCA3F0F02C1AFBD0301138A6B, 0x3A9111414F67DCEA97F2CFCEF0B4E673]
  ++ [0x96AC7422E7AD3585E2F937E81C75DF6E, 0x47F11A711D29C5896FB7620EAA18BE1B, 0xFC563E4BC6D279209ADBC0FE78CD5AF4]
  ++ [0x1FDDA8338807C731B11210592780EC5F, 0x60517FA919B54A0D2DE57A9F93C99CEF, 0xA0E03B4DAE2AF5B0C8EBBB3C83539961]
  ++ [0x172B047EBA77D626E169146355210C7D]

/-- A byte of such a table. -/
def aesTable (rows : List Nat) (a : Byte) : Byte := BitVec.ofNat 8 (rows.getD (a.toNat / 16) 0 >>> (8 * (15 - a.toNat % 16)))

/-- The AES S-box. -/
def aesSub (a : Byte) : Byte := aesTable aesSubRows a

/-- The inverse AES S-box. -/
def aesInvSub (a : Byte) : Byte := aesTable aesInvRows a

/-- Bytes XORed pairwise. -/
def xorBytes (a b : List Byte) : List Byte := List.zipWith (fun x y => x ^^^ y) a b

/-- The key schedule: words of 4 bytes, newest first, from `nk` key words; `k` more words follow word `i`. -/
def aesExpand (nk : Nat) : Nat → Nat → Byte → List (List Byte) → List (List Byte)
  | 0, _, _, ws => ws
  | k + 1, i, rc, ws =>
    let t := ws.headD []
    let old := ws.getD (nk - 1) []
    if i % nk = 0 then
      let r := (t.drop 1 ++ t.take 1).map aesSub
      aesExpand nk k (i + 1) (gfDouble rc) (xorBytes old (xorBytes r [rc, 0, 0, 0]) :: ws)
    else if 6 < nk ∧ i % nk = 4 then aesExpand nk k (i + 1) rc (xorBytes old (t.map aesSub) :: ws)
    else aesExpand nk k (i + 1) rc (xorBytes old t :: ws)

/-- A list of bytes in words of 4, `n` of them. -/
def quadsOf : Nat → List Byte → List (List Byte)
  | 0, _ => []
  | n + 1, l => l.take 4 :: quadsOf n (l.drop 4)

/-- The round keys of a 16- or 32-byte key, first round first. -/
def aesKeys (key : List Byte) : List (List Byte) :=
  let nk := key.length / 4
  let ws := (aesExpand nk (4 * (nk + 7) - nk) nk 1 (quadsOf nk key).reverse).reverse
  (List.range (nk + 7)).map (fun r => ((ws.drop (4 * r)).take 4).flatten)

/-- ShiftRows: byte 4c + r comes from column c + r. -/
def aesShift (b : List Byte) : List Byte :=
  (List.range 16).map (fun i => b.getD (4 * ((i / 4 + i % 4) % 4) + i % 4) 0)

/-- The inverse of ShiftRows. -/
def aesUnshift (b : List Byte) : List Byte :=
  (List.range 16).map (fun i => b.getD (4 * ((i / 4 + 4 - i % 4) % 4) + i % 4) 0)

/-- MixColumns, or its inverse, with the four factors of its first row, which have four bits. -/
def aesMix (f : List Byte) (b : List Byte) : List Byte :=
  (List.range 16).map (fun i =>
    (List.range 4).foldl (fun a k => a ^^^ gfMulN 4 (b.getD (4 * (i / 4) + k) 0) (f.getD ((k + 4 - i % 4) % 4) 0)) 0)

/-- The rounds of encryption after the first key. -/
def aesRounds : List (List Byte) → List Byte → List Byte
  | [], b => b
  | [k], b => xorBytes (aesShift (b.map aesSub)) k
  | k :: r, b => aesRounds r (xorBytes (aesMix [2, 3, 1, 1] (aesShift (b.map aesSub))) k)

/-- AES encryption of a block under a key's round keys. -/
def aesEncK (ks : List (List Byte)) (b : List Byte) : List Byte := aesRounds (ks.drop 1) (xorBytes b (ks.headD []))

/-- The rounds of decryption after the last key, keys in reverse. -/
def aesUnrounds : List (List Byte) → List Byte → List Byte
  | [], b => b
  | [k], b => xorBytes ((aesUnshift b).map aesInvSub) k
  | k :: r, b => aesUnrounds r (aesMix [14, 11, 13, 9] (xorBytes ((aesUnshift b).map aesInvSub) k))

/-- AES decryption of a block under a key's round keys. -/
def aesDecK (ks : List (List Byte)) (b : List Byte) : List Byte :=
  let rs := ks.reverse
  aesUnrounds (rs.drop 1) (xorBytes b (rs.headD []))

/-- AES encryption of a block. -/
def aesEnc (key b : List Byte) : List Byte := aesEncK (aesKeys key) b

/-- A block doubled in GF(2^128) as CMAC does it. -/
def cmacDouble (b : List Byte) : List Byte :=
  let v := beNat b
  let w := 2 * v % 2 ^ 128
  beBytes 16 (if 2 ^ 127 ≤ v then (BitVec.ofNat 128 w ^^^ 0x87).toNat else w)

/-- A list of bytes in blocks of 16, the last of 1 to 16 bytes; `n` bounds them. -/
def blocksOf : Nat → List Byte → List (List Byte)
  | 0, _ => []
  | n + 1, l => if l.isEmpty then [] else l.take 16 :: blocksOf n (l.drop 16)

/-- A chained MAC over whole blocks. -/
def cbcMac (ks : List (List Byte)) (iv : List Byte) (bs : List (List Byte)) : List Byte :=
  bs.foldl (fun a b => aesEncK ks (xorBytes a b)) iv

/-- AES-CMAC finished: `acc` is the chained value of every block before the last, `last` the 0 to 16 bytes left
(NIST SP 800-38B). -/
def cmacLast (ks : List (List Byte)) (acc last : List Byte) : List Byte :=
  let k1 := cmacDouble (aesEncK ks (List.replicate 16 0))
  let m := if last.length = 16 then xorBytes last k1
    else xorBytes (last ++ [0x80] ++ List.replicate (15 - last.length) 0) (cmacDouble k1)
  aesEncK ks (xorBytes acc m)

/-- AES-CMAC of a message (06 R183, 14 R405). -/
def aesCmacOf (key m : List Byte) : List Byte :=
  let ks := aesKeys key
  let bs := blocksOf (m.length + 1) m
  cmacLast ks (cbcMac ks (List.replicate 16 0) bs.dropLast) (bs.getLastD [])

/-- Multiplication in GF(2^128) as GCM does it, on numbers whose most significant bit is coefficient 0: `n` bits of the
first factor are left, `v` is the second one shifted so far. -/
def ghashMulN : Nat → Quad → Quad → Quad → Quad
  | 0, _, _, z => z
  | n + 1, x, v, z =>
    ghashMulN n (x <<< 1) (if v.getLsbD 0 then (v >>> 1) ^^^ (0xE1#128 <<< 120) else v >>> 1)
      (if x.getLsbD 127 then z ^^^ v else z)

/-- One GHASH step: the sum with a block, times H. -/
def ghashStep (h acc : Quad) (b : List Byte) : Quad :=
  ghashMulN 128 (acc ^^^ BitVec.ofNat 128 (beNat (b ++ List.replicate (16 - b.length) 0))) h 0

/-- GHASH over data, each part padded with zeros to a block (NIST SP 800-38D). -/
def ghashOver (h acc : Quad) (d : List Byte) : Quad := (blocksOf (d.length + 1) d).foldl (ghashStep h) acc

/-- A counter block with its last 32 bits counted up by `n`. -/
def incCtr (c : Quad) (n : Nat) : Quad := withBits c 0 32 (c.toNat + n)

/-- Key stream blocks XORed over data from a counter block on. -/
def ctrOver (ks : List (List Byte)) (inc : Quad → Nat → Quad) (c : Quad) (d : List Byte) : List Byte :=
  let bs := blocksOf (d.length + 1) d
  ((List.range bs.length).map (fun k => xorBytes (bs.getD k []) (aesEncK ks (beBytes 16 (inc c k).toNat)))).flatten

/-- CBC encryption of whole blocks from a chain value: the output blocks, newest first. -/
def cbcEnc (enc : List Byte → List Byte) (iv : List Byte) (bs : List (List Byte)) : List (List Byte) :=
  bs.foldl (fun acc b => enc (xorBytes b (acc.headD iv)) :: acc) []

/-- CBC decryption of whole blocks from a chain value. -/
def cbcDec (dec : List Byte → List Byte) : List Byte → List (List Byte) → List (List Byte)
  | _, [] => []
  | iv, b :: r => xorBytes (dec b) iv :: cbcDec dec b r

end Sys2Proof.Machine
end

