-- ==== Sys2Proof/Machine/Des.lean ====
section
/-! DEFINITION. DES and TDES on 64-bit blocks as numbers, from their standard (14 R405 names it; log 40). -/
namespace Sys2Proof.Machine

/-- The bits of a number of `w` bits picked by a table that counts from 1 at the most significant bit. -/
def permBits (w : Nat) (t : List Nat) (v : Nat) : Nat := t.foldl (fun a i => 2 * a + v / 2 ^ (w - i) % 2) 0

/-- The initial permutation. -/
def desIp : List Nat :=
  [58, 50, 42, 34, 26, 18, 10, 2, 60, 52, 44, 36, 28, 20, 12, 4, 62, 54, 46, 38, 30, 22, 14, 6, 64, 56, 48, 40, 32, 24, 16, 8]
  ++ [57, 49, 41, 33, 25, 17, 9, 1, 59, 51, 43, 35, 27, 19, 11, 3, 61, 53, 45, 37, 29, 21, 13, 5, 63, 55, 47, 39, 31, 23, 15, 7]

/-- The final permutation. -/
def desFp : List Nat :=
  [40, 8, 48, 16, 56, 24, 64, 32, 39, 7, 47, 15, 55, 23, 63, 31, 38, 6, 46, 14, 54, 22, 62, 30, 37, 5, 45, 13, 53, 21, 61, 29]
  ++ [36, 4, 44, 12, 52, 20, 60, 28, 35, 3, 43, 11, 51, 19, 59, 27, 34, 2, 42, 10, 50, 18, 58, 26, 33, 1, 41, 9, 49, 17, 57, 25]

/-- The expansion of a half block. -/
def desE : List Nat :=
  [32, 1, 2, 3, 4, 5, 4, 5, 6, 7, 8, 9, 8, 9, 10, 11, 12, 13, 12, 13, 14, 15, 16, 17]
  ++ [16, 17, 18, 19, 20, 21, 20, 21, 22, 23, 24, 25, 24, 25, 26, 27, 28, 29, 28, 29, 30, 31, 32, 1]

/-- The permutation after the S-boxes. -/
def desP : List Nat :=
  [16, 7, 20, 21, 29, 12, 28, 17, 1, 15, 23, 26, 5, 18, 31, 10, 2, 8, 24, 14, 32, 27, 3, 9, 19, 13, 30, 6, 22, 11, 4, 25]

/-- Permuted choice 1. -/
def desPc1 : List Nat :=
  [57, 49, 41, 33, 25, 17, 9, 1, 58, 50, 42, 34, 26, 18, 10, 2, 59, 51, 43, 35, 27, 19, 11, 3, 60, 52, 44, 36]
  ++ [63, 55, 47, 39, 31, 23, 15, 7, 62, 54, 46, 38, 30, 22, 14, 6, 61, 53, 45, 37, 29, 21, 13, 5, 28, 20, 12, 4]

/-- Permuted choice 2. -/
def desPc2 : List Nat :=
  [14, 17, 11, 24, 1, 5, 3, 28, 15, 6, 21, 10, 23, 19, 12, 4, 26, 8, 16, 7, 27, 20, 13, 2]
  ++ [41, 52, 31, 37, 47, 55, 30, 40, 51, 45, 33, 48, 44, 49, 39, 56, 34, 53, 46, 42, 50, 36, 29, 32]

/-- The S-boxes, each four rows of 16 as one number in hexadecimal digits. -/
def desS : List (List Nat) :=
  [[0xE4D12FB83A6C5907, 0x0F74E2D1A6CB9538, 0x41E8D62BFC973A50, 0xFC8249175B3EA06D]]
  ++ [[0xF18E6B34972DC05A, 0x3D47F28EC01A69B5, 0x0E7BA4D158C6932F, 0xD8A13F42B67C05E9]]
  ++ [[0xA09E63F51DC7B428, 0xD709346A285ECBF1, 0xD6498F30B12C5AE7, 0x1AD069874FE3B52C]]
  ++ [[0x7DE3069A1285BC4F, 0xD8B56F03472C1AE9, 0xA690CB7DF13E5284, 0x3F06A1D8945BC72E]]
  ++ [[0x2C417AB6853FD0E9, 0xEB2C47D150FA3986, 0x421BAD78F9C5630E, 0xB8C71E2D6F09A453]]
  ++ [[0xC1AF92680D34E75B, 0xAF427C9561DE0B38, 0x9EF528C3704A1DB6, 0x432C95FABE17608D]]
  ++ [[0x4B2EF08D3C975A61, 0xD0B7491AE35C2F86, 0x14BDC37EAF680592, 0x6BD814A7950FE23C]]
  ++ [[0xD2846FB1A93E50C7, 0x1FD8A374C56B0E92, 0x7B419CE206ADF358, 0x21E74A8DFC90356B]]

/-- One S-box on six bits: the row from the outer bits, the column from the inner ones. -/
def desBox (k v : Nat) : Nat :=
  let row := v / 32 * 2 + v % 2
  let col := v / 2 % 16
  (desS.getD k []).getD row 0 / 16 ^ (15 - col) % 16

/-- The round function. -/
def desF (r k : Nat) : Nat :=
  let x := (BitVec.ofNat 48 (permBits 32 desE r) ^^^ BitVec.ofNat 48 k).toNat
  permBits 32 desP ((List.range 8).foldl (fun a i => 16 * a + desBox i (x / 2 ^ (42 - 6 * i) % 64)) 0)

/-- The left rotation of the key halves in each round. -/
def desShifts : List Nat := [1, 1, 2, 2, 2, 2, 2, 2, 1, 2, 2, 2, 2, 2, 2, 1]

/-- The round keys from the two halves of 28 bits. -/
def desSchedule : List Nat → BitVec 28 → BitVec 28 → List Nat
  | [], _, _ => []
  | n :: r, c, d =>
    let c := c.rotateLeft n
    let d := d.rotateLeft n
    permBits 56 desPc2 (c.toNat * 2 ^ 28 + d.toNat) :: desSchedule r c d

/-- The round keys of a 64-bit key. -/
def desKeys (key : Nat) : List Nat :=
  let k := permBits 64 desPc1 key
  desSchedule desShifts (BitVec.ofNat 28 (k / 2 ^ 28)) (BitVec.ofNat 28 k)

/-- Sixteen rounds on the two halves, then their exchange. -/
def desRounds (ks : List Nat) (l r : Nat) : Nat × Nat :=
  ks.foldl (fun p k => (p.2, (BitVec.ofNat 32 p.1 ^^^ BitVec.ofNat 32 (desF p.2 k)).toNat)) (l, r)

/-- DES of a block under round keys in their order of use. -/
def desBlock (ks : List Nat) (v : Nat) : Nat :=
  let x := permBits 64 desIp v
  let y := desRounds ks (x / 2 ^ 32) (x % 2 ^ 32)
  permBits 64 desFp (y.2 * 2 ^ 32 + y.1)

/-- Single DES encryption. -/
def desEnc (key v : Nat) : Nat := desBlock (desKeys key) v

/-- Single DES decryption. -/
def desDec (key v : Nat) : Nat := desBlock (desKeys key).reverse v

/-- TDES encryption: encrypt, decrypt, encrypt. -/
def tdesEnc (k1 k2 k3 v : Nat) : Nat := desEnc k3 (desDec k2 (desEnc k1 v))

/-- TDES decryption. -/
def tdesDec (k1 k2 k3 v : Nat) : Nat := desDec k1 (desEnc k2 (desDec k3 v))

end Sys2Proof.Machine
end

