-- ==== Sys2Proof/Machine/CipherOps.lean ====
section
/-! DEFINITION. The key store's answers on the key bus, and the operations of the cipher pipes (14 R405 to R424). -/
namespace Sys2Proof.Machine

/-- A slot of the key store. -/
def slotOf (s : State) (n : Nat) : KeySlot := tabGet (fun _ => ({} : KeySlot)) s.keys.slots n

/-- A slot replaced. -/
def setSlot (s : State) (n : Nat) (k : KeySlot) : State :=
  { s with keys := { s.keys with slots := tabSet (fun _ => ({} : KeySlot)) s.keys.slots n k } }

/-- ALG of a slot's attributes (14 R407). -/
def attrAlg (a : Word) : Nat := bitsOf a 0 3
/-- PARCEL. -/
def attrParcel (a : Word) : Nat := bitsOf a 3 6
/-- USE: ENC, DEC, MAC, KDF, TVT from bit 0. -/
def attrUse (a : Word) : Nat := bitsOf a 9 5
/-- DUSE. -/
def attrDuse (a : Word) : Nat := bitsOf a 14 4

/-- A request answered from the slot (14 R409, R410): the check of the attributes, then RETIRED, then the draw, which
persists the next mark before the first value of its step. Answers: code, counter value. -/
def keyAnswerFresh (s : State) (slot : Nat) (draw : Bool) (chk : Word → Nat) : State × Nat × Nat :=
  let k := slotOf s slot
  if chk k.attrs ≠ 0 then (s, chk k.attrs, 0)
  else if k.retired then (s, 0x05, 0)
  else if !draw then (s, 0, 0)
  else if 2 ^ 64 ≤ k.ctr then (setSlot s slot { k with retired := true }, 0x06, 0)
  else
    let m := tabGet (fun _ => 0) s.keys.marks slot
    let s := if m ≤ k.ctr then { s with keys := { s.keys with marks := tabSet (fun _ => 0) s.keys.marks slot (m + 2 ^ 20) } } else s
    (setSlot s slot { k with ctr := k.ctr + 1 }, 0, k.ctr)

/-- A key-bus transaction of a unit (14 R408, R409): the unit's KSEQ counts on; the request of the other unit with the
same KSEQ is answered from the log; a different slot or kind is KEYBUS and an event of KEY_SEQ. -/
def keyBus (s : State) (u : UnitId) (slot : Nat) (load draw : Bool) (chk : Word → Nat) : State × KeyAns :=
  let q := (getUnit s u).cph.kseq
  let s := modUnit s u (fun x => { x with cph := { x.cph with kseq := q + 1 } })
  match s.keys.log.find? (fun a => a.kseq == q && decide (a.taker ≠ u)) with
  | some a =>
    let s := { s with keys := { s.keys with log := s.keys.log.filter (fun b => b.kseq ≠ q) } }
    if a.slot = slot ∧ a.load = load ∧ a.draw = draw then (s, a)
    else (raiseUnitFree s u 0x20A, { a with code := 0x0C })
  | none =>
    let (s, code, ctr) := keyAnswerFresh s slot draw chk
    let k := slotOf s slot
    let a : KeyAns :=
      { kseq := q, slot := slot, load := load, draw := draw, code := code, ctr := ctr, attrs := k.attrs, key := k.key, taker := u }
    (if isLevelled s then { s with keys := { s.keys with log := s.keys.log ++ [a] } } else s, a)

/-- The hidden key of an answer (14 R411). -/
def hiddenOf (a : KeyAns) : HiddenKey :=
  { key := a.key, alg := attrAlg a.attrs, use := BitVec.ofNat 5 (attrUse a.attrs), duse := BitVec.ofNat 4 (attrDuse a.attrs)
    extIv := bitOf a.attrs 18, fixed := BitVec.ofNat 32 (bitsOf a.attrs 32 32), slot := a.slot, derived := false, retired := false }

/-- The bytes of a key of an algorithm, from its left end. -/
def keyBytes (alg : Nat) (k : BitVec 256) : List Byte :=
  (beBytes 32 k.toNat).take (if alg = 1 ∨ alg = 4 then 16 else if alg = 2 ∨ alg = 5 then 24 else 32)

/-- A cipher page. -/
def pageOf (x : UnitState) (p : Nat) : CphPage := tabGet (fun _ => ({} : CphPage)) x.cph.pages p

/-- A cipher page replaced. -/
def setPage (x : UnitState) (p : Nat) (g : CphPage) : UnitState :=
  { x with cph := { x.cph with pages := tabSet (fun _ => ({} : CphPage)) x.cph.pages p g } }

/-- A cipher page changed. -/
def modPage (x : UnitState) (p : Nat) (f : CphPage → CphPage) : UnitState := setPage x p (f (pageOf x p))

/-- The fields of a latched command (14 R414), taken from its ten words. -/
structure CphCmd where
  mode : Nat
  seg : Nat
  loadKey : Bool
  devIv : Bool
  verify : Bool
  irq : Bool
  pad : Bool
  slot : Nat
  ctx : Nat
  tagLen : Nat
  vec : Nat
  src : Nat
  dst : Nat
  len : Nat
  aux : Nat
  auxLen : Nat
  tpage : Nat
  dlen : Nat
  iv : Quad
  tagAddr : Nat
  cpl : Nat
  reserved : Bool

/-- A latched command decoded. -/
def cphCmd (ws : List Word) : CphCmd :=
  let w := fun k => ws.getD k (0 : Word)
  { mode := bitsOf (w 0) 0 4, seg := bitsOf (w 0) 4 2, loadKey := bitOf (w 0) 6, devIv := bitOf (w 0) 7
    verify := bitOf (w 0) 8, irq := bitOf (w 0) 9, pad := bitOf (w 0) 10, slot := bitsOf (w 0) 16 14
    ctx := bitsOf (w 0) 32 16, tagLen := bitsOf (w 0) 48 5, vec := bitsOf (w 0) 56 8
    src := bitsOf (w 1) 0 52, dst := bitsOf (w 2) 0 52, len := bitsOf (w 3) 0 33, aux := bitsOf (w 4) 0 52
    auxLen := bitsOf (w 5) 0 32, tpage := bitsOf (w 5) 32 10, dlen := bitsOf (w 5) 42 2
    iv := (w 6) ++ (w 7), tagAddr := bitsOf (w 8) 0 52, cpl := bitsOf (w 9) 0 52
    reserved := bitsOf (w 0) 11 5 ≠ 0 || bitsOf (w 0) 30 2 ≠ 0 || bitsOf (w 0) 53 3 ≠ 0 || bitsOf (w 1) 52 12 ≠ 0
      || bitsOf (w 2) 52 12 ≠ 0 || bitsOf (w 3) 33 31 ≠ 0 || bitsOf (w 4) 52 12 ≠ 0 || bitsOf (w 5) 44 20 ≠ 0
      || bitsOf (w 8) 52 12 ≠ 0 || bitsOf (w 9) 52 12 ≠ 0 }

/-- The mode's algorithm is TDES (14 R405). -/
def modeTdes (m : Nat) : Bool := decide (8 ≤ m)

/-- The lengths of tags that a mode admits (14 R414). -/
def tagLenOk (m n : Nat) : Bool :=
  if m = 4 ∨ m = 5 then decide (12 ≤ n ∧ n ≤ 16) else if m = 6 then decide (8 ≤ n ∧ n ≤ 16)
  else if m = 12 then decide (4 ≤ n ∧ n ≤ 8) else true

/-- The command continues a context (14 R418). -/
def contSeg (c : CphCmd) : Bool := decide (2 ≤ c.seg)

/-- The open context of a page fits a MIDDLE or LAST segment (14 R418). -/
def ctxFits (g : CphPage) (c : CphCmd) : Bool :=
  match g.ctx with
  | none => false
  | some k => decide (k.mode = c.mode) && decide (k.slot = c.slot)

/-- The checks of a command before any key is loaded: OWNER, LOCKED, BAD_CMD, IV (14 R412, R414, R416, R418, R421,
R425). -/
def cphCheck (x : UnitState) (p : Nat) (g : CphPage) (c : CphCmd) : Nat :=
  match g.owner with
  | none => 0x02
  | some (par, ctx) =>
    if c.ctx ≠ ctx.toNat ∧ !g.noCtx then 0x02
    else if x.cph.lockEn ∧ x.cph.lockPage ≠ p then 0x03
    else if c.reserved ∨ 12 < c.mode ∨ 2 ^ 32 < c.len ∨ c.cpl % 32 ≠ 0 ∨ !tagLenOk c.mode c.tagLen then 0x01
    else if !c.loadKey ∧ g.key.isNone then 0x01
    else if contSeg c ∧ !ctxFits g c then 0x01
    else if c.mode = 7 ∧ (c.seg ≠ 0 ∨ 256 < c.auxLen ∨ c.dlen = 3) then 0x01
    else if c.mode = 7 ∧ (let t := pageOf x c.tpage; t.owner ≠ some (par, ctx) ∨ t.busy ∨ c.tpage = p) then 0x01
    else if c.devIv ∧ (c.mode ≠ 4 ∧ c.mode ≠ 3 ∧ c.mode ≠ 1) then 0x07
    else if c.devIv ∧ !c.loadKey ∧ (g.key.elim false (fun k => k.derived)) then 0x07
    else 0

/-- The command draws a device IV (14 R416). -/
def cphDraws (c : CphCmd) : Bool := c.devIv && decide (c.seg < 2)

/-- Algorithm and use rules of a command against a key's attributes (14 R407, R417): 0, IV, or KEY_DENIED. -/
def useCode (c : CphCmd) (alg : Nat) (use : BitVec 5) (extIv : Bool) : Nat :=
  let enc := bitOf use 0
  let dec := bitOf use 1
  let algOk := if c.mode = 0 then decide (1 ≤ alg ∧ alg ≤ 5) else if modeTdes c.mode then decide (alg = 4 ∨ alg = 5)
    else decide (1 ≤ alg ∧ alg ≤ 3)
  let useOk := match c.mode with
    | 0 => true
    | 1 | 4 | 8 | 10 => enc
    | 2 | 5 | 9 | 11 => dec
    | 3 => if c.devIv then enc else dec || (enc && extIv)
    | 6 | 12 => bitOf use 2
    | _ => bitOf use 3
  if !algOk || !useOk then 0x04
  else if (c.mode = 1 ∨ c.mode = 4 ∨ c.mode = 10) ∧ !c.devIv ∧ !extIv then 0x07 else 0

/-- Length rules (14 R419); `before` is the message's length so far. -/
def lenCode (c : CphCmd) (before aad : Nat) : Nat :=
  let blk := if modeTdes c.mode then 8 else 16
  let final := c.seg = 0 ∨ c.seg = 3
  if (c.mode = 4 ∨ c.mode = 5) ∧ (2 ^ 32 - 2 < (before + c.len + 15) / 16 ∨ 2 ^ 32 - 1 < aad) then 0x08
  else if (c.mode = 6 ∨ c.mode = 12) ∧ 2 ^ 32 < before + c.len then 0x08
  else if (c.mode = 1 ∨ c.mode = 2 ∨ (8 ≤ c.mode ∧ c.mode ≤ 11)) ∧ c.len % blk ≠ 0 then 0x08
  else if (3 ≤ c.mode ∧ c.mode ≤ 6 ∨ c.mode = 12) ∧ ¬ final ∧ c.len % blk ≠ 0 then 0x08
  else 0

/-- A list of bytes in blocks of 8, the last of 1 to 8 bytes; `n` bounds them. -/
def blocks8 : Nat → List Byte → List (List Byte)
  | 0, _ => []
  | n + 1, l => if l.isEmpty then [] else l.take 8 :: blocks8 n (l.drop 8)

/-- The three DES keys of a key (14 R405): two-key TDES repeats K1. -/
def desTriple (alg : Nat) (k : BitVec 256) : Nat × Nat × Nat :=
  let b := keyBytes alg k
  let k1 := beNat (b.take 8)
  (k1, beNat ((b.drop 8).take 8), if alg = 4 then k1 else beNat ((b.drop 16).take 8))

/-- TDES on a block as bytes. -/
def tdesBytes (dec : Bool) (alg : Nat) (k : BitVec 256) (b : List Byte) : List Byte :=
  let t := desTriple alg k
  beBytes 8 (if dec then tdesDec t.1 t.2.1 t.2.2 (beNat b) else tdesEnc t.1 t.2.1 t.2.2 (beNat b))

/-- The context a FIRST or ONLY segment starts with (14 R416, R418). -/
def freshCtx (c : CphCmd) (k : HiddenKey) (drawn : Nat) : CphCtx :=
  let ks := aesKeys (keyBytes k.alg k.key)
  let dev : Quad := (k.fixed ++ BitVec.ofNat 64 drawn) ++ (0 : BitVec 32)
  let iv0 : Quad := if c.devIv then dev else c.iv
  let iv : Quad :=
    if c.mode = 1 ∧ c.devIv then BitVec.ofNat 128 (beNat (aesEncK ks (beBytes 16 dev.toNat)))
    else if c.mode = 3 ∧ c.devIv then withBits dev 0 32 1
    else if c.mode = 4 ∨ c.mode = 5 then withBits iv0 0 32 2
    else iv0
  { mode := c.mode, slot := c.slot, iv := iv, acc := 0, aadLen := 0, len := 0, held := [], devIv := c.devIv
    ivWords := if c.mode = 1 ∧ c.devIv then iv else if c.mode = 3 ∧ c.devIv then iv else if c.devIv then dev else 0
    tagMask := if c.mode = 4 ∨ c.mode = 5 then BitVec.ofNat 128 (beNat (aesEncK ks (beBytes 16 (withBits iv0 0 32 1).toNat))) else 0 }

/-- A serial MAC over data: every whole block but the last is chained, the last 1 to `blk` bytes are held back. -/
def macFeed (blk : Nat) (enc : List Byte → List Byte) (acc : Quad) (held d : List Byte) : Quad × List Byte :=
  let all := held ++ d
  let n := if all.isEmpty then 0 else (all.length - 1) / blk
  let w := if blk = 16 then 16 else 8
  let step := fun (a : Quad) (b : List Byte) => BitVec.ofNat 128 (beNat (enc (xorBytes (beBytes w a.toNat) b)))
  (((if blk = 16 then blocksOf n all else blocks8 n all)).foldl step acc, all.drop (n * blk))

/-- One segment's data through the pipe of its mode: the output and the context after it (14 R405, R418). -/
def pipeRun (c : CphCmd) (k : HiddenKey) (t : CphCtx) (d : List Byte) : List Byte × CphCtx :=
  let ks := aesKeys (keyBytes k.alg k.key)
  let n := d.length + 1
  let q := fun (b : List Byte) => BitVec.ofNat 128 (beNat b)
  let t' := { t with len := t.len + d.length }
  match c.mode with
  | 1 =>
    let o := cbcEnc (aesEncK ks) (beBytes 16 t.iv.toNat) (blocksOf n d)
    (o.reverse.flatten, { t' with iv := if o.isEmpty then t.iv else q (o.headD []) })
  | 2 =>
    let bs := blocksOf n d
    ((cbcDec (aesDecK ks) (beBytes 16 t.iv.toNat) bs).flatten, { t' with iv := if bs.isEmpty then t.iv else q (bs.getLastD []) })
  | 3 => (ctrOver ks (fun i j => i + BitVec.ofNat 128 j) t.iv d, { t' with iv := t.iv + BitVec.ofNat 128 ((d.length + 15) / 16) })
  | 4 =>
    let h := q (aesEncK ks (List.replicate 16 0))
    let o := ctrOver ks incCtr t.iv d
    (o, { t' with iv := incCtr t.iv ((d.length + 15) / 16), acc := ghashOver h t.acc o })
  | 5 =>
    let h := q (aesEncK ks (List.replicate 16 0))
    (ctrOver ks incCtr t.iv d, { t' with iv := incCtr t.iv ((d.length + 15) / 16), acc := ghashOver h t.acc d })
  | 6 =>
    let r := macFeed 16 (aesEncK ks) t.acc t.held d
    ([], { t' with acc := r.1, held := r.2 })
  | 8 => ((blocks8 n d).flatMap (tdesBytes false k.alg k.key), t')
  | 9 => ((blocks8 n d).flatMap (tdesBytes true k.alg k.key), t')
  | 10 =>
    let o := cbcEnc (tdesBytes false k.alg k.key) (beBytes 8 (t.iv.toNat / 2 ^ 64)) (blocks8 n d)
    (o.reverse.flatten, { t' with iv := if o.isEmpty then t.iv else q (o.headD []) <<< 64 })
  | 11 =>
    let bs := blocks8 n d
    ((cbcDec (tdesBytes true k.alg k.key) (beBytes 8 (t.iv.toNat / 2 ^ 64)) bs).flatten
      , { t' with iv := if bs.isEmpty then t.iv else q (bs.getLastD []) <<< 64 })
  | 12 =>
    let r := macFeed 8 (fun b => beBytes 8 (desEnc (desTriple k.alg k.key).1 (beNat b))) t.acc t.held d
    ([], { t' with acc := r.1, held := r.2 })
  | _ => ([], t')

/-- The last block of MAC algorithm 3 padded: method 1 with zeros to a whole block, method 2 with 0x80 and zeros
(14 R405, R422). -/
def mac3Pad (pad : Bool) (held : List Byte) : List (List Byte) :=
  let p := if pad then held ++ [0x80] else held
  let p := p ++ List.replicate ((8 - p.length % 8) % 8) 0
  blocks8 3 (if p.isEmpty then List.replicate 8 0 else p)

/-- The tag of a message at LAST or ONLY (14 R405, R420, R422). -/
def pipeTag (c : CphCmd) (k : HiddenKey) (t : CphCtx) : List Byte :=
  let ks := aesKeys (keyBytes k.alg k.key)
  match c.mode with
  | 4 | 5 =>
    let h := BitVec.ofNat 128 (beNat (aesEncK ks (List.replicate 16 0)))
    let g := ghashStep h t.acc (beBytes 8 (8 * t.aadLen) ++ beBytes 8 (8 * t.len))
    beBytes 16 (g ^^^ t.tagMask).toNat
  | 6 => cmacLast ks (beBytes 16 t.acc.toNat) t.held
  | 12 =>
    let d := desTriple k.alg k.key
    let a := (mac3Pad c.pad t.held).foldl (fun a b => desEnc d.1 (beNat (xorBytes (beBytes 8 a) b))) t.acc.toNat
    beBytes 8 (desEnc d.1 (desDec d.2.1 a))
  | _ => []

/-- The key check value of a key: three bytes (14 R422). -/
def kcvOf (alg : Nat) (key : BitVec 256) : List Byte :=
  (if alg = 4 ∨ alg = 5 then tdesBytes false alg key (List.replicate 8 0)
    else aesEnc (keyBytes alg key) (List.replicate 16 0)).take 3

/-- The bits of a derived key (14 R421). -/
def dlenBits (n : Nat) : Nat := 128 + 64 * n

/-- The key that AES_KDF derives (14 R421), left-aligned in 256 bits. -/
def kdfKey (k : HiddenKey) (fi : List Byte) (l : Nat) : BitVec 256 :=
  let key := keyBytes k.alg k.key
  let part := fun (i : Nat) => aesCmacOf key (beBytes 4 i ++ fi ++ beBytes 4 l)
  let out := ((List.range ((l + 127) / 128)).flatMap (fun i => part (i + 1))).take (l / 8)
  BitVec.ofNat 256 (beNat (out ++ List.replicate (32 - out.length) 0))

/-- The completion record of a command (14 R423). -/
def cphDone (c : CphCmd) (code : Nat) (full : Bool) (ivDev : Bool) (doneLen : Nat) (w2 w3 : Word) : CphDone :=
  { code := BitVec.ofNat 8 code, trust := decide (code = 0), ivDev := ivDev, doneLen := doneLen, w2 := w2, w3 := w3
    full := full, cpl := c.cpl, irq := c.irq, vec := BitVec.ofNat 8 c.vec }

/-- An error ends the command and the context (14 R418, R423); a command of another owner (R412), and a MIDDLE or LAST segment that
no context fits, leave the context as it is. -/
def cphFail (x : UnitState) (p : Nat) (c : CphCmd) (code : Nat) : UnitState :=
  modPage x p (fun g => { g with
    done := some (cphDone c code false false 0 0 0), waitKey := false, keyDone := false
    ctx := if code = 0x02 ∨ (code = 0x01 ∧ contSeg c ∧ !ctxFits g c) then g.ctx else none })

/-- The tag written, or compared, at the end of a message: the code (14 R420). -/
def cphTag (x : UnitState) (par : Nat) (c : CphCmd) (tag : List Byte) : UnitState × Nat × DmaRes :=
  let tag := tag.take c.tagLen
  if c.mode = 5 ∨ (c.verify ∧ c.mode ≠ 4) then
    match dmaRead x 72 par c.tagAddr c.tagLen with
    | (x, bs, .ok) => (x, if bs = tag then 0 else 0x09, .ok)
    | (x, _, .poison) => (x, 0x0A, .poison)
    | (x, _, .tag) => (x, 0x0B, .tag)
    | (x, _, .wait) => (x, 0, .wait)
  else
    match dmaWrite x 72 par c.tagAddr tag with
    | (x, .ok) => (x, 0, .ok)
    | (x, .wait) => (x, 0, .wait)
    | (x, _) => (x, 0x0B, .tag)

/-- The additional data of a GCM message (14 R414): its GHASH, or the code that ends the command. -/
def cphAad (x : UnitState) (par : Nat) (c : CphCmd) (k : HiddenKey) (t : CphCtx) : UnitState × CphCtx × Nat × DmaRes :=
  if (c.mode = 4 ∨ c.mode = 5) ∧ c.seg < 2 then
    match dmaRead x 72 par c.aux c.auxLen with
    | (x, bs, .ok) =>
      let h := BitVec.ofNat 128 (beNat (aesEnc (keyBytes k.alg k.key) (List.replicate 16 0)))
      (x, { t with acc := ghashOver h 0 bs, aadLen := bs.length }, 0, .ok)
    | (x, _, .poison) => (x, t, 0x0A, .poison)
    | (x, _, .tag) => (x, t, 0x0B, .tag)
    | (x, _, .wait) => (x, t, 0, .wait)
  else (x, t, 0, .ok)

/-- The code of an input that ended early. -/
def dmaCode : DmaRes → Nat
  | .ok => 0
  | .wait => 0
  | .poison => 0x0A
  | .tag => 0x0B

/-- KDF, once its checks have passed (14 R421). -/
def cphKdf (x : UnitState) (p par : Nat) (c : CphCmd) (k : HiddenKey) : Option UnitState :=
  match dmaRead x 72 par c.aux c.auxLen with
  | (_, _, .wait) => none
  | (x, fi, .ok) =>
    let l := dlenBits c.dlen
    let d : HiddenKey :=
      { key := kdfKey k fi l, alg := 1 + c.dlen, use := k.duse.setWidth 5, duse := 0, extIv := k.extIv, fixed := k.fixed
        slot := k.slot, derived := true, retired := false }
    let x := modPage x c.tpage (fun g => { g with key := some d, ctx := none })
    some (modPage x p (fun g => { g with done := some (cphDone c 0 true false 0 0 0), keyDone := false, ctx := none }))
  | (x, _, r) => some (cphFail x p c (dmaCode r))

/-- A command's data through its pipe: input by the 4 KiB chunk, output, tag, completion. None while an access waits at its
home. -/
def cphData (x : UnitState) (p par : Nat) (c : CphCmd) (k : HiddenKey) (t : CphCtx) : Option UnitState :=
  match cphAad x par c k t with
  | (_, _, _, .wait) => none
  | (x, t, code, _) =>
    if code ≠ 0 then some (cphFail x p c code) else
    match dmaRead x 72 par c.src c.len with
    | (_, _, .wait) => none
    | (x, d, r) =>
      let d := if r = .poison then d.take (alignDown d.length 4096)
        else if r = .tag then d.take (alignDown d.length (if modeTdes c.mode then 8 else 16)) else d
      let (o, t) := pipeRun c k t d
      match dmaWrite x 72 par c.dst o with
      | (_, .wait) => none
      | (x, wr) =>
        let code := if wr ≠ .ok then 0x0B else dmaCode r
        let final := c.seg = 0 ∨ c.seg = 3
        let tagged := c.mode = 4 ∨ c.mode = 5 ∨ c.mode = 6 ∨ c.mode = 12
        let ivd := t.devIv && decide (c.seg < 2)
        let fin := fun (x : UnitState) (code : Nat) =>
          some (modPage x p (fun g => { g with
            done := some (cphDone c code true ivd d.length (BitVec.ofNat 64 (if ivd then t.ivWords.toNat / 2 ^ 64 else 0))
              (BitVec.ofNat 64 (if ivd then t.ivWords.toNat else 0)))
            keyDone := false, ctx := if code ≠ 0 ∨ final then none else some t }))
        if code ≠ 0 ∨ ¬ (final ∧ tagged) then fin x code else
        match cphTag x par c (pipeTag c k t) with
        | (_, _, .wait) => none
        | (x, code, _) => fin x code

/-- A command that holds its key is processed (14 R416 to R422). None while an access waits. -/
def cphProcess (x : UnitState) (p : Nat) (g : CphPage) (c : CphCmd) : Option UnitState :=
  match g.key, g.owner with
  | some k, some (par, _) =>
    let u := useCode c k.alg k.use k.extIv
    let x := if c.seg < 2 then modPage x p (fun g => { g with ctx := none }) else x
    let t := if c.seg < 2 then freshCtx c k g.drawn else g.ctx.getD (freshCtx c k g.drawn)
    if u ≠ 0 then some (cphFail x p c u)
    else if c.mode = 0 then
      let v := BitVec.ofNat 64 (beNat (kcvOf k.alg k.key) * 2 ^ 40)
      some (modPage x p (fun g => { g with done := some (cphDone c 0 true false 0 v 0), keyDone := false }))
    else if c.mode = 7 then cphKdf x p par.toNat c k
    else
      let l := lenCode c t.len c.auxLen
      if l ≠ 0 then some (cphFail x p c l) else cphData x p par.toNat c k t
  | _, _ => some (cphFail x p c 0x01)

/-- The page latches a command (14 R413 GO): while BUSY it is ignored and OVR set. -/
def cphGo (x : UnitState) (p : Nat) : UnitState :=
  modPage x p (fun g =>
    if g.busy then { g with ovr := true }
    else { g with cmd := g.args.toList, busy := true, done := none, waitKey := false, keyDone := false, drawn := 0, noCtx := false })

/-- A latched command goes on as far as it can: its checks, the key bus, its processing. -/
def cphRun (x : UnitState) (p : Nat) : UnitState :=
  let g := pageOf x p
  if !g.busy || g.done.isSome || g.waitKey then x else
  let c := cphCmd g.cmd
  let code := if g.keyDone then 0 else cphCheck x p g c
  if code ≠ 0 then cphFail x p c code
  else if !g.keyDone && (c.loadKey || cphDraws c) then
    let x := modPage x p (fun g => { g with waitKey := true })
    { x with cph := { x.cph with keyQ := x.cph.keyQ ++
      [{ page := p, slot := (if c.loadKey then c.slot else (g.key.elim 0 (fun k => k.slot))), load := c.loadKey, draw := cphDraws c }] } }
  else (cphProcess x p g c).getD x

/-- A command row of a mode: GO where the page is idle and its words name the mode; then the command of that mode goes
on. -/
def cphMode (s : State) (u : UnitId) (p : Fin 1024) (mode : Nat) : State :=
  modUnit s u (fun x =>
    let g := pageOf x p.val
    if g.busy then (if (cphCmd g.cmd).mode = mode then cphRun x p.val else x)
    else if bitsOf (g.args.toList.getD 0 0) 0 4 = mode then cphRun (cphGo x p.val) p.val else x)

/-- What the key store checks of a page's request (14 R407, R417). -/
def cphPermit (par : Nat) (c : CphCmd) (a : Word) : Nat :=
  if attrParcel a ≠ par then 0x04 else useCode c (attrAlg a) (BitVec.ofNat 5 (attrUse a)) (bitOf a 18)

/-- A TVT key cache entry filled for a station (14 R411, 06 R182): an AES key of the parcel with USE TVT. -/
def tvtPermit (par : Nat) (a : Word) : Nat :=
  if attrParcel a = par ∧ 1 ≤ attrAlg a ∧ attrAlg a ≤ 3 ∧ (attrUse a).testBit 4 then 0 else 0x04

end Sys2Proof.Machine
end

