-- ==== Sys2Proof/Machine/Frames.lean ====
section
/-! DEFINITION. The bytes of TVT segments, datagrams, native messages and flits (06 R178, R183, R186, R198, R202). -/
namespace Sys2Proof.Machine

/-- The body of INIT, INIT_ACK and READY (06 R186). -/
def bodyBytes (b : HsBody) : List Byte :=
  beBytes 8 b.myConn.toNat ++ beBytes 8 b.nextExp.toNat ++ beBytes 8 b.firstUnacked.toNat ++ beBytes 8 b.nextSend.toNat
    ++ beBytes 4 b.target.toNat ++ beBytes 4 (bit b.resume) ++ beBytes 8 b.nonce.toNat

/-- The SACK block of a segment (06 R183); none where it is empty. -/
def sackBytes (l : List (Nat × Nat)) : List Byte :=
  if l.isEmpty then [] else
  beBytes 1 l.length ++ List.replicate 7 0 ++ l.flatMap (fun r => beBytes 8 r.1 ++ beBytes 8 r.2)

/-- The code of a segment type (06 R183). -/
def segCode : SegType → Nat
  | .data => 0
  | .ack => 1
  | .init => 2
  | .initAck => 3
  | .ready => 4
  | .close => 5
  | .closeAck => 6
  | .probe => 7

/-- The payload of a segment: its message bytes, or its body. -/
def segPayload (g : Segment) : List Byte := match g.body with | none => g.payload | some b => bodyBytes b

/-- The TVT bytes ahead of CHECK (06 R183). -/
def tvtBytes (t : SegType) (g : Segment) : List Byte :=
  let p := segPayload g
  beBytes 1 (g.ver.toNat * 16 + segCode t)
    ++ beBytes 1 (bit g.ackv + 2 * bit (!g.sack.isEmpty) + 4 * bit g.last + 8 * bit g.retx)
    ++ beBytes 2 p.length ++ beBytes 4 g.wnd ++ beBytes 8 g.connId.toNat ++ beBytes 8 g.seq ++ beBytes 8 g.ack
    ++ beBytes 4 g.moff ++ beBytes 4 g.mlen ++ sackBytes g.sack ++ p

/-- The ones' complement sum of 16-bit words over bytes. -/
def ipSum : List Byte → Nat
  | [] => 0
  | [a] => a.toNat * 256
  | a :: b :: r => a.toNat * 256 + b.toNat + ipSum r

/-- The Internet checksum of a sum. -/
def ipFold (n : Nat) : Nat :=
  let a := n % 65536 + n / 65536
  let b := a % 65536 + a / 65536
  65535 - (b % 65536 + b / 65536)

/-- A UDP checksum as sent: never zero (06 R178). -/
def udpCheck (n : Nat) : Nat := if ipFold n = 0 then 65535 else ipFold n

/-- A UDP datagram with its pseudo-header sum added (06 R178). -/
def udpBytes (pseudo sport dport : Nat) (p : List Byte) : List Byte :=
  let h := beBytes 2 sport ++ beBytes 2 dport ++ beBytes 2 (8 + p.length)
  h ++ beBytes 2 (udpCheck (pseudo + ipSum (h ++ [0, 0] ++ p))) ++ p

/-- An IPv4 packet with UDP: DF = 1, TTL 64 (06 R178). -/
def ip4Bytes (tos src dst sport dport : Nat) (p : List Byte) : List Byte :=
  let a := beBytes 4 src
  let b := beBytes 4 dst
  let u := udpBytes (ipSum a + ipSum b + 17 + 8 + p.length) sport dport p
  let h := beBytes 1 0x45 ++ beBytes 1 tos ++ beBytes 2 (20 + u.length) ++ [0, 0, 0x40, 0, 64, 17]
  h ++ beBytes 2 (ipFold (ipSum h + ipSum a + ipSum b)) ++ a ++ b ++ u

/-- An IPv6 packet with UDP: flow label 0, hop limit 64 (06 R178). -/
def ip6Bytes (tc src dst sport dport : Nat) (p : List Byte) : List Byte :=
  let a := beBytes 16 src
  let b := beBytes 16 dst
  let u := udpBytes (ipSum a + ipSum b + 17 + 8 + p.length) sport dport p
  beBytes 4 (6 * 2 ^ 28 + tc * 2 ^ 20) ++ beBytes 2 u.length ++ [17, 64] ++ a ++ b ++ u

/-- An Ethernet frame without FCS: addresses, an 802.1Q tag where the path has one, the packet (06 R204). -/
def ethBytes (dst src : BitVec 48) (tag : Option (BitVec 12)) (v6 : Bool) (p : List Byte) : List Byte :=
  beBytes 6 dst.toNat ++ beBytes 6 src.toNat
    ++ (match tag with | none => [] | some v => beBytes 2 0x8100 ++ beBytes 2 v.toNat)
    ++ beBytes 2 (if v6 then 0x86DD else 0x0800) ++ p

/-- A flit as a unit emits it: the 16-byte header with LLSEQ zero, and 232 payload bytes (06 R198). -/
def flitBytes (ctl first last : Bool) (dst src : BitVec 16) (dstn srcn : BitVec 20) (p : List Byte) : List Byte :=
  beBytes 1 (if ctl then 2 else 1) ++ beBytes 1 (bit first + 2 * bit last + 4 * bit ctl) ++ [0, 0]
    ++ beBytes 2 dst.toNat ++ beBytes 2 src.toNat ++ beBytes 3 dstn.toNat ++ beBytes 3 srcn.toNat
    ++ beBytes 1 p.length ++ [0] ++ p ++ List.replicate (232 - p.length) 0

/-- The message header of a native message (06 R198). -/
def nativeHeader (g : Segment) : List Byte :=
  beBytes 8 g.seq ++ beBytes 8 g.ack ++ beBytes 4 g.mlen ++ beBytes 4 g.wnd ++ beBytes 4 (bit g.ackv) ++ [0, 0, 0, 0]

/-- The flits of a native DATA message. `n` bounds them. -/
def dataFlits (dst src : BitVec 16) (dstn srcn : BitVec 20) : Nat → Bool → List Byte → List (List Byte)
  | 0, _, _ => []
  | n + 1, first, p =>
    if p.length ≤ 232 then [flitBytes false first true dst src dstn srcn p]
    else flitBytes false first false dst src dstn srcn (p.take 232) :: dataFlits dst src dstn srcn n false (p.drop 232)

/-- The flits that carry a native segment (06 R198, R202): a DATA message, or one CTL flit with its subtype and its body or
message header (log 41). -/
def nativeFlits (t : SegType) (g : Segment) (dst src : BitVec 16) (dstn srcn : BitVec 20) : List (List Byte) :=
  match t with
  | .data =>
    let p := nativeHeader g ++ g.payload
    dataFlits dst src dstn srcn (p.length / 232 + 1) true p
  | _ =>
    let p := beBytes 4 (segCode t) ++ (match g.body with | some b => bodyBytes b | none => nativeHeader g)
    [flitBytes true true true dst src dstn srcn p]

end Sys2Proof.Machine
end

