-- ==== Sys2Proof/Machine/StnOps.lean ====
section
/-! DEFINITION. Stations: descriptor, rings, completions, slots, paths, emission of segments (05 R131 to R146, 06 R177 to R206).
An operation that answers none waits at the home of a line for a transaction (09 R287); its command then changes nothing. -/
namespace Sys2Proof.Machine

/-- A station. -/
def stnOf (x : UnitState) (n : Nat) : Station := tabGet (fun _ => ({} : Station)) x.trv.stations n

/-- A station replaced. -/
def setStn (x : UnitState) (n : Nat) (t : Station) : UnitState :=
  { x with trv := { x.trv with stations := tabSet (fun _ => ({} : Station)) x.trv.stations n t } }

/-- A station changed. -/
def modStn (x : UnitState) (n : Nat) (f : Station → Station) : UnitState := setStn x n (f (stnOf x n))

/-- A station of the module's state. -/
def stnS (s : State) (u : UnitId) (n : Nat) : Station := stnOf (getUnit s u) n

/-- A station changed in a unit. -/
def modS (s : State) (u : UnitId) (n : Nat) (f : Station → Station) : State := modUnit s u (fun x => modStn x n f)

/-- A station's connection changed. -/
def modConn (s : State) (u : UnitId) (n : Nat) (f : Conn → Conn) : State := modS s u n (fun t => { t with conn := f t.conn })

/-- Word `k` of a station's descriptor (05 R132). -/
def dW (t : Station) (k : Nat) : Word := t.desc.getD k 0
/-- TRANSPORT. -/
def stnTransport (t : Station) : Nat := bitsOf (dW t 0) 2 2
/-- JMODE. -/
def stnJmode (t : Station) : Nat := bitsOf (dW t 0) 4 2
/-- MSINK. -/
def stnMsink (t : Station) : Bool := bitOf (dW t 0) 6
/-- PARCEL. -/
def stnParcel (t : Station) : Nat := bitsOf (dW t 0) 8 6
/-- The duplicate window, 2^(6 + DUPWIN). -/
def stnWindow (t : Station) : Nat := 2 ^ (6 + bitsOf (dW t 0) 14 4)
/-- BOOK. -/
def stnBook (t : Station) : Nat := bitsOf (dW t 0) 18 8
/-- DUPAGE in chains. -/
def stnDupage (t : Station) : Nat := bitsOf (dW t 0) 32 16 * 1024
/-- PATHGRP. -/
def stnGroup (t : Station) : Nat := bitsOf (dW t 0) 48 12
/-- The base of a ring word. -/
def ringBase (w : Word) : Nat := bitsOf w 12 40 * 4096
/-- SIZE of a ring word. -/
def ringLog (w : Word) : Nat := bitsOf w 52 5
/-- The engine of a station (05 R129). -/
def stnEng (n : Nat) : Nat := n / 4096
/-- The agent position of the cluster that serves a station. -/
def stnAgent (n : Nat) : Nat := 56 + n / 65536
/-- The station is journalled. -/
def stnJournal (t : Station) : Bool := stnJmode t != 0
/-- Word `k` of the TVT peer entry (06 R182). -/
def peerW (t : Station) (k : Nat) : Word := t.peer.getD k 0

/-- IN_NEXT: from the mark, or the running state in JMODE NONE. -/
def inNextOf (x : UnitState) (n : Nat) (t : Station) : Nat := if stnJournal t then (markWord x n 1).toNat else t.inNext
/-- OUT_NEXT. -/
def outNextOf (x : UnitState) (n : Nat) (t : Station) : Nat := if stnJournal t then (markWord x n 2).toNat else t.outNext
/-- OUT_ACKED. -/
def outAckedOf (x : UnitState) (n : Nat) (t : Station) : Nat := if stnJournal t then (markWord x n 3).toNat else t.outAcked

/-- The three sequence numbers of a station set: one 32-byte write of its mark, or the running state. -/
def setSeqs (x : UnitState) (n i o a : Nat) : UnitState :=
  let t := stnOf x n
  if stnJournal t then
    markPut x n (fun k w => if k = 1 then BitVec.ofNat 64 i else if k = 2 then BitVec.ofNat 64 o else if k = 3 then BitVec.ofNat 64 a else w)
  else setStn x n { t with inNext := i, outNext := o, outAcked := a }

/-- A read by a station's engine in its parcel's DRAM: the bytes, or none where the access fails. -/
def eRead (s : State) (u : UnitId) (n ppa len : Nat) : Option (State × Option (List Byte)) :=
  match dmaRead (getUnit s u) (stnAgent n) (stnParcel (stnS s u n)) ppa len with
  | (_, _, .wait) => none
  | (x, bs, .ok) => some (setUnit s u x, some bs)
  | (x, _, _) => some (setUnit s u x, none)

/-- A write by a station's engine in its parcel's DRAM; `false` where the access fails. -/
def eWrite (s : State) (u : UnitId) (n ppa : Nat) (bs : List Byte) : Option (State × Bool) :=
  match dmaWrite (getUnit s u) (stnAgent n) (stnParcel (stnS s u n)) ppa bs with
  | (_, .wait) => none
  | (x, .ok) => some (setUnit s u x, true)
  | (x, _) => some (setUnit s u x, false)

/-- A ring, buffer or index access failed its tag check: the station enters QUIESCED (05 R167). -/
def tagStop (s : State) (u : UnitId) (n : Nat) : State :=
  modS s u n (fun t => { t with st := .quiesced, busy := false, code := 0x09 })

/-- What a completion entry holds (05 R136). -/
structure CqEntry where
  kind : Nat
  replay : Bool := false
  code : Nat := 0
  len : Nat := 0
  slot : Nat := 0
  seq : Nat := 0
  tag : Word := 0
  fbref : Word := BitVec.allOnes 64

/-- A completion written to CQ q, with its PHASE, and its interrupt (05 R132, R136). -/
def cqPut (s : State) (u : UnitId) (n : Nat) (q : Fin 4) (e : CqEntry) : Option State :=
  let t := stnS s u n
  let w := dW t (6 + q.val)
  if ringLog w = 0 then some s else
  let idx := (t.cqProd.get q).toNat
  let size := 2 ^ ringLog w
  let w0 := BitVec.ofNat 64 (bit (decide (idx / size % 2 = 0)) + 2 * e.kind + 2 ^ 4 * bit e.replay + 2 ^ 8 * e.code
    + 2 ^ 16 * (e.len % 65536) + 2 ^ 32 * e.slot)
  match eWrite s u n (ringBase w + idx % size * 32) (wordsBytes [w0, BitVec.ofNat 64 e.seq, e.tag, e.fbref]) with
  | none => none
  | some (s, ok) =>
    let s := modS s u n (fun t => { t with cqProd := t.cqProd.set q.val (t.cqProd.get q + 1) q.isLt })
    if !ok then some (tagStop s u n)
    else some (if bitOf (dW t 10) 56 then raiseVector s u (stnParcel t) ((bitsOf (dW t 10) 48 8 + q.val) % 256) else s)

/-- The completions in CQ q that software has not consumed. -/
def cqUsed (t : Station) (q : Fin 4) : Nat := (t.cqProd.get q - t.cqCons.get q).toNat

/-- The reserved ERROR entry of CQ 0 holds a completion that software has not consumed (05 R552). -/
def errOutstanding (t : Station) : Bool :=
  match t.errEntry with
  | none => false
  | some i => decide ((i - t.cqCons.get 0).toNat < 2 ^ 31)

/-- CQ q can reserve `k` more entries (05 R552): on CQ 0 one entry stays kept for ERROR completions. -/
def cqRoom (t : Station) (q : Fin 4) (k : Nat) : Bool :=
  let size := ringLog (dW t (6 + q.val))
  let kept := if q = 0 then t.reserved + (if errOutstanding t then 0 else 1) else 0
  decide (size ≠ 0) && decide (cqUsed t q + t.resRx.get q + kept + k ≤ 2 ^ size)

/-- An ERROR completion that no TX entry or command owns (05 R552): counted where the kept entry is in use. -/
def errPut (s : State) (u : UnitId) (n code seq : Nat) : Option State :=
  let t := stnS s u n
  if !t.cqKnown then some s
  else if errOutstanding t then some (modS s u n (fun t => { t with errLost := t.errLost + 1 }))
  else
    let s := modS s u n (fun t => { t with errEntry := some (t.cqProd.get 0) })
    cqPut s u n 0 { kind := 5, code := code, seq := seq }

/-- A completion that a TX entry or a command owns, out of its reservation of `k` entries. -/
def ownPut (s : State) (u : UnitId) (n k : Nat) (e : CqEntry) : Option State :=
  cqPut (modS s u n (fun t => { t with reserved := t.reserved - k })) u n 0 e

/-- A command ends with a CMD completion (05 R135). -/
def cmdDone (s : State) (u : UnitId) (n code : Nat) : Option State :=
  let s := modS s u n (fun t => { t with busy := false, code := BitVec.ofNat 8 code })
  if (stnS s u n).cqKnown then ownPut s u n 1 { kind := 4, code := code } else some s

/-- The lowest number that is no key of a table. -/
def lowestGap {V : Type} : Nat → Tab V → Nat
  | n, [] => n
  | n, (k, _) :: r => if k = n then lowestGap (n + 1) r else n

/-- No slot. -/
def slotDef : Nat → Option Slot := fun _ => none

/-- The slots that a parcel holds. -/
def parcelSlots (x : UnitState) (p : Nat) : Nat :=
  (x.trv.slots.filter (fun e => match e.2 with | some k => decide (k.parcel = p) | none => false)).length

/-- The slots that a station holds. -/
def stationSlots (x : UnitState) (n : Nat) : Nat :=
  (x.trv.slots.filter (fun e => match e.2 with | some k => decide (k.station = n) | none => false)).length

/-- The free slots within a parcel's quota. -/
def quotaFree (x : UnitState) (p : Nat) : Nat := tabGet (fun _ => 0) x.trv.quotas p - parcelSlots x p

/-- The lowest-numbered free slot within the quota of a parcel (05 R140). -/
def freeSlot (x : UnitState) (p : Nat) : Option Nat :=
  let g := lowestGap 0 x.trv.slots
  if quotaFree x p = 0 ∨ 262144 ≤ g then none else some g

/-- A slot taken or freed. -/
def putSlot (x : UnitState) (k : Nat) (v : Option Slot) : UnitState :=
  { x with trv := { x.trv with slots := tabSet slotDef x.trv.slots k v } }

/-- A port as a unit holds it. -/
def uPort (x : UnitState) (p : Nat) : UnitPort := tabGet (fun _ => ({} : UnitPort)) x.trv.ports p

/-- A path is live: its port is up and its die not DOWN in CLO_STATUS (06 R205). -/
def pathLive (x : UnitState) (e : PathEntry) : Bool :=
  e.valid && (uPort x e.port.val).up && !bitOf x.clo.status (4 + (portDie e.port).val)

/-- No path. -/
def pathDef : Nat → PathEntry := fun _ => { port := 0, valid := false, vlanp := false, vid := 0, nhmac := 0 }

/-- A path of a group. -/
def groupPath (x : UnitState) (g k : Nat) : PathEntry :=
  tabGet pathDef (tabGet (fun _ => ({} : PathGroup)) x.trv.groups g).paths k

/-- The live paths of a group, in path order. -/
def livePaths (x : UnitState) (g : Nat) : List Nat := (List.range 8).filter (fun k => pathLive x (groupPath x g k))

/-- The path that a station takes at OPEN or when its path is lost (06 R205). -/
def choosePath (x : UnitState) (g n : Nat) : Option Nat :=
  let l := livePaths x g
  if l.isEmpty then none
  else if (tabGet (fun _ => ({} : PathGroup)) x.trv.groups g).spread then l[n % l.length]? else l.head?

/-- The next live path after the current one, in group order (06 R192). -/
def nextPath (x : UnitState) (g : Nat) (cur : Option Nat) : Option Nat :=
  let l := livePaths x g
  match cur with
  | none => l.head?
  | some c => (l.find? (fun k => decide (c < k))).or l.head?

/-- Back-pressure toward a die is in force in a unit (02 R36, R49). -/
def pressed (x : UnitState) (d : DieId) : Bool := bitOf x.chn.status (8 + d.val)

/-- A traverse engine's output to a port: emitted, or held while back-pressure toward the die is in force (02 R36). -/
def emitPort (s : State) (u : UnitId) (p : PortId) (bs : List Byte) : State :=
  let x := getUnit s u
  if pressed x (portDie p) then modUnit s u (fun x => { x with trv := { x.trv with outHeld := x.trv.outHeld ++ [.link p bs] } })
  else emitOut s u x.ucc (.link p bs)

/-- The held outputs of dies whose back-pressure has ended are emitted, in their order (02 R36). -/
def flushHeld (s : State) (u : UnitId) : State :=
  let x := getUnit s u
  let go := fun (o : OutBody) => match outDie o with | some d => !pressed x d | none => true
  let s := modUnit s u (fun x => { x with trv := { x.trv with outHeld := x.trv.outHeld.filter (fun o => !go o) } })
  (x.trv.outHeld.filter go).foldl (fun s o => emitOut s u x.ucc o) s

/-- The LVL_STATUS.STATE of a unit holds acknowledgements back: SIMPLEX or RELEVEL (05 R146, 03 R93). -/
def ackSimplex (x : UnitState) : Bool := lvlState x != 1

/-- A book is in MIRROR_LOST (05 R160). -/
def bookLost (x : UnitState) (b : Nat) : Bool := x.fb.mlost.getLsbD b

/-- The station follows the mirror's confirmations (05 R143, R161). -/
def stnMirrored (x : UnitState) (t : Station) : Bool :=
  stnJmode t == 3 && !(bookLost x (stnBook t) && bookDegrade x (stnBook t))

/-- The acknowledgements of a station are held while simplex (05 R146, R161). -/
def ackHold (x : UnitState) (t : Station) : Bool := stnJournal t && !stnMirrored x t && ackSimplex x

/-- The lowest SEQ that an acknowledgement of a station may not cover (05 R143). -/
def ackPoint (x : UnitState) (n : Nat) (t : Station) : Nat :=
  if !stnJournal t then inNextOf x n t
  else if stnMirrored x t then (match t.confWait with | [] => t.done | (q, _) :: _ => q)
  else t.done

/-- The ACK value of a segment sent now. -/
def ackValue (x : UnitState) (n : Nat) (t : Station) : Nat :=
  if ackHold x t then t.conn.ackSent else later t.conn.ackSent (ackPoint x n t)

/-- The free RX post entries over a station's rings. -/
def postsFree (t : Station) : Nat :=
  (List.finRange 4).foldl (fun a q =>
    if ringLog (dW t (2 + q.val)) = 0 then a else a + (t.rxProd.get q - t.rxTaken.get q).toNat) 0

/-- WND of a segment (06 R190). -/
def wndValue (x : UnitState) (t : Station) : Nat :=
  if stnJournal t ∧ quotaFree x (stnParcel t) = 0 then 0 else min 65535 (postsFree t)

/-- The SEQ ranges that a station holds beyond a gap, at most four, ascending (06 R183, R190). -/
def sackRuns : List Nat → List (Nat × Nat)
  | [] => []
  | a :: r =>
    match sackRuns r with
    | [] => [(a, a)]
    | (b, c) :: t => if a + 1 = b then (a, c) :: t else (a, a) :: (b, c) :: t

/-- The SACK of a segment. -/
def sackValue (t : Station) : List (Nat × Nat) :=
  if stnTransport t = 1 then [] else (sackRuns ((t.conn.hold.map (fun m => m.seq)).foldr insertNat [])).take 4

/-- A segment of a station with its acknowledgement fields (06 R183, R189). -/
def segBase (x : UnitState) (n : Nat) (t : Station) : Segment :=
  { ver := 1, ackv := true, last := false, retx := false, wnd := wndValue x t, connId := t.conn.peerConn, seq := 0
    ack := ackValue x n t, moff := 0, mlen := 0, sack := sackValue t, payload := [], body := none, check := 0
    srcAddr := 0, srcPort := 0 }

/-- The check key of a TVT station, loaded over the key bus where the unit's key cache does not hold it (14 R411). -/
def tvtKey (s : State) (u : UnitId) (n : Nat) : State × Option HiddenKey :=
  match tabGet (fun _ => (none : Option HiddenKey)) (getUnit s u).cph.tvtKeys n with
  | some k => (s, some k)
  | none =>
    let t := stnS s u n
    let (s, a) := keyBus s u (bitsOf (peerW t 1) 0 14) true false (tvtPermit (stnParcel t))
    if a.code ≠ 0 then (s, none)
    else
      (modUnit s u (fun x => { x with cph := { x.cph with
        tvtKeys := tabSet (fun _ => (none : Option HiddenKey)) x.cph.tvtKeys n (some (hiddenOf a)) } }), some (hiddenOf a))

/-- A TVT datagram as a frame on a path (06 R178, R183, R204). -/
def tvtFrame (x : UnitState) (t : Station) (e : PathEntry) (bs : List Byte) : List Byte :=
  let w := peerW t 0
  let v6 := bitOf w 0
  let la := match tabGet (fun _ => (none : Option (Bool × Quad))) x.trv.addrs (bitsOf w 52 8) with | some (_, a) => a | none => 0
  let sport := x.trv.tvtPort.toNat
  let pk := if v6 then ip6Bytes (bitsOf w 8 8) la.toNat t.conn.peerAddr.toNat sport t.conn.peerPort.toNat bs
    else ip4Bytes (bitsOf w 8 8) (la.toNat % 2 ^ 32) (t.conn.peerAddr.toNat % 2 ^ 32) sport t.conn.peerPort.toNat bs
  ethBytes e.nhmac (uPort x e.port.val).mac (if e.vlanp then some e.vid else none) v6 pk

/-- A segment emitted on the station's path (06 R183, R202); without a path, or without its check key, it is lost. -/
def emitSeg (s : State) (u : UnitId) (n : Nat) (ty : SegType) (g : Segment) : State :=
  let t := stnS s u n
  match t.path with
  | none => s
  | some k =>
    let e := groupPath (getUnit s u) (stnGroup t) k
    if stnTransport t = 1 then
      let x := getUnit s u
      let fl := nativeFlits ty g (t.conn.peerModule) (BitVec.ofNat 16 (bitsOf x.lvl.modId 0 16)) (BitVec.ofNat 20 (bitsOf (dW t 11) 16 20))
        (BitVec.ofNat 20 n)
      fl.foldl (fun s f => emitPort s u e.port f) s
    else
      match tvtKey s u n with
      | (s, none) => s
      | (s, some hk) =>
        let bs := tvtBytes ty g
        emitPort s u e.port (tvtFrame (getUnit s u) t e (bs ++ aesCmacOf (keyBytes hk.alg hk.key) bs))

/-- The payload bytes that one segment may carry (06 R189). -/
def segMax (x : UnitState) (t : Station) : Nat :=
  let port := match t.path with | some k => (groupPath x (stnGroup t) k).port.val | none => 0
  let sk := (sackBytes (sackValue t)).length
  bitsOf (uPort x port).cfg 16 16 - (if bitOf (peerW t 0) 0 then 40 else 20) - 8 - 40 - 16 - sk

/-- The segments of a message in MOFF order (06 R189). `n` bounds them. -/
def emitParts (u : UnitId) (n seq mlen m : Nat) (retx : Bool) : Nat → State → Nat → List Byte → State
  | 0, s, _, _ => s
  | k + 1, s, off, bs =>
    let g := segBase (getUnit s u) n (stnS s u n)
    let fin := decide (bs.length ≤ m)
    let s := emitSeg s u n .data { g with seq := seq, moff := off, mlen := mlen, payload := bs.take m, last := fin, retx := retx }
    if fin then s else emitParts u n seq mlen m retx k s (off + m) (bs.drop m)

/-- A message emitted: as one native message, or as TVT segments. A DATA segment carries the acknowledgement (06 R191). -/
def emitMsg (s : State) (u : UnitId) (n seq : Nat) (bs : List Byte) (retx : Bool) : State :=
  let x := getUnit s u
  let t := stnS s u n
  let s := if stnTransport t = 1 then
      let g := segBase x n t
      emitSeg s u n .data { g with seq := seq, mlen := bs.length, payload := bs, last := true, retx := retx }
    else
      let m := later 1 (segMax x t)
      emitParts u n seq bs.length m retx (bs.length / m + 1) s 0 bs
  let v := ackValue x n t
  modConn s u n (fun c => { c with ackSent := v, ackDue := c.ackDue && decide (v < ackPoint x n t) })

/-- Core cycles in a number of µs (06 R192). -/
def usCycles (s : State) (us : Nat) : Nat := us * (2 * binCycles s.bin)

/-- RTO_BASE of a station in µs (06 R182, R203). -/
def rtoBase (x : UnitState) (t : Station) : Nat :=
  if stnTransport t = 1 then (if bitsOf x.trv.native 0 16 = 0 then 100 else bitsOf x.trv.native 0 16)
  else if bitsOf (peerW t 1) 16 16 = 0 then 200 else bitsOf (peerW t 1) 16 16

/-- STEPS of a station's ladder. -/
def rtoSteps (x : UnitState) (t : Station) : Nat :=
  let v := if stnTransport t = 1 then bitsOf x.trv.native 16 4 else bitsOf (peerW t 1) 32 4
  if v = 0 then 8 else v

/-- A ladder step: its number and the UCC at which it expires, at most 1 s on (06 R192). -/
def ladderStep (s : State) (u : UnitId) (t : Station) (k : Nat) : Nat × Nat :=
  let x := getUnit s u
  (k, x.ucc + usCycles s (min 1000000 (rtoBase x t * 2 ^ k)))

/-- The ladder starts at step 0 where none runs. -/
def startLadder (s : State) (u : UnitId) (n : Nat) : State :=
  modS s u n (fun t => { t with conn := { t.conn with ladder := some (t.conn.ladder.getD (ladderStep s u t 0)) } })

/-- The ladder restarts at step 0. -/
def resetLadder (s : State) (u : UnitId) (n : Nat) : State :=
  modS s u n (fun t => { t with conn := { t.conn with ladder := some (ladderStep s u t 0) } })

/-- The payload of an outbound message: its record, its own bytes, or its TX buffer. None inside: it cannot be read. -/
def sentBytes (s : State) (u : UnitId) (n : Nat) (m : Sent) : Option (State × Option (List Byte)) :=
  match m.recOff with
  | some off =>
    let x := getUnit s u
    if fbUnreadable x off (recSize (recLen x off)) then some (raiseUnitFree s u 0x208, none) else some (s, some (recPayload x off))
  | none => if m.own then eRead s u n m.buf m.len else some (s, some m.data)

/-- A message sent for the first time, or again (06 R189, R192). -/
def sendOne (s : State) (u : UnitId) (n : Nat) (m : Sent) (retx : Bool) : Option State :=
  match sentBytes s u n m with
  | none => none
  | some (s, some bs) =>
    some (if retx then modS (emitMsg s u n m.seq bs true) u n (fun t => { t with retx := t.retx + 1 }) else emitMsg s u n m.seq bs false)
  | some (s, none) => if m.recOff.isSome then some s else errPut (tagStop s u n) u n 0x09 m.seq

/-- A message may be transmitted for the first time: its record is complete, the acknowledgement of its request has been
emitted, and it lies within the peer's window (05 R144, R145, 06 R192). -/
def canSend (x : UnitState) (n : Nat) (t : Station) (m : Sent) : Bool :=
  !m.emitted && m.ready && decide (m.seq < outAckedOf x n t + t.conn.wnd)
    && (match m.afterSeq with | none => true | some q => decide (q < t.conn.ackSent))

/-- The messages of a station that may now go out are transmitted, with TX_SENT (05 R144); a window of 0 starts the ladder of
probes (06 R192). `k` bounds them. -/
def txPump (u : UnitId) (n : Nat) : Nat → State → Option State
  | 0, s => some s
  | k + 1, s =>
    let x := getUnit s u
    let t := stnS s u n
    if t.conn.st ≠ .established then some s else
    match t.conn.sent.find? (canSend x n t) with
    | none => some (if t.conn.wnd = 0 ∧ t.conn.sent ≠ [] then startLadder s u n else s)
    | some m =>
      match sendOne s u n m false with
      | none => none
      | some s =>
        let s := modConn s u n (fun c =>
          { c with sent := c.sent.map (fun y => if y.seq = m.seq then { y with emitted := true } else y) })
        let s := startLadder s u n
        match (if m.own then ownPut s u n 1
            { kind := 1, len := m.len, seq := m.seq, tag := m.tag
              fbref := (match m.recOff with | some o => BitVec.ofNat 64 o | none => BitVec.allOnes 64) } else some s) with
        | none => none
        | some s => txPump u n k s

/-- Everything that may go out does. -/
def pump (s : State) (u : UnitId) (n : Nat) : Option State := txPump u n ((stnS s u n).conn.sent.length) s

/-- A pure ACK emitted now (06 R191). -/
def sendAck (s : State) (u : UnitId) (n v : Nat) : Option State :=
  let x := getUnit s u
  let g := segBase x n (stnS s u n)
  let s := emitSeg s u n .ack { g with ack := v }
  pump (modConn s u n (fun c => { c with ackSent := later c.ackSent v, ackAt := x.ucc, ackDue := false })) u n

/-- The least interval between pure ACKs of a station in cycles (06 R182, R191). -/
def ackInterval (s : State) (t : Station) : Nat :=
  if stnTransport t = 1 then 0 else bitsOf (peerW t 1) 40 8 * (binCycles s.bin / 5)

/-- The ack point has advanced, or an acknowledgement is due again: it is emitted, deferred to the end of ACKIV, or held
while simplex (05 R143, R146, 06 R191). -/
def ackNow (s : State) (u : UnitId) (n : Nat) (again : Bool) : Option State :=
  let x := getUnit s u
  let t := stnS s u n
  let p := ackPoint x n t
  if t.conn.st ≠ .established then some s
  else if ackHold x t then
    some (if again || decide (later t.conn.ackSent (t.heldAcks.getLastD 0) < p) then modS s u n (fun t => { t with heldAcks := t.heldAcks ++ [p] }) else s)
  else if !again && decide (p ≤ t.conn.ackSent) then some s
  else if ackInterval s t ≠ 0 ∧ x.ucc < t.conn.ackAt + ackInterval s t ∧ t.conn.ackAt ≠ 0 then
    some (modConn s u n (fun c => { c with ackDue := true }))
  else sendAck s u n p

/-- A word drawn from the levelled entropy pool (03 R70). -/
def drawPool (x : UnitState) : UnitState × Word :=
  match x.lvl.pool with
  | [] => ({ x with lvl := { x.lvl with underrun := true } }, 0)
  | w :: r => ({ x with lvl := { x.lvl with pool := r } }, w)

/-- A draw in a unit of the module. -/
def drawS (s : State) (u : UnitId) : State × Word :=
  let (x, w) := drawPool (getUnit s u)
  (setUnit s u x, w)

/-- The stations of a unit that are not CLOSED, in station order. -/
def liveStns (x : UnitState) : List Nat := (x.trv.stations.filter (fun e => decide (e.2.st ≠ .closed))).map (fun e => e.1)

end Sys2Proof.Machine
end

