-- ==== Sys2Proof/Machine/JournalOps.lean ====
section
/-! DEFINITION. Inbound messages, journalling, duplicates, settlement, mirroring (05 R138 to R161). -/
namespace Sys2Proof.Machine

/-- Module ID (01 R23). -/
def modIdOf (x : UnitState) : Nat := bitsOf x.lvl.modId 0 16

/-- Bookkeeping of a mirrored book. -/
def mirrorOf (x : UnitState) (b : Nat) : MirrorBk := tabGet (fun _ => ({} : MirrorBk)) x.fb.mirror b

/-- Bookkeeping of a mirrored book changed. -/
def modMirror (x : UnitState) (b : Nat) (f : MirrorBk → MirrorBk) : UnitState :=
  { x with fb := { x.fb with mirror := tabSet (fun _ => ({} : MirrorBk)) x.fb.mirror b (f (mirrorOf x b)) } }

/-- LINK of a record as its mirror message carries it: a BSN (05 R157). -/
def linkBsn (x : UnitState) (off : Nat) : Word :=
  match recLink x off with
  | none => BitVec.allOnes 64
  | some l => recWord x l 0

/-- The record of a mirror message: the origin record with LINK as a BSN, or an M_STATE record with the new words 6 and 7
(05 R152, R157; log 43). -/
def mirrorRecord (x : UnitState) (off : Nat) (isState : Bool) : List Byte :=
  if isState then
    let p := wordsBytes [recWord x off 6, linkBsn x off]
    let ws : List Word := [0, recHead1 5 (bitsOf (recWord x off 1) 4 2) (recStation x off) 16 (modIdOf x), recWord x off 2,
      BitVec.ofNat 64 x.cn, recWord x off 0]
    wordsBytes (ws ++ [recCheck ws p, 0, BitVec.allOnes 64]) ++ p
  else wordsBytes (fbWords x off 7 ++ [linkBsn x off]) ++ recPayload x off

/-- A message of engine hardware queued on a station in JMODE NONE, and sent when it may be (05 R156). -/
def hwSend (s : State) (u : UnitId) (n : Nat) (bs : List Byte) : Option State :=
  let x := getUnit s u
  let t := stnS s u n
  if t.st ≠ .opened then some s else
  let q := outNextOf x n t
  let m : Sent := { seq := q, tag := 0, len := bs.length, buf := 0, recOff := none, own := false, afterSeq := none
                    ready := true, emitted := false, data := bs }
  let s := modUnit s u (fun x => setSeqs x n (inNextOf x n t) (q + 1) (outAckedOf x n t))
  pump (modConn s u n (fun c => { c with sent := c.sent ++ [m] })) u n

/-- A mirror message of a mirrored book for a record, or for its new state (05 R156, R157). -/
def mirrorSend (s : State) (u : UnitId) (b off : Nat) (isState : Bool) : Option State :=
  let x := getUnit s u
  if !bookMirrored x b then some s else
  let rs := (mirrorOf x b).restart
  let q := if rs then 1 else bookMseq x b + 1
  let w0 := BitVec.ofNat 64 (b + 2 ^ 8 * bit isState + 2 ^ 9 * bit rs + 2 ^ 16 * q)
  let bs := wordsBytes [w0, BitVec.ofNat 64 (tailBsn x b)] ++ mirrorRecord x off isState
  let s := modUnit s u (fun x =>
    let x := bookPut x (bookMstn x b / 4096) b (fun i w => if i = 7 then BitVec.ofNat 64 q else w)
    modMirror x b (fun m => { m with restart := false, unconf := m.unconf ++ [(q, x.cn)] }))
  hwSend s u (bookMstn x b) bs

/-- A message discarded at the transport or by mirror hardware (16 R548 DISC_OTHER). -/
def discOther (s : State) (u : UnitId) (n : Nat) : State := modS s u n (fun t => { t with discOther := t.discOther + 1 })

/-- A message discarded for want of a resource (16 R548 DISC_RES). -/
def discRes (s : State) (u : UnitId) (n : Nat) : State := modS s u n (fun t => { t with discRes := t.discRes + 1 })

/-- An RX post entry taken from ring q: BUF, CAP, TAG; none inside where the access fails its tag check (05 R136). -/
def takePost (s : State) (u : UnitId) (n : Nat) (q : Fin 4) : Option (State × Option (Nat × Nat × Word)) :=
  let t := stnS s u n
  let w := dW t (2 + q.val)
  match eRead s u n (ringBase w + (t.rxTaken.get q).toNat % 2 ^ ringLog w * 64) 64 with
  | none => none
  | some (s, none) => (errPut (tagStop s u n) u n 0x09 0).map (fun s => (s, none))
  | some (s, some bs) =>
    let ws := bytesWords 8 bs
    let s := modS s u n (fun t => { t with
      rxTaken := t.rxTaken.set q.val (t.rxTaken.get q + 1) q.isLt, resRx := t.resRx.set q.val (t.resRx.get q + 1) q.isLt })
    some (s, some (bitsOf (ws.getD 0 0) 0 52, bitsOf (ws.getD 1 0) 0 32, ws.getD 2 0))

/-- RX ring q has a post entry, and CQ q room for its completion (05 R141). -/
def postReady (t : Station) (q : Fin 4) : Bool :=
  decide (ringLog (dW t (2 + q.val)) ≠ 0) && decide (t.rxProd.get q ≠ t.rxTaken.get q) && cqRoom t q 1

/-- A message copied into its RX buffer, with its completion; ELEN where it needs more than CAP (05 R136, R141). -/
def deliverRx (s : State) (u : UnitId) (n : Nat) (q : Fin 4) (buf cap : Nat) (e : CqEntry) (payload : List Byte) : Option State :=
  let s := modS s u n (fun t => { t with resRx := t.resRx.set q.val (t.resRx.get q - 1) q.isLt })
  let e := { e with len := payload.length }
  if cap < payload.length then cqPut s u n q { e with kind := 5, code := 0x06 } else
  match eWrite s u n buf payload with
  | none => none
  | some (s, true) => cqPut s u n q e
  | some (s, false) => (cqPut s u n q { e with kind := 5, code := 0x09 }).map (fun s => tagStop s u n)

/-- The entry of the duplicate index ring for a SEQ written with its record's offset (05 R154). -/
def indexPut (s : State) (u : UnitId) (n seq off : Nat) : Option State :=
  let t := stnS s u n
  match eWrite s u n (bitsOf (dW t 12) 12 40 * 4096 + seq % stnWindow t * 8) (wordsBytes [BitVec.ofNat 64 off]) with
  | none => none
  | some (s, true) => some s
  | some (s, false) => errPut (tagStop s u n) u n 0x09 seq

/-- An offset lies in the live part of a book. -/
def offLive (x : UnitState) (b off : Nat) : Bool :=
  decide (bookBase x b ≤ off) && decide (off < bookBase x b + bookSize x b)
    && decide ((off + bookSize x b - bookTail x b) % bookSize x b < bookUsed x b)

/-- A duplicate (05 R154): discarded while its record is being written; else acknowledged again, and an unanswered reply is
sent again. -/
def duplicate (s : State) (u : UnitId) (n seq : Nat) : Option State :=
  let s := modS s u n (fun t => { t with dups := t.dups + 1 })
  let t := stnS s u n
  if !stnJournal t then ackNow s u n true
  else if t.done ≤ seq then some s
  else
    match eRead s u n (bitsOf (dW t 12) 12 40 * 4096 + seq % stnWindow t * 8) 8 with
    | none => none
    | some (s, none) => errPut (tagStop s u n) u n 0x09 seq
    | some (s, some bs) =>
      let x := getUnit s u
      let off := leNat bs
      let b := stnBook t
      match ackNow s u n true with
      | none => none
      | some s =>
        if offLive x b off && recKind x off == 1 && recStation x off == n && recSeq x off == seq && recState x off == 1 then
          match recLink x off with
          | none => some s
          | some l =>
            if recState x l = 0 then
              match t.conn.sent.find? (fun m => decide (m.recOff = some l)) with
              | some m => if m.emitted then sendOne s u n m true else some s
              | none => some s
            else some s
        else some s

/-- A message accepted on a station in JMODE NONE: delivered at once (05 R141, R143). -/
def acceptPlain (s : State) (u : UnitId) (n seq : Nat) (q : Fin 4) (payload : List Byte) : Option State :=
  let t := stnS s u n
  if !postReady t q then some (discRes s u n) else
  match takePost s u n q with
  | none => none
  | some (s, none) => some s
  | some (s, some (buf, cap, tag)) =>
    match deliverRx s u n q buf cap { kind := 0, seq := seq, tag := tag } payload with
    | none => none
    | some s =>
      if stnTransport t = 2 then some s else
      let s := modUnit s u (fun x => setSeqs x n (seq + 1) (outNextOf x n (stnOf x n)) (outAckedOf x n (stnOf x n)))
      ackNow s u n false

/-- A message accepted on a journalled station (05 R140, R141 steps 4 and 5): a post entry, a completion entry, a slot and
room in the book are taken together; the record, the mark and the index are written. -/
def acceptJournal (s : State) (u : UnitId) (n seq : Nat) (q : Fin 4) (payload : List Byte) : Option State :=
  let x := getUnit s u
  let t := stnS s u n
  let b := stnBook t
  match freeSlot x (stnParcel t) with
  | none => some (discRes s u n)
  | some k =>
    if !postReady t q || !bookRoom x b payload.length then some (discRes s u n) else
    match takePost s u n q with
    | none => none
    | some (s, none) => some s
    | some (s, some (buf, cap, tag)) =>
      let x := getUnit s u
      let r := bookAppend x (stnEng n) b (recHead1 1 (stnJmode t) n payload.length (modIdOf x)) (BitVec.ofNat 64 seq)
        (BitVec.ofNat 64 k) (BitVec.allOnes 64) payload (fun off bsn => .inRecord n seq bsn q.val k off buf cap tag payload)
      let x := putSlot r.1 k (some { station := n, seq := seq, off := r.2.1, cn := x.cn, parcel := stnParcel t })
      let x := setSeqs x n (seq + 1) (outNextOf x n (stnOf x n)) (outAckedOf x n (stnOf x n))
      indexPut (setUnit s u x) u n seq r.2.1

/-- A whole message at an OPEN station (05 R138, R141, R142). -/
def inboundMsg (s : State) (u : UnitId) (n : Nat) (m : InMsg) : Option State :=
  let x := getUnit s u
  let t := stnS s u n
  if t.st ≠ .opened then some s
  else if stnJournal t ∧ 65472 < m.payload.length then errPut (discRes s u n) u n 0x06 m.seq
  else if stnTransport t ≠ 2 ∧ m.seq < inNextOf x n t then duplicate s u n m.seq
  else
    match m.verdict with
    | .accept q => if stnJournal t then acceptJournal s u n m.seq q m.payload else acceptPlain s u n m.seq q m.payload
    | .discard => some (modS s u n (fun t => { t with discProg := t.discProg + 1 }))
    | .fault => some (modS s u n (fun t => { t with discProg := t.discProg + 1 }))

/-- Held messages delivered in SEQ order as far as there is no gap (06 R190). `k` bounds them. -/
def deliverHeld (u : UnitId) (n : Nat) : Nat → State → Option State
  | 0, s => some s
  | k + 1, s =>
    let q := inNextOf (getUnit s u) n (stnS s u n)
    match (stnS s u n).conn.hold.find? (fun m => decide (m.seq = q)) with
    | none => some s
    | some m =>
      let s := modConn s u n (fun c => { c with hold := c.hold.filter (fun y => y.seq ≠ q) })
      match inboundMsg s u n m with
      | none => none
      | some s => if inNextOf (getUnit s u) n (stnS s u n) = q then some s else deliverHeld u n k s

/-- Messages that an engine holds beyond gaps over all its stations. -/
def engHeld (x : UnitState) (e : Nat) : Nat :=
  (x.trv.stations.map (fun p => if p.1 / 4096 = e then p.2.conn.hold.length else 0)).sum

/-- A whole message from the transport (06 R190): duplicates and the next SEQ go on at once, others are held up to 32 a
station and 512 an engine. -/
def wholeMsg (s : State) (u : UnitId) (n : Nat) (m : InMsg) : Option State :=
  let x := getUnit s u
  let t := stnS s u n
  let q := inNextOf x n t
  if m.seq < q then duplicate s u n m.seq
  else if m.seq = q then
    match inboundMsg s u n m with
    | none => none
    | some s => deliverHeld u n ((stnS s u n).conn.hold.length) s
  else if t.conn.hold.any (fun y => y.seq == m.seq) then some s
  else if 32 ≤ t.conn.hold.length ∨ 512 ≤ engHeld x (stnEng n) then some (discOther s u n)
  else some (modConn s u n (fun c => { c with hold := c.hold ++ [m] }))

/-- OUT records of a station below an acknowledged SEQ become DONE (05 R144, 06 R188), and mirrored ones send their new
state. -/
def doneRecs (s : State) (u : UnitId) (n b e : Nat) : List (Nat × Nat) → Option State
  | [] => some s
  | (_, off) :: r =>
    let x := getUnit s u
    if recKind x off = 2 ∧ recStation x off = n ∧ recSeq x off < e ∧ recState x off = 0 then
      let s := modUnit s u (fun x => recPutState x (stnEng n) off 1 (recWord x off 7) .nothing)
      match mirrorSend s u b off true with
      | none => none
      | some s => doneRecs s u n b e r
    else doneRecs s u n b e r

/-- TX_ACKED for the messages that an acknowledgement covers (05 R144, R552). -/
def ackedMsgs (s : State) (u : UnitId) (n : Nat) : List Sent → Option State
  | [] => some s
  | m :: r =>
    if !m.own then ackedMsgs s u n r else
    match ownPut s u n (if m.emitted then 2 else 3)
        { kind := 2, len := m.len, seq := m.seq, tag := m.tag
          fbref := (match m.recOff with | some o => BitVec.ofNat 64 o | none => BitVec.allOnes 64) } with
    | none => none
    | some s => ackedMsgs s u n r

/-- The peer's cumulative acknowledgement (05 R144, 06 R188, R192): one that covers a SEQ never sent is ignored. -/
def peerAck (s : State) (u : UnitId) (n e : Nat) : Option State :=
  let x := getUnit s u
  let t := stnS s u n
  if e ≤ outAckedOf x n t ∨ outNextOf x n t < e then some s else
  let s := modUnit s u (fun x => setSeqs x n (inNextOf x n t) (outNextOf x n t) e)
  let acked := t.conn.sent.filter (fun m => decide (m.seq < e))
  let s := modConn s u n (fun c => { c with sent := c.sent.filter (fun m => decide (e ≤ m.seq)), sameAcks := 0, ladder := none })
  let s := if (stnS s u n).conn.sent.any (fun m => m.emitted) then resetLadder s u n else s
  match (if 2 ≤ stnJmode t then doneRecs s u n (stnBook t) e (liveRecs (getUnit s u) (stnBook t)) else some s) with
  | none => none
  | some s =>
    match ackedMsgs s u n acked with
    | none => none
    | some s => pump s u n

/-- A TX entry as the engine reads it (05 R136). -/
structure TxEntry where
  op : Nat
  len : Nat
  slot : Nat
  buf : Nat
  tag : Word
  bad : Bool

/-- The words of a TX entry decoded; OP 3 or a reserved bit makes it bad (05 R552). -/
def txEntry (ws : List Word) : TxEntry :=
  let w := fun k => ws.getD k (0 : Word)
  { op := bitsOf (w 0) 0 2, len := bitsOf (w 0) 16 16, slot := bitsOf (w 0) 32 18, buf := bitsOf (w 1) 0 52, tag := w 2
    bad := bitsOf (w 0) 0 2 == 3 || bitsOf (w 0) 2 14 ≠ 0 || bitsOf (w 0) 50 14 ≠ 0 || bitsOf (w 1) 52 12 ≠ 0
      || (ws.drop 3).any (fun v => v ≠ 0) }

/-- The completions that a TX entry reserves with its ERROR entry (05 R552). -/
def txNeeds (e : TxEntry) : Nat := if e.bad then 1 else if e.op = 0 then 3 else if e.op = 1 then 4 else 2

/-- A TX entry ends in an ERROR completion that uses up its reservation. -/
def txError (s : State) (u : UnitId) (n : Nat) (e : TxEntry) (code : Nat) : Option State :=
  ownPut s u n (txNeeds e) { kind := 5, code := code, len := e.len, slot := e.slot, tag := e.tag }

/-- An outbound message taken (05 R144): journalled under its SEQ in JMODE BOTH and BOTH_MIRROR, else from its buffer. The
answer has the record's offset. -/
def queueSend (s : State) (u : UnitId) (n : Nat) (e : TxEntry) (bs : List Byte) (after : Option Nat) (link : Word) :
    State × Option Nat :=
  let x := getUnit s u
  let t := stnS s u n
  let q := outNextOf x n t
  let m : Sent := { seq := q, tag := e.tag, len := e.len, buf := e.buf, recOff := none, own := true, afterSeq := after
                    ready := true, emitted := false, data := [] }
  let upd := fun (x : UnitState) => setSeqs x n (inNextOf x n t) (q + 1) (outAckedOf x n t)
  if 2 ≤ stnJmode t then
    let r := bookAppend x (stnEng n) (stnBook t) (recHead1 2 (stnJmode t) n bs.length (modIdOf x)) (BitVec.ofNat 64 q) 0 link bs
      (fun _ _ => .outRecord n q)
    let s := modConn (setUnit s u (upd r.1)) u n (fun c => { c with sent := c.sent ++ [{ m with recOff := some r.2.1, ready := false }] })
    (s, some r.2.1)
  else (modConn (modUnit s u upd) u n (fun c => { c with sent := c.sent ++ [m] }), none)

/-- A raw frame transmitted from its TX entry (06 R181): TX_SENT ends the entry. -/
def rawSend (s : State) (u : UnitId) (n : Nat) (e : TxEntry) (bs : List Byte) : Option State :=
  let p : PortId := Fin.ofNat 1024 (bitsOf (dW (stnS s u n) 11) 0 10)
  let s := emitPort s u p (bs ++ List.replicate (60 - bs.length) 0)
  ownPut s u n 3 { kind := 1, len := e.len, tag := e.tag }

/-- The slot that a settlement names: open, of this station, not yet settled (05 R145). -/
def settleSlot (x : UnitState) (n k : Nat) : Option Slot :=
  match tabGet slotDef x.trv.slots k with
  | some v => if v.station = n ∧ recState x v.off = 0 then some v else none
  | none => none

/-- The TX entry at TXC taken, when it can be and its OP is the row's or it is bad (05 R144, R145, R552). -/
def takeTx (s : State) (u : UnitId) (n op : Nat) (act : State → TxEntry → Option State) : Option State :=
  let t := stnS s u n
  if t.st ≠ .opened ∨ t.txProd = t.txc ∨ ringLog (dW t 1) = 0 ∨ ¬ (stnTransport t = 2 ∨ t.conn.estab) then some s else
  match eRead s u n (ringBase (dW t 1) + t.txc.toNat % 2 ^ ringLog (dW t 1) * 64) 64 with
  | none => none
  | some (s, none) => errPut (tagStop s u n) u n 0x09 0
  | some (s', some bs) =>
    let e := txEntry (bytesWords 8 bs)
    if (e.op ≠ op ∧ !e.bad) ∨ !cqRoom t 0 (txNeeds e) then some s else
    let s := modS s' u n (fun t => { t with txc := t.txc + 1, reserved := t.reserved + txNeeds e })
    if e.bad then txError s u n e 0x10 else act s e

/-- SEND (05 R144). -/
def doSend (s : State) (u : UnitId) (n : Nat) (e : TxEntry) : Option State :=
  let t := stnS s u n
  let jr := decide (2 ≤ stnJmode t)
  if jr && decide (65472 < e.len) then txError s u n e 0x06
  else if jr && !bookRoom (getUnit s u) (stnBook t) e.len then txError s u n e 0x07
  else
    match eRead s u n e.buf e.len with
    | none => none
    | some (s, none) => (txError s u n e 0x09).map (fun s => tagStop s u n)
    | some (s, some bs) =>
      if stnTransport t = 2 then rawSend s u n e bs
      else pump (queueSend s u n e bs none (BitVec.allOnes 64)).1 u n

/-- The IN record of a slot settled with one atomic write (05 R145). -/
def doSettleRec (s : State) (u : UnitId) (n k : Nat) (v : Slot) (tag : Word) (link : Word) : State :=
  modUnit s u (fun x => recPutState x (stnEng n) v.off 1 link (.settled n k tag v.off))

/-- SEND_SETTLE (05 R145). -/
def doSendSettle (s : State) (u : UnitId) (n : Nat) (e : TxEntry) : Option State :=
  let t := stnS s u n
  match settleSlot (getUnit s u) n e.slot with
  | none => txError s u n e 0x08
  | some v =>
    let jr := decide (2 ≤ stnJmode t)
    if jr && decide (65472 < e.len) then txError s u n e 0x06
    else if jr && !bookRoom (getUnit s u) (stnBook t) e.len then txError s u n e 0x07
    else
      match eRead s u n e.buf e.len with
      | none => none
      | some (s, none) => (txError s u n e 0x09).map (fun s => tagStop s u n)
      | some (s, some bs) =>
        let (s, off) := queueSend s u n e bs (some v.seq) (BitVec.ofNat 64 v.off)
        let link : Word := match off with | some o => BitVec.ofNat 64 o | none => BitVec.allOnes 64
        pump (doSettleRec s u n e.slot v e.tag link) u n

/-- SETTLE (05 R145). -/
def doSettle (s : State) (u : UnitId) (n : Nat) (e : TxEntry) : Option State :=
  match settleSlot (getUnit s u) n e.slot with
  | none => txError s u n e 0x08
  | some v =>
    let s := modS s u n (fun t => { t with reserved := t.reserved - 1 })
    some (doSettleRec s u n e.slot v e.tag (BitVec.allOnes 64))

/-- The confirmation of a mirror sink (05 R157, R158): the highest origin BSN of the M_IN and M_OUT records held, and the
MSEQ taken in order. -/
def confirmMsg (x : UnitState) (b : Nat) : List Byte :=
  let top := (liveRecs x b).foldl (fun a r =>
    if recKind x r.2 = 3 ∨ recKind x r.2 = 4 then later a (recWord x r.2 4).toNat else a) 0
  wordsBytes [BitVec.ofNat 64 (bookObook x b), BitVec.ofNat 64 top, BitVec.ofNat 64 (bookMseq x b)]

/-- A sink has taken a mirror message: word 7 of its book, then the confirmation (05 R158). -/
def mirrorTaken (s : State) (u : UnitId) (n b q : Nat) : Option State :=
  let s := modUnit s u (fun x => bookPut x (stnEng n) b (fun i w => if i = 7 then BitVec.ofNat 64 q else w))
  hwSend s u n (confirmMsg (getUnit s u) b)

/-- What a completed write lets happen (05 R141 step 6, R144, R145, R156, R158). -/
def fbCont (s : State) (u : UnitId) : FbCont → Option State
  | .nothing | .coreStore _ => some s
  | .cohDone a line => some (modUnit s u (fun x => wrtDone x a line))
  | .inRecord n seq bsn q slot off buf cap tag payload =>
    let t := stnS s u n
    let s := modS s u n (fun t => { t with
      done := later t.done (seq + 1), confWait := if stnJmode t = 3 then t.confWait ++ [(seq, bsn)] else t.confWait })
    match mirrorSend s u (stnBook t) off false with
    | none => none
    | some s =>
      match (if t.st = .closed then some s else
          deliverRx s u n (Fin.ofNat 4 q) buf cap { kind := 0, slot := slot, seq := seq, tag := tag, fbref := BitVec.ofNat 64 off } payload) with
      | none => none
      | some s => ackNow s u n false
  | .outRecord n seq =>
    let t := stnS s u n
    let m := t.conn.sent.find? (fun m => decide (m.seq = seq))
    let s := modConn s u n (fun c => { c with sent := c.sent.map (fun y => if y.seq = seq then { y with ready := true } else y) })
    match (match m with | some y => (match y.recOff with | some off => mirrorSend s u (stnBook t) off false | none => some s) | none => some s) with
    | none => none
    | some s => pump s u n
  | .settled n k tag off =>
    let t := stnS s u n
    let seq := recSeq (getUnit s u) off
    let s := modUnit s u (fun x => match tabGet slotDef x.trv.slots k with
      | some v => if v.station = n ∧ v.off = off then putSlot x k none else x
      | none => x)
    match mirrorSend s u (stnBook t) off true with
    | none => none
    | some s => if t.st = .closed then some s else
      ownPut s u n 1 { kind := 3, slot := k, seq := seq, tag := tag, fbref := BitVec.ofNat 64 off }
  | .mirrorRec n b q _ => mirrorTaken s u n b q

end Sys2Proof.Machine
end

