-- ==== Sys2Proof/Machine/TransportOps.lean ====
section
/-! DEFINITION. The connection of a TVT or native station: handshake, ladder, paths, segments received (06 R185 to R206). -/
namespace Sys2Proof.Machine

/-- This side initiates: ACTIVE of the peer entry; a native station always does (06 R182, R202; log 44). -/
def stnActive (t : Station) : Bool := if stnTransport t = 1 then true else bitOf (peerW t 0) 1

/-- MOVE of the peer entry; a native station accepts a resuming INIT from any SRC (06 R182, R202). -/
def stnMove (t : Station) : Bool := stnTransport t == 1 || bitOf (peerW t 0) 2

/-- The station or service number that a handshake addresses (06 R186). -/
def stnTarget (t : Station) : BitVec 20 :=
  BitVec.ofNat 20 (if stnTransport t = 1 then bitsOf (dW t 11) 16 20 else bitsOf (peerW t 0) 32 20)

/-- A connection ID of this incarnation: the station, and bits from the pool; zero on a native station (06 R186, R202). -/
def newConnId (s : State) (u : UnitId) (n : Nat) : State × Word :=
  if stnTransport (stnS s u n) = 1 then (s, 0) else
  let (s, w) := drawS s u
  (s, withBits w 0 20 n)

/-- The body of a handshake segment from the station's sequence numbers (06 R186). -/
def hsBody (x : UnitState) (n : Nat) (t : Station) (conn : Word) (resume : Bool) (nonce : Word) : HsBody :=
  { myConn := conn, nextExp := BitVec.ofNat 64 (inNextOf x n t), firstUnacked := BitVec.ofNat 64 (outAckedOf x n t)
    nextSend := BitVec.ofNat 64 (outNextOf x n t), target := stnTarget t, resume := resume, nonce := nonce }

/-- A handshake segment emitted. INIT bears the target in place of a connection ID (06 R183). -/
def emitHs (s : State) (u : UnitId) (n : Nat) (ty : SegType) (connId : Word) (b : HsBody) : State :=
  let g := segBase (getUnit s u) n (stnS s u n)
  emitSeg s u n ty { g with ackv := false, ack := 0, sack := [], connId := connId, body := some b }

/-- The INIT of the station sent as it stands (06 R187). -/
def sendInit (s : State) (u : UnitId) (n : Nat) : State :=
  let t := stnS s u n
  emitHs s u n .init ((stnTarget t).setWidth 64) (hsBody (getUnit s u) n t t.conn.myConn t.conn.resume t.conn.nonce)

/-- A new INIT: a connection ID, then a NONCE, drawn; the ladder starts (06 R186, R187). -/
def startInit (s : State) (u : UnitId) (n : Nat) (resume : Bool) : State :=
  let (s, c) := newConnId s u n
  let (s, w) := drawS s u
  let s := modConn s u n (fun k => { k with st := .initSent, myConn := c, nonce := w, resume := resume, tie := none })
  resetLadder (sendInit s u n) u n

/-- The INIT_ACK pending or sent, with its connection ID and NONCE (06 R187). -/
def sendInitAck (s : State) (u : UnitId) (n : Nat) : State :=
  let t := stnS s u n
  emitHs s u n .initAck t.conn.pendPeerConn (hsBody (getUnit s u) n t t.conn.pendConn t.conn.pendResume t.conn.pendNonce)

/-- A valid INIT answered: the same INIT_ACK for the INIT already answered, else a new one (06 R187). The NONCE answered is
kept in `peerNonce`. -/
def answerInit (s : State) (u : UnitId) (n : Nat) (g : Segment) (b : HsBody) (same : Bool) : State :=
  if same then sendInitAck s u n else
  let (s, c) := newConnId s u n
  let (s, w) := drawS s u
  let s := modConn s u n (fun k => { k with
    pendConn := c, pendNonce := w, pendPeerConn := b.myConn, pendResume := b.resume, pendBody := some b, peerNonce := b.nonce
    pendAddr := g.srcAddr, pendPort := g.srcPort })
  sendInitAck s u n

/-- PEER_LOST: the ERROR completion, and LOST with its time (06 R187). -/
def peerLost (s : State) (u : UnitId) (n : Nat) (st : ConnSt) : Option State :=
  let x := getUnit s u
  let s := modConn s u n (fun c => { c with st := st, ladder := none, lostAt := x.ucc, probing := false, parts := [], pendBody := none })
  errPut s u n 0x0D 0

/-- Every emitted message that no ACK covers sent again, in order (06 R187, R206). -/
def resendAll (u : UnitId) (n : Nat) : List Sent → State → Option State
  | [], s => some s
  | m :: r, s =>
    if m.emitted then
      match sendOne s u n m true with
      | none => none
      | some s => resendAll u n r s
    else resendAll u n r s

/-- A peer's handshake contradicts the journal (06 R188). -/
def hsRefused (x : UnitState) (n : Nat) (t : Station) (b : HsBody) : Bool :=
  b.resume && (decide (b.nextExp.toNat < outAckedOf x n t) || decide (outNextOf x n t < b.nextExp.toNat)
    || decide (inNextOf x n t < b.firstUnacked.toNat))

/-- The sequence numbers taken from the peer's handshake (06 R188): on a fresh connection nothing older is left to acknowledge. -/
def applyHs (s : State) (u : UnitId) (n : Nat) (b : HsBody) : Option State :=
  if b.resume then peerAck s u n b.nextExp.toNat
  else
    let s := modUnit s u (fun x => setSeqs x n b.nextSend.toNat 1 1)
    some (modS s u n (fun t => { t with done := b.nextSend.toNat, confWait := [], heldAcks := []
                                        conn := { t.conn with ackSent := b.nextSend.toNat } }))

/-- The connection becomes ESTABLISHED with the peer's body (06 R187, R188): refused with CLOSE and PEER_LOST, or the
sequence numbers apply, and what is unacknowledged goes out on it. `ready` sends READY. -/
def establish (s : State) (u : UnitId) (n : Nat) (b : HsBody) (ready : Option Word) : Option State :=
  let x := getUnit s u
  let t := stnS s u n
  let s := modConn s u n (fun c => { c with peerConn := b.myConn, ladder := none, tie := none })
  if hsRefused x n t b then
    let g := segBase x n (stnS s u n)
    peerLost (emitSeg s u n .close { g with ackv := false, ack := 0, sack := [] }) u n .lost
  else
    let s := match ready with
      | some nonce =>
        emitHs s u n .ready b.myConn (hsBody (getUnit s u) n (stnS s u n) (stnS s u n).conn.myConn b.resume nonce)
      | none => s
    match applyHs s u n b with
    | none => none
    | some s =>
      let x := getUnit s u
      let s := modConn s u n (fun c =>
        { c with st := .established, estab := true, resume := true, lastValid := x.ucc, probing := false, parts := [], sacks := []
                 ackSent := ackValue x n (stnOf x n), pendBody := none, lastAck := 0, sameAcks := 0 })
      let old := (stnS s u n).conn.sent
      match resendAll u n old s with
      | none => none
      | some s => pump (if old.any (fun m => m.emitted) then resetLadder s u n else s) u n

/-- A station put on a path (06 R205, R206): what is sent and unacknowledged goes out again at once. -/
def movePath (s : State) (u : UnitId) (n : Nat) (p : Option Nat) : Option State :=
  let s := modS s u n (fun t => { t with path := p })
  if p.isNone ∨ (stnS s u n).conn.st ≠ .established then some s
  else resendAll u n (stnS s u n).conn.sent s

/-- The check of a received segment over its TVT bytes (06 R183, R184). -/
def segCheckOk (s : State) (u : UnitId) (n : Nat) (ty : SegType) (g : Segment) : State × Bool :=
  if stnTransport (stnS s u n) = 1 then (s, true) else
  match tvtKey s u n with
  | (s, none) => (s, false)
  | (s, some k) => (s, aesCmacOf (keyBytes k.alg k.key) (tvtBytes ty g) == beBytes 16 g.check.toNat)

/-- The states in which a connection admits a segment type (06 R185, R187). -/
def admits (t : Station) (ty : SegType) (g : Segment) : Bool :=
  let c := t.conn.st
  match ty with
  | .data | .ack | .probe => c == .established
  | .init => (t.st == .opened || t.st == .replaying) && (c == .listen || c == .lost || c == .initSent || c == .initRcvd
      || (c == .established && (g.body.elim false (fun b => b.resume))))
  | .initAck => c == .initSent || c == .established
  | .ready => c == .initRcvd || (c == .established && t.conn.pendBody.isSome)
  | .close => c == .established || c == .closing
  | .closeAck => c == .closing

/-- The connection ID that a segment must bear (06 R185). -/
def wantConn (t : Station) (ty : SegType) : Word :=
  match ty with
  | .ready => t.conn.pendConn
  | _ => t.conn.myConn

/-- An INIT may come from this source (06 R196, R202). -/
def sourceOk (t : Station) (g : Segment) : Bool :=
  (stnMove t && (g.body.elim false (fun b => b.resume)))
    || (if stnTransport t = 1 then BitVec.ofNat 16 g.srcAddr.toNat == BitVec.ofNat 16 (bitsOf (dW t 11) 0 16)
        else g.srcAddr == (if bitOf (peerW t 0) 0 then peerW t 2 ++ peerW t 3 else BitVec.ofNat 128 (bitsOf (peerW t 2) 0 32))
          && g.srcPort == BitVec.ofNat 16 (bitsOf (peerW t 0) 16 16))

/-- A segment is valid (06 R185). -/
def segValid (s : State) (u : UnitId) (n : Nat) (ty : SegType) (g : Segment) : State × Bool :=
  let t := stnS s u n
  let native := stnTransport t == 1
  let need := ty == .init || ty == .initAck || ty == .ready
  let idOk := native || (if ty = .init then bitsOf g.connId 0 20 == n else g.connId == wantConn t ty)
  if t.st == .closed || stnTransport t == 2 || (!native && g.ver ≠ 1) || !admits t ty g || !idOk || (need && g.body.isNone)
    || (ty == .init && !sourceOk t g) then (s, false)
  else segCheckOk s u n ty g

/-- The messages in the gap that a SACK shows (06 R192). -/
def gapMsgs (c : Conn) (g : Segment) : List Sent :=
  let top := g.sack.foldl (fun a r => later a r.2) 0
  c.sent.filter (fun m => m.emitted && decide (m.seq < top) && !g.sack.any (fun r => decide (r.1 ≤ m.seq ∧ m.seq ≤ r.2)))

/-- The acknowledgement fields of a valid segment (06 R190 to R192): window, SACK, cumulative ACK, fast retransmission. -/
def applyAck (s : State) (u : UnitId) (n : Nat) (g : Segment) : Option State :=
  if !g.ackv then some s else
  let c := (stnS s u n).conn
  let same := decide (g.ack = c.lastAck) && !g.sack.isEmpty
  let k := if same then c.sameAcks + 1 else 0
  let s := modConn s u n (fun c => { c with wnd := g.wnd, sacks := g.sack, lastAck := g.ack, sameAcks := k })
  match peerAck s u n g.ack with
  | none => none
  | some s =>
    match (if k = 3 then resendAll u n (gapMsgs (stnS s u n).conn g) s else some s) with
    | none => none
    | some s => pump s u n

/-- A probe that is answered ends (06 R193): the ladder stops where nothing is outstanding and the window is open. -/
def endProbe (c : Conn) : Conn :=
  { c with
    probing := false
    ladder := if c.probing && decide (c.wnd ≠ 0) && c.sent.all (fun m => !m.emitted) then none else c.ladder }

/-- A received segment: discarded and counted unless valid; else it renews the keepalive time and acts (06 R185, R193). -/
def withSeg (s : State) (u : UnitId) (n : Nat) (ty : SegType) (g : Segment) (act : State → Option State) : State :=
  if (stnS s u n).st = .closed then s else
  match segValid s u n ty g with
  | (s', false) => discOther s' u n
  | (s', true) =>
    let s' := modConn s' u n (fun c => { endProbe c with lastValid := (getUnit s' u).ucc })
    (act s').getD s

/-- The bytes of a message from its segments as far as they reach from an offset. `k` bounds the segments. -/
def assemble (l : List (Nat × List Byte)) : Nat → Nat → List Byte → List Byte
  | 0, _, acc => acc
  | k + 1, at_, acc =>
    match l.find? (fun p => decide (p.1 ≤ at_) && decide (at_ < p.1 + p.2.length)) with
    | none => acc
    | some p =>
      let part := p.2.drop (at_ - p.1)
      assemble l k (at_ + part.length) (acc ++ part)

/-- A station whose inbound messages engine hardware consumes: a mirror sink, or the MSTN of a mirrored book (05 R156). -/
def hwConsumes (x : UnitState) (n : Nat) (t : Station) : Bool :=
  stnMsink t || (List.range 256).any (fun b => bookMirrored x b && bookMstn x b == n)

/-- A message taken by mirror hardware: the next SEQ, acknowledged at once (05 R156). -/
def hwTake (s : State) (u : UnitId) (n : Nat) : Option State :=
  let s := modUnit s u (fun x =>
    let t := stnOf x n
    setSeqs x n (inNextOf x n t + 1) (outNextOf x n t) (outAckedOf x n t))
  ackNow s u n false

/-- A whole message at the station: to mirror hardware, where it is malformed unless its own row carries it, or onward. -/
def gotMsg (s : State) (u : UnitId) (n : Nat) (m : InMsg) : Option State :=
  let x := getUnit s u
  let t := stnS s u n
  if hwConsumes x n t then
    if m.seq = inNextOf x n t then hwTake (discOther s u n) u n else some (discOther s u n)
  else if t.st ≠ .opened then some s
  else wholeMsg s u n m

/-- A DATA segment put into its message (06 R189). -/
def dataSeg (s : State) (u : UnitId) (n : Nat) (g : Segment) (v : ProgVerdict) : Option State :=
  let x := getUnit s u
  let t := stnS s u n
  if stnTransport t = 1 then gotMsg s u n { seq := g.seq, payload := g.payload, verdict := v } else
  if g.mlen = 0 ∨ 65535 < g.mlen ∨ g.mlen < g.moff + g.payload.length then some (discOther s u n) else
  let old := t.conn.parts.find? (fun p => p.seq == g.seq)
  let p : Partial := old.getD { seq := g.seq, mlen := g.mlen, segs := [], deadline := x.ucc + usCycles s (4 * rtoBase x t), verdict := v }
  let p := { p with segs := p.segs ++ [(g.moff, g.payload)], verdict := v }
  let rest := t.conn.parts.filter (fun q => q.seq ≠ g.seq)
  let bs := assemble p.segs (p.segs.length + 1) 0 []
  if bs.length < p.mlen then some (modConn s u n (fun c => { c with parts := rest ++ [p] }))
  else gotMsg (modConn s u n (fun c => { c with parts := rest })) u n { seq := g.seq, payload := bs.take p.mlen, verdict := v }

/-- A valid INIT in the states of 06 R187. -/
def gotInit (s : State) (u : UnitId) (n : Nat) (g : Segment) : Option State :=
  let t := stnS s u n
  match g.body with
  | none => some s
  | some b =>
    let same := t.conn.pendBody.isSome && b.nonce == t.conn.peerNonce
    match t.conn.st with
    | .listen | .lost =>
      some (resetLadder (modConn (answerInit s u n g b false) u n (fun c => { c with st := .initRcvd })) u n)
    | .initSent =>
      if t.conn.nonce.toNat < b.nonce.toNat then
        some (resetLadder (modConn (answerInit s u n g b false) u n (fun c => { c with st := .initRcvd })) u n)
      else if b.nonce = t.conn.nonce then
        some (modConn s u n (fun c => { c with tie := some ((getUnit s u).ucc + usCycles s (rtoBase (getUnit s u) t)) }))
      else some s
    | .initRcvd => some (answerInit s u n g b same)
    | .established => some (answerInit s u n g b same)
    | _ => some s

/-- A valid INIT_ACK (06 R187). A repeat is answered with the same READY. -/
def gotInitAck (s : State) (u : UnitId) (n : Nat) (g : Segment) : Option State :=
  let t := stnS s u n
  match g.body with
  | none => some s
  | some b =>
    if t.conn.st = .initSent then
      establish (modConn s u n (fun c => { c with peerNonce := b.nonce })) u n b (some b.nonce)
    else if b.nonce = t.conn.peerNonce then
      some (emitHs s u n .ready t.conn.peerConn (hsBody (getUnit s u) n t t.conn.myConn b.resume b.nonce))
    else some s

/-- A valid READY that echoes the INIT_ACK's NONCE: the pending connection takes the old one's place, and with MOVE the
peer's address (06 R187, R196, R202). -/
def gotReady (s : State) (u : UnitId) (n : Nat) (g : Segment) : Option State :=
  let t := stnS s u n
  match g.body, t.conn.pendBody with
  | some b, some pb =>
    if b.nonce ≠ t.conn.pendNonce then some (discOther s u n) else
    let s := modConn s u n (fun c => { c with
      myConn := c.pendConn
      peerAddr := if stnTransport t = 0 ∧ pb.resume ∧ stnMove t then c.pendAddr else c.peerAddr
      peerPort := if stnTransport t = 0 ∧ pb.resume ∧ stnMove t then c.pendPort else c.peerPort
      peerModule := if stnTransport t = 1 ∧ pb.resume then BitVec.ofNat 16 c.pendAddr.toNat else c.peerModule })
    establish s u n pb none
  | _, _ => some s

/-- The transport of a closing station has ended (05 R135 CLOSE, 06 R187): the mark is closed, the descriptor written back
with free running state, the command completes. -/
def finishClose (s : State) (u : UnitId) (n : Nat) : Option State :=
  let t := stnS s u n
  let (w0, s) := nextFree s
  let (w1, s) := nextFree s
  let (w2, s) := nextFree s
  match eWrite s u n (t.descAddr + 104) (wordsBytes [w0, w1, w2]) with
  | none => none
  | some (s, _) =>
    let s := if stnJournal t then
        modUnit s u (fun x => markPut x n (fun k w => if k = 0 then withBit w 26 false else w)) else s
    match cmdDone s u n 0 with
    | none => none
    | some s => some (modS s u n (fun t => { t with
        st := .closed, cqKnown := false, errEntry := none, reserved := 0, path := none, conn := {}, heldAcks := [] }))

/-- A valid CLOSE (06 R187, R209). -/
def gotClose (s : State) (u : UnitId) (n : Nat) : Option State :=
  let t := stnS s u n
  let g := segBase (getUnit s u) n t
  let s := emitSeg s u n .closeAck { g with ackv := false, ack := 0, sack := [] }
  if t.conn.st = .closing then some s else peerLost s u n .listen

/-- CLOSE_ACK, or the end of the ladder, ends a closing connection (06 R187). -/
def gotCloseAck (s : State) (u : UnitId) (n : Nat) : Option State :=
  finishClose (modConn s u n (fun c => { c with st := .closed, ladder := none })) u n

/-- Time passes in a unit to a UCC, where that UCC lies before its next boundary (log 4). -/
def timeTo (s : State) (u : UnitId) (t : Nat) : Option State :=
  if unitRuns s u t then some (modUnit s u (fun x => { x with ucc := later x.ucc t })) else none

/-- What a ladder step sends again (06 R187, R192). -/
def ladderSend (s : State) (u : UnitId) (n : Nat) : Option State :=
  let t := stnS s u n
  let g := segBase (getUnit s u) n t
  match t.conn.st with
  | .initSent => some (sendInit s u n)
  | .initRcvd => some (sendInitAck s u n)
  | .closing => some (emitSeg s u n .close { g with ackv := false, ack := 0, sack := [] })
  | .established =>
    if t.conn.wnd = 0 ∨ t.conn.probing then some (emitSeg s u n .probe g)
    else
      match t.conn.sent.find? (fun m => m.emitted) with
      | some m => if t.conn.sacks.any (fun r => decide (r.1 ≤ m.seq ∧ m.seq ≤ r.2)) then some s else sendOne s u n m true
      | none => some s
  | _ => some s

/-- A ladder step expires (06 R192): exhaustion at the last, else the oldest message again, from the second expiry on a
path change, and the next step. -/
def ladderExpire (s : State) (u : UnitId) (n k : Nat) : Option State :=
  let t := stnS s u n
  if rtoSteps (getUnit s u) t ≤ k + 1 then
    if t.conn.st = .closing then gotCloseAck s u n else peerLost s u n .lost
  else
    match ladderSend s u n with
    | none => none
    | some s =>
      let s := if 1 ≤ k then modUnit s u (fun x => modStn x n (fun t => { t with path := nextPath x (stnGroup t) t.path })) else s
      some (modS s u n (fun t => { t with conn := { t.conn with ladder := some (ladderStep s u t (k + 1)) } }))

end Sys2Proof.Machine
end

