-- ==== Sys2Proof/Machine/Stations.lean ====
section
/-! DEFINITION. Station commands, doorbells, TX entries, fieldbook completions, mirroring (05 R134 to R165). -/
namespace Sys2Proof.Machine

/-- A ring word's size is in range: 6 to 20, or 0 where the ring may be absent (05 R132). -/
def ringOk (w : Word) (absent : Bool) : Bool :=
  bitsOf w 0 12 == 0 && bitsOf w 57 7 == 0 && (decide (6 ≤ ringLog w ∧ ringLog w ≤ 20) || (absent && ringLog w == 0))

/-- The PEER word is in range for its TRANSPORT (06 R181, R182, R202). -/
def peerOk (t : Station) : Bool :=
  let w := dW t 11
  match stnTransport t with
  | 0 => bitsOf w 0 6 == 0 && bitsOf w 52 12 == 0
  | 1 => bitsOf w 36 28 == 0
  | _ => bitsOf w 10 54 == 0

/-- The descriptor's own fields are in range (05 R132, R133, 06 R181, R204). -/
def descOk (t : Station) : Bool :=
  let w := dW t 0
  let out := bitsOf w 0 2 == 1
  bitsOf w 0 2 != 3 && stnTransport t != 3 && !bitOf w 7 && bitsOf w 26 6 == 0 && bitsOf w 60 4 == 0
    && decide (bitsOf w 14 4 ≤ 10) && ringOk (dW t 1) false
    && (List.range 4).all (fun q => ringOk (dW t (2 + q)) true && ringOk (dW t (6 + q)) true
      && (ringLog (dW t (2 + q)) == 0 || ringLog (dW t (6 + q)) != 0))
    && (out || (ringLog (dW t 2) != 0 && ringLog (dW t 6) != 0))
    && bitsOf (dW t 10) 57 7 == 0 && bitsOf (dW t 12) 0 12 == 0 && bitsOf (dW t 12) 52 12 == 0
    && peerOk t && (stnTransport t == 2) == (stnGroup t == 0)
    && (stnTransport t != 2 || stnJmode t == 0)

/-- The book that the descriptor names fits (05 R133). -/
def descBookOk (x : UnitState) (t : Station) : Bool :=
  let b := stnBook t
  let mine := bookParcel x b == stnParcel t
  (stnJmode t == 0 || (bookKind x b == 1 && mine)) && (stnJmode t != 3 || bookMirrored x b)
    && (!stnMsink t || (stnTransport t == 1 && stnJmode t == 0 && bookKind x b == 2 && mine))

/-- The TVT peer entry's reserved bits are zero (06 R182). -/
def peerEntryOk (ws : List Word) : Bool :=
  let w := fun k => ws.getD k (0 : Word)
  bitsOf (w 0) 3 5 == 0 && bitsOf (w 0) 60 4 == 0 && bitsOf (w 1) 14 2 == 0 && bitsOf (w 1) 36 4 == 0
    && (ws.drop 4).all (fun v => v == 0)

/-- An OPEN that fails before CQ 0 is known: CLOSED, with its code for STATION.QUERY (05 R135). -/
def openFail (s : State) (u : UnitId) (n code : Nat) : State :=
  modS s u n (fun t => { t with busy := false, st := .closed, cqKnown := false, code := BitVec.ofNat 8 code })

/-- The SEQs of a station that wait for the partner's confirmation, from its book (05 R143). -/
def waitingSeqs (x : UnitState) (n b : Nat) : List (Nat × Nat) :=
  ((liveRecs x b).filter (fun r =>
    recKind x r.2 == 1 && recStation x r.2 == n && decide (mconfBsn x b < r.1))).map (fun r => (recSeq x r.2, r.1))

/-- The mark and the running state at OPEN (05 R137, 06 R186, R188): a resumed station keeps its mark. -/
def openSeqs (x : UnitState) (n : Nat) (resume : Bool) : UnitState :=
  let t := stnOf x n
  let first := if stnTransport t = 2 then 0 else 1
  let x := if resume then x
    else if stnJournal t then
      markPut x n (fun k w => if k = 0 then markHead n (stnParcel t) (stnBook t) true else if k = 1 ∨ k = 2 ∨ k = 3 then BitVec.ofNat 64 first else w)
    else setSeqs x n first first first
  let t := stnOf x n
  setStn x n { t with
    done := inNextOf x n t, confWait := if stnJmode t = 3 ∧ resume then waitingSeqs x n (stnBook t) else []
    heldAcks := [], replay := none, mirrorTold := false }

/-- The transport of an opened station set up (05 R135, 06 R187, R205). -/
def openConn (s : State) (u : UnitId) (n : Nat) (resume : Bool) : State :=
  let t := stnS s u n
  let x := getUnit s u
  let addr : Quad := if bitOf (peerW t 0) 0 then peerW t 2 ++ peerW t 3 else BitVec.ofNat 128 (bitsOf (peerW t 2) 0 32)
  let s := modS s u n (fun t => { t with
    path := if stnTransport t = 2 then none else choosePath x (stnGroup t) n
    conn := { resume := resume, estab := resume, peerAddr := addr, peerPort := BitVec.ofNat 16 (bitsOf (peerW t 0) 16 16)
              peerModule := BitVec.ofNat 16 (bitsOf (dW t 11) 0 16) } })
  if stnTransport t = 2 then s
  else if stnActive t then startInit s u n resume
  else modConn s u n (fun c => { c with st := .listen })

/-- OPEN once the descriptor stands in the station (05 R135, R137). -/
def openChecked (s : State) (u : UnitId) (n : Nat) (resume : Bool) : Option State :=
  let x := getUnit s u
  let t := stnS s u n
  let b := stnBook t
  if !resume && stnJournal t && (liveRecs x b).any (fun r => recStation x r.2 == n && recKind x r.2 != 6) then
    (cmdDone s u n 0x04).map (fun s => modS s u n (fun t => { t with cqKnown := false }))
  else if resume && (!markOpen x n || bitsOf (markWord x n 0) 20 6 != stnParcel t || bitsOf (markWord x n 0) 27 8 != b) then
    (cmdDone s u n 0x05).map (fun s => modS s u n (fun t => { t with cqKnown := false }))
  else
    let s := modUnit s u (fun x => openSeqs x n resume)
    let s := modS s u n (fun t => { t with st := if resume then .replaying else .opened })
    cmdDone (openConn s u n resume) u n 0

/-- The peer entry of a TVT station read and its key loaded; `false` is BAD_DESC (06 R182). -/
def openPeer (s : State) (u : UnitId) (n : Nat) : Option (State × Bool) :=
  let t := stnS s u n
  if stnTransport t ≠ 0 then some (s, true) else
  match eRead s u n (bitsOf (dW t 11) 0 52) 64 with
  | none => none
  | some (s, none) => some (s, false)
  | some (s, some bs) =>
    let ws := bytesWords 8 bs
    let s := modS s u n (fun t => { t with peer := ws })
    if !peerEntryOk ws then some (s, false) else
    let s := modUnit s u (fun x => { x with cph := { x.cph with tvtKeys := tabSet (fun _ => (none : Option HiddenKey)) x.cph.tvtKeys n none } })
    let (s, k) := tvtKey s u n
    some (s, k.isSome)

/-- OPEN (05 R133, R135). -/
def doOpen (s : State) (u : UnitId) (n : Nat) (resume : Bool) (addr : Nat) : Option State :=
  match tabGet (fun _ => (none : Grant)) (getUnit s u).trv.grants n with
  | none => some (openFail s u n 0x02)
  | some p =>
    match dmaRead (getUnit s u) (stnAgent n) p.toNat addr 128 with
    | (_, _, .wait) => none
    | (x, bs, .ok) =>
      let s := setUnit s u x
      let old := stnS s u n
      let t : Station := { old with desc := (bytesWords 16 bs).take 13, peer := [], descAddr := addr }
      if stnParcel t ≠ p.toNat then some (openFail s u n 0x02) else
      if !descOk t || !descBookOk x t then some (openFail s u n 0x01) else
      let s := modS s u n (fun _ => t)
      match openPeer s u n with
      | none => none
      | some (s, false) => some (openFail s u n 0x01)
      | some (s, true) =>
        let s := modS s u n (fun t => { t with cqKnown := ringLog (dW t 6) != 0, reserved := 1 })
        openChecked s u n resume
    | (x, _, _) => some (openFail (setUnit s u x) u n 0x09)

/-- QUIESCE (05 R135): it ends when in-flight work has ended. -/
def doQuiesce (s : State) (u : UnitId) (n : Nat) : Option State :=
  if (stnS s u n).st ≠ .opened then cmdDone s u n 0x03 else some (modS s u n (fun t => { t with st := .quiescing }))

/-- A fieldbook write waits for a station. -/
def contStation : FbCont → Option Nat
  | .inRecord n .. => some n
  | .outRecord n _ => some n
  | .settled n .. => some n
  | .mirrorRec n .. => some n
  | .nothing | .coreStore _ | .cohDone .. => none

/-- A station has writes in flight or waiting. -/
def stnInFlight (x : UnitState) (n : Nat) : Bool :=
  (x.fb.flight ++ x.fb.waiting).any (fun w => contStation w.cont == some n)

/-- An OUT record of a station is not DONE. -/
def outOpen (x : UnitState) (n : Nat) (t : Station) : Bool :=
  decide (2 ≤ stnJmode t) && (liveRecs x (stnBook t)).any (fun r => recKind x r.2 == 2 && recStation x r.2 == n && recState x r.2 == 0)

/-- CLOSE (05 R135, 06 R187). -/
def doClose (s : State) (u : UnitId) (n : Nat) : Option State :=
  let x := getUnit s u
  let t := stnS s u n
  if t.st ≠ .quiesced ∨ stationSlots x n ≠ 0 ∨ outOpen x n t ∨ t.txProd ≠ t.txc then cmdDone s u n 0x03
  else if t.conn.st = .established then
    let g := segBase x n t
    let s := emitSeg s u n .close { g with ackv := false, ack := 0, sack := [] }
    some (resetLadder (modConn s u n (fun c => { c with st := .closing })) u n)
  else finishClose s u n

/-- Step 1 of REPLAY: a mirrored book's unconfirmed records go to the partner again, and the OUT records of the station that
are OPEN are queued (05 R165). -/
def replayOut (s : State) (u : UnitId) (n : Nat) : Option State :=
  let x := getUnit s u
  let t := stnS s u n
  let b := stnBook t
  let recs := if stnJournal t then liveRecs x b else []
  let resend := recs.filter (fun r => decide (mconfBsn x b < r.1) && (recKind x r.2 == 1 || recKind x r.2 == 2))
  let s' := resend.foldl (fun (o : Option State) r => match o with | none => none | some s => mirrorSend s u b r.2 false) (some s)
  match s' with
  | none => none
  | some s =>
    let outs := recs.filter (fun r => recKind x r.2 == 2 && recStation x r.2 == n && recState x r.2 == 0)
    let ms : List Sent := outs.map (fun r => { seq := recSeq x r.2, tag := 0, len := recLen x r.2, buf := 0, recOff := some r.2, own := false
                                               afterSeq := none, ready := true, emitted := false, data := [] })
    pump (modConn s u n (fun c => { c with sent := ms })) u n

/-- Replay stops at a record: the CMD completion has the code, and a later REPLAY goes on there (05 R165). -/
def replayStop (s : State) (u : UnitId) (n seq code : Nat) : Option State :=
  cmdDone (modS s u n (fun t => { t with replay := some { nextSeq := seq } })) u n code

/-- Step 2 of REPLAY over the station's OPEN IN records, then steps 3 and 4 (05 R165). -/
def replayIn (u : UnitId) (n : Nat) : List (Nat × Nat) → State → Option State
  | [], s =>
    let s := modS s u n (fun t => { t with st := .opened, replay := none })
    match ackNow s u n true with
    | none => none
    | some s => cmdDone s u n 0
  | (_, off) :: r, s =>
    let x := getUnit s u
    let t := stnS s u n
    let seq := recSeq x off
    if fbUnreadable x off (recSize (recLen x off)) then
      match errPut (raiseUnitFree s u 0x208) u n 0x0A seq with
      | none => none
      | some s => replayIn u n r s
    else
      match freeSlot x (stnParcel t) with
      | none => replayStop s u n seq 0x0B
      | some k =>
        if !postReady t 0 then replayStop s u n seq 0x0C else
        match takePost s u n 0 with
        | none => none
        | some (s, none) => some s
        | some (s, some (buf, cap, tag)) =>
          let s := modUnit s u (fun x => putSlot x k (some { station := n, seq := seq, off := off, cn := x.cn, parcel := stnParcel t }))
          match deliverRx s u n 0 buf cap
              { kind := 0, replay := true, slot := k, seq := seq, tag := tag, fbref := BitVec.ofNat 64 off } (recPayload x off) with
          | none => none
          | some s => replayIn u n r s

/-- REPLAY (05 R165). -/
def doReplay (s : State) (u : UnitId) (n : Nat) : Option State :=
  let t := stnS s u n
  if t.st ≠ .replaying then cmdDone s u n 0x03 else
  let from_ := match t.replay with | some r => r.nextSeq | none => 0
  let s1 := if t.replay.isSome then some s else replayOut s u n
  match s1 with
  | none => none
  | some s =>
    let x := getUnit s u
    let recs := if stnJournal t then liveRecs x (stnBook t) else []
    replayIn u n (recs.filter (fun r => recKind x r.2 == 1 && recStation x r.2 == n && recState x r.2 == 0 && decide (from_ ≤ recSeq x r.2))) s

/-- A DB_CMD word executes (05 R135, R552). -/
def runCmd (s : State) (u : UnitId) (n : Nat) (w : Word) : Option State :=
  let t := stnS s u n
  let op := bitsOf w 0 4
  let s := modS s u n (fun t => { t with busy := true, waitCmd := none, reserved := if t.cqKnown then t.reserved + 1 else t.reserved })
  if op = 0 ∨ 4 < op ∨ bitsOf w 5 2 ≠ 0 ∨ bitsOf w 52 12 ≠ 0 then cmdDone s u n 0x10
  else if op = 1 then
    if t.st ≠ .closed then cmdDone s u n 0x03 else doOpen s u n (bitOf w 4) (bitsOf w 7 45 * 128)
  else if op = 2 then doQuiesce s u n
  else if op = 3 then doClose s u n
  else doReplay s u n

/-- A write of DB_CMD (05 R135, R552): ignored while BUSY; without room in CQ 0 it waits. -/
def stationCmd (s : State) (u : UnitId) (n : Nat) (w : Word) : State :=
  let t := stnS s u n
  if t.busy then s
  else if t.cqKnown && !cqRoom t 0 1 then modS s u n (fun t => { t with busy := true, waitCmd := some w })
  else (runCmd s u n w).getD s

/-- STATION_OPEN (05 R135). -/
def execStationOpen (u : UnitId) (n : StationId) (resume : Bool) (desc : BitVec 52) (s : State) : Host.Outcome State Fault Refusal :=
  .next (stationCmd s u n (BitVec.ofNat 64 (1 + 16 * bit resume + desc.toNat / 128 * 128)))

/-- STATION_QUIESCE (05 R135). -/
def execStationQuiesce (u : UnitId) (n : StationId) (s : State) : Host.Outcome State Fault Refusal := .next (stationCmd s u n 2)

/-- QUIESCE_COMPLETE (05 R135). -/
def execQuiesceComplete (u : UnitId) (n : StationId) (s : State) : Host.Outcome State Fault Refusal :=
  let t := stnS s u n
  if t.st ≠ .quiescing ∨ stnInFlight (getUnit s u) n then .next s
  else .next ((cmdDone (modS s u n (fun t => { t with st := .quiesced })) u n 0).getD s)

/-- STATION_CLOSE (05 R135). -/
def execStationClose (u : UnitId) (n : StationId) (s : State) : Host.Outcome State Fault Refusal := .next (stationCmd s u n 3)

/-- STATION_REPLAY (05 R165). -/
def execStationReplay (u : UnitId) (n : StationId) (s : State) : Host.Outcome State Fault Refusal := .next (stationCmd s u n 4)

/-- DEFERRED_COMMAND (05 R552). -/
def execDeferredCommand (u : UnitId) (n : StationId) (s : State) : Host.Outcome State Fault Refusal :=
  let t := stnS s u n
  match t.waitCmd with
  | none => .next s
  | some w => if cqRoom t 0 1 then .next ((runCmd s u n w).getD s) else .next s

/-- TX_DOORBELL: DB_TX.PROD (05 R134). -/
def execTxDoorbell (u : UnitId) (n : StationId) (prod : BitVec 32) (s : State) : Host.Outcome State Fault Refusal :=
  .next (modS s u n (fun t => { t with txProd := prod }))

/-- RX_POST_DOORBELL: DB_RX[q].PROD (05 R134). -/
def execRxPostDoorbell (u : UnitId) (n : StationId) (q : Fin 4) (prod : BitVec 32) (s : State) : Host.Outcome State Fault Refusal :=
  .next (modS s u n (fun t => { t with rxProd := t.rxProd.set q.val prod q.isLt }))

/-- CQ_CONSUME: DB_CQ[q].CONS (05 R134). -/
def execCqConsume (u : UnitId) (n : StationId) (q : Fin 4) (cons : BitVec 32) (s : State) : Host.Outcome State Fault Refusal :=
  .next (modS s u n (fun t => { t with cqCons := t.cqCons.set q.val cons q.isLt }))

/-- SEND (05 R144). -/
def execSend (u : UnitId) (n : StationId) (s : State) : Host.Outcome State Fault Refusal :=
  .next ((takeTx s u n 0 (fun s e => doSend s u n e)).getD s)

/-- SEND_SETTLE (05 R145). -/
def execSendSettle (u : UnitId) (n : StationId) (s : State) : Host.Outcome State Fault Refusal :=
  .next ((takeTx s u n 1 (fun s e => doSendSettle s u n e)).getD s)

/-- SETTLE (05 R145). -/
def execSettle (u : UnitId) (n : StationId) (s : State) : Host.Outcome State Fault Refusal :=
  .next ((takeTx s u n 2 (fun s e => doSettle s u n e)).getD s)

/-- Waiting writes accepted while fewer than 512 are in flight (13 R400). -/
def fbPromote (x : UnitState) : UnitState :=
  match x.fb.waiting with
  | [] => x
  | w :: r => fbAccept { x with fb := { x.fb with waiting := r } } w

/-- FB_WRITE_COMPLETE (13 R400): the oldest write in flight ends, 1,024 cycles after its issue; FB_WFAIL attributes. A
unit that no longer runs only makes its write durable. -/
def execFbWriteComplete (u : UnitId) (fails : Fin 5) (s : State) : Host.Outcome State Fault Refusal :=
  match (getUnit s u).fb.flight with
  | [] => .next s
  | w :: r =>
    let drop := fun (x : UnitState) => { x with fb := { x.fb with flight := r } }
    match timeTo s u w.due with
    | none =>
      if (getUnit s u).executing && !(getUnit s u).dropped then .next s
      else .next (modUnit s u (fun x => fbPromote (fbFinish (drop x) w fails).1))
    | some s' =>
      let f := fbFinish (drop (getUnit s' u)) w fails
      let s' := setUnit s' u (fbPromote f.1)
      let s' := if f.2 then raiseUnitFree s' u 0x207 else s'
      .next ((fbCont s' u w.cont).getD s)

/-- FB_READ_RETURN (13 R401): a read's errors are counted and logged; an uncorrectable or poisoned word is FB_UE. -/
def execFbReadReturn (u : UnitId) (off : BitVec 33) (o : FbRead) (s : State) : Host.Outcome State Fault Refusal :=
  match (if fbUnreadable (getUnit s u) off.toNat 64 then .ue else o) with
  | .clean => .next s
  | .ce => .next (raiseUnitFree (modUnit s u (fun x => fbLog { x with fb := { x.fb with ce := satUp x.fb.ce true } } 0 off.toNat)) u 0x210)
  | .ue =>
    .next (raiseUnitFree (modUnit s u (fun x => fbLog { x with fb := { x.fb with ue := satUp x.fb.ue true } } 1 off.toNat)) u 0x208)

/-- The MIRROR book of a sending module and origin book (05 R158). -/
def mirrorBook (x : UnitState) (m : MirrorMsg) : Option Nat :=
  (List.range 256).find? (fun b => bookKind x b == 2 && bookPartner x b == m.srcModule.toNat && bookObook x b == m.obook.toNat)

/-- The last MSEQ of a book that its sink has taken: word 7, or a message whose write is in flight (log 45). -/
def lastTaken (x : UnitState) (b : Nat) : Nat :=
  (x.fb.flight ++ x.fb.waiting).foldl (fun a w => match w.cont with
    | .mirrorRec _ c q _ => if c = b then later a q else a
    | _ => a) (bookMseq x b)

/-- The book already holds the record of a message (05 R158 step 1). -/
def mirrorHeld (x : UnitState) (b : Nat) (m : MirrorMsg) : Bool :=
  (liveRecs x b).any (fun r => (recWord x r.2 4).toNat == m.originBsn &&
    (if m.isState then recKind x r.2 == 5 && recPayload x r.2 == m.payload else recKind x r.2 == 3 || recKind x r.2 == 4))

/-- The record that the sink writes (05 R158 step 2). -/
def mirrorWrite (x : UnitState) (n b : Nat) (m : MirrorMsg) : UnitState :=
  let kind := if m.isState then 5 else if m.kind = 1 then 3 else 4
  (bookAppendCn m.cn x (stnEng n) b (recHead1 kind m.jmode.toNat m.station.toNat m.payload.length m.modid.toNat) (BitVec.ofNat 64 m.seq)
    (BitVec.ofNat 64 m.originBsn) m.link m.payload (fun _ _ => .mirrorRec n b m.mseq m.originBsn)).1

/-- A mirror message at its sink (05 R158). -/
def mirrorTake (s : State) (u : UnitId) (n b : Nat) (m : MirrorMsg) : Option State :=
  let s := modUnit s u (fun x =>
    let x := modMirror x b (fun k => { k with lastSeen := some x.cn })
    if m.restart then bookPut x (stnEng n) b (fun i w => if i = 7 then 0 else w) else x)
  let x := getUnit s u
  if m.mseq ≠ (if m.restart then 0 else lastTaken x b) + 1 then some (discOther s u n)
  else
    let s := modUnit s u (fun x => bookPut x (stnEng n) b (fun i w => if i = 6 then BitVec.ofNat 64 m.otail else w))
    let x := getUnit s u
    if mirrorHeld x b m then mirrorTaken s u n b m.mseq
    else if !bookRoom x b m.payload.length then some (discOther s u n)
    else some (setUnit s u (mirrorWrite x n b m))

/-- MIRROR_MESSAGE_RECEIVE (05 R156, R158): taken and acknowledged by the sink's hardware; without a book it is discarded. -/
def execMirrorMessageReceive (u : UnitId) (n : StationId) (m : MirrorMsg) (s : State) : Host.Outcome State Fault Refusal :=
  let t := stnS s u n
  if t.st ≠ .opened ∨ !stnMsink t then .next s else
  match hwTake s u n with
  | none => .next s
  | some s' =>
    match mirrorBook (getUnit s' u) m with
    | none => .next (discOther s' u n)
    | some b => .next ((mirrorTake s' u n b m).getD s)

/-- The acknowledgements of the stations of a book that a confirmation now allows (05 R159). -/
def confirmStns (u : UnitId) (b : Nat) : List Nat → State → Option State
  | [], s => some s
  | n :: r, s =>
    let t := stnS s u n
    if stnJmode t ≠ 3 ∨ stnBook t ≠ b then confirmStns u b r s else
    let c := mconfBsn (getUnit s u) b
    match ackNow (modS s u n (fun t => { t with confWait := t.confWait.filter (fun p => decide (c < p.2)) })) u n false with
    | none => none
    | some s => confirmStns u b r s

/-- CONFIRMATION_RECEIVE (05 R156, R159, R160). -/
def execConfirmationReceive (u : UnitId) (book : BitVec 8) (confBsn confMseq : Nat) (s : State) : Host.Outcome State Fault Refusal :=
  let b := book.toNat
  let x := getUnit s u
  let n := bookMstn x b
  if !bookMirrored x b ∨ (stnS s u n).st ≠ .opened then .next s else
  match hwTake s u n with
  | none => .next s
  | some s' =>
    let s' := modUnit s' u (fun x =>
      let x := if mconfBsn x b < confBsn then bookPut x (stnEng n) b (fun i w => if i = 6 then BitVec.ofNat 64 confBsn else w) else x
      let x := modMirror x b (fun k => { k with unconf := k.unconf.filter (fun p => decide (confMseq < p.1)) })
      if (mirrorOf x b).unconf.isEmpty then { x with fb := { x.fb with mlost := withBit x.fb.mlost b false } } else x)
    .next ((confirmStns u b (liveStns (getUnit s' u)) s').getD s)

/-- MIRROR_LOST told once to each BOTH_MIRROR station of a book (05 R167). -/
def tellLost (u : UnitId) (b : Nat) : List Nat → State → Option State
  | [], s => some s
  | n :: r, s =>
    let t := stnS s u n
    if stnJmode t ≠ 3 ∨ stnBook t ≠ b ∨ t.mirrorTold then tellLost u b r s else
    match errPut (modS s u n (fun t => { t with mirrorTold := true })) u n 0x0F 0 with
    | none => none
    | some s => tellLost u b r s

/-- A book enters MIRROR_LOST (05 R160). -/
def enterLost (s : State) (u : UnitId) (b : Nat) : Option State :=
  if bookLost (getUnit s u) b then some s else
  let s := modUnit s u (fun x => { x with fb := { x.fb with mlost := withBit x.fb.mlost b true } })
  let s := (liveStns (getUnit s u)).foldl (fun s n => modS s u n (fun t => if stnBook t = b then { t with mirrorTold := false } else t)) s
  tellLost u b (liveStns (getUnit s u)) s

/-- MIRROR_LOST_TIMEOUT (05 R160): a mirror message unconfirmed for 4,096 chains, or no live path of MSTN. -/
def execMirrorLostTimeout (u : UnitId) (book : BitVec 8) (s : State) : Host.Outcome State Fault Refusal :=
  let b := book.toNat
  let x := getUnit s u
  let late := (mirrorOf x b).unconf.any (fun p => decide (p.2 + 4096 ≤ x.cn))
  let t := stnOf x (bookMstn x b)
  let cut := decide (t.st ≠ .closed) && (livePaths x (stnGroup t)).isEmpty
  if !bookMirrored x b ∨ !(late || cut) then .next s else .next ((enterLost s u b).getD s)

end Sys2Proof.Machine
end

