-- ==== Sys2Proof/Machine/RegOps.lean ====
section
/-! DEFINITION. The control window: which register lies at an offset, who may reach it, its reads and writes (00 R11 to R15, 01
R26, R27, 15 R453, and the register tables of the chapters). -/
namespace Sys2Proof.Machine

/-- A place in the control window (01 R27), with the offset inside its block or page. -/
inductive CtlLoc
  | chn (o : Nat)
  | lvl (o : Nat)
  | clo (o : Nat)
  | mbx (n : Fin 64) (o : Nat)
  | cph (p : Fin 1024) (o : Nat)
  | cmp (e : Fin 2) (c : Fin 16) (o : Nat)
  | tec (k : Fin 16) (o : Nat)
  | db (n : StationId) (o : Nat)
  | reserved
  deriving DecidableEq, Repr

/-- The place of a control-window offset (01 R27, 14 R429, 05 R134, R169). -/
def ctlLoc (off : Nat) : CtlLoc :=
  if off < 0x10000 then .chn off
  else if off < 0x20000 then .lvl (off - 0x10000)
  else if off < 0x30000 then .clo (off - 0x20000)
  else if 0x100000 ≤ off ∧ off < 0x140000 then .mbx (Fin.ofNat 64 ((off - 0x100000) / 4096)) (off % 4096)
  else if 0x400000 ≤ off ∧ off < 0x800000 then .cph (Fin.ofNat 1024 ((off - 0x400000) / 4096)) (off % 4096)
  else if 0x800000 ≤ off ∧ off < 0x820000 then
    .cmp (Fin.ofNat 2 ((off - 0x800000) / 65536)) (Fin.ofNat 16 (off % 65536 / 4096)) (off % 4096)
  else if 0x1000000 ≤ off ∧ off < 0x1400000 then .tec (Fin.ofNat 16 ((off - 0x1000000) / 0x40000)) (off % 0x40000)
  else if 0x1000000000 ≤ off ∧ off < 0x1100000000 then .db (Fin.ofNat 0x100000 ((off - 0x1000000000) / 4096)) (off % 4096)
  else .reserved

/-- A register is listed there; every other offset is reserved (01 R26). -/
def ctlListed : CtlLoc → Bool
  | .chn o => o % 8 == 0 && (decide (o ≤ 0x20) || decide (0x40 ≤ o ∧ o ≤ 0x58))
  | .lvl o => o % 8 == 0 && (decide (o ≤ 0x48) || o == 0x100)
  | .clo o => o % 8 == 0 && decide (o ≤ 0x20)
  | .mbx _ o => o % 8 == 0 && decide (o ≤ 0x90)
  | .cph _ o => o % 8 == 0 && (decide (o ≤ 0x10) || decide (0x40 ≤ o ∧ o ≤ 0x88) || o == 0xF00)
  | .cmp _ _ o => o % 8 == 0 && decide (o ≤ 0x20)
  | .tec k o => o % 8 == 0 && (o == 0 || (k == 0 && (decide (0x100 ≤ o ∧ o ≤ 0x128) || o == 0x140 || o == 0x148)))
  | .db _ o => o % 8 == 0 && decide (o ≤ 0x50)
  | .reserved => false

/-- Who reaches a control-window target (15 R453, 16 R459): a parcel in supervisor or problem state, or an engine of a
cluster for a parcel. -/
structure CtlMaster where
  parcel : Nat
  sup : Bool
  cluster : Option Nat := none
  deriving DecidableEq, Repr

/-- The MID of a master (16 R459). -/
def ctlMid (m : CtlMaster) : Nat := match m.cluster with | some k => 0x200 + k | none => 0x100 + m.parcel

/-- A channel binding as a unit's targets hold it (16 R465). -/
def unitBind (x : UnitState) (n : Fin 64) : Word := tabGet (fun _ => (0 : Word)) x.binds n.val

/-- The parcel of a grant is the master's. -/
def ownedBy (o : Option (BitVec 6 × BitVec 16)) (p : Nat) : Bool := match o with | some (q, _) => q.toNat == p | none => false

/-- The target accepts the access (15 R453). -/
def ctlAccepts (x : UnitState) (m : CtlMaster) (write : Bool) : CtlLoc → Bool
  | .chn _ | .lvl _ | .clo _ =>
    !write || (m.sup && (match parcelOf x m.parcel with | some q => q.sys | none => false))
  | .mbx n _ =>
    let b := unitBind x n
    (m.cluster.isSome || m.sup) && (bindMid b .a == ctlMid m || bindMid b .b == ctlMid m)
  | .cph p _ => ownedBy (pageOf x p.val).owner m.parcel
  | .cmp e c _ => ownedBy (cmpChan x e c.val).owner m.parcel
  | .tec _ _ => !write
  | .db n _ => match tabGet (fun _ => (none : Grant)) x.trv.grants n.val with | some q => q.toNat == m.parcel | none => false
  | .reserved => true

/-- LVL_ENT_STATUS (03 R93). -/
def entStatus (x : UnitState) : Word := BitVec.ofNat 64 (x.lvl.pool.length + 128 * bit x.lvl.underrun)

/-- LVL_CLK.MHZ (03 R93). -/
def clkMhz (s : State) : Nat := match s.bin with | .l52 => 5200 | .l48 => 4800

/-- CPH_OWN and CMP_OWN (14 R413, R433). -/
def ownWord : Option (BitVec 6 × BitVec 16) → Word
  | none => 0
  | some (p, c) => BitVec.ofNat 64 (1 + 2 ^ 8 * p.toNat + 2 ^ 16 * c.toNat)

/-- CPH_STATUS (14 R413). -/
def cphStatus (g : CphPage) : Word :=
  let k := match g.key with | some k => k.slot * 2 ^ 16 + bit k.derived * 2 ^ 30 | none => 0
  BitVec.ofNat 64 (bit g.busy + 2 * bit g.key.isSome + 4 * bit g.ctx.isSome + 8 * bit g.ovr + 2 ^ 8 * g.code.toNat + k)

/-- DB_STATE.STATE as a number (05 R134). -/
def stnCode : StnSt → Nat
  | .closed => 0
  | .opened => 1
  | .quiescing => 2
  | .quiesced => 3
  | .replaying => 4

/-- TEC_STATUS of a cluster (05 R169). -/
def tecStatus (x : UnitState) (k : Nat) : Word :=
  let run := (List.range 16).foldl (fun a e => a + 2 ^ e * bit (x.executing && !(unitEngine x (16 * k + e)).progEnd)) 0
  let open_ := (x.trv.stations.filter (fun e => e.1 / 65536 == k && decide (e.2.st ≠ .closed))).length
  BitVec.ofNat 64 (run + 2 ^ 16 * bit x.trv.stdprog + 2 ^ 17 * open_)

/-- TXS_STATUS (05 R169). -/
def txsStatus (x : UnitState) : Word :=
  let held := (x.trv.stations.map (fun e => e.2.heldAcks.length)).sum
  BitVec.ofNat 64 (262144 - x.trv.slots.length + 2 ^ 32 * held)

/-- The registers of cluster 0 and TEC_STATUS (05 R169, 06 R203). -/
def tecRead (x : UnitState) (k o : Nat) : Word :=
  if o = 0 then tecStatus x k
  else if o = 0x100 then txsStatus x
  else if o = 0x108 then BitVec.ofNat 64 (x.fb.epoch.toNat + 2 ^ 32 * x.fb.lstate.toNat)
  else if 0x110 ≤ o ∧ o ≤ 0x128 then BitVec.ofNat 64 (bitsOf x.fb.mlost (64 * ((o - 0x110) / 8)) 64)
  else if o = 0x140 then x.trv.tvtPort.setWidth 64
  else if o = 0x148 then x.trv.native
  else 0

/-- A doorbell register (05 R134). -/
def dbRead (t : Station) (o : Nat) : Word :=
  if o = 0 then t.txProd.setWidth 64
  else if o < 0x28 then (t.rxProd.toList.getD ((o - 8) / 8) 0).setWidth 64
  else if o < 0x48 then (t.cqCons.toList.getD ((o - 0x28) / 8) 0).setWidth 64
  else if o = 0x50 then BitVec.ofNat 64 (stnCode t.st + 8 * bit t.busy + 2 ^ 32 * t.txc.toNat)
  else 0

/-- A unit's CHN_ register (02 R49). -/
def chnRead (x : UnitState) (o : Nat) : Word :=
  if o = 0 then x.chn.cfg
  else if o = 8 then BitVec.ofNat 64 x.cn
  else if o = 0x10 then BitVec.ofNat 64 x.ub
  else if o = 0x18 then x.chn.status
  else if o = 0x20 then x.chn.sync
  else if 0x40 ≤ o ∧ o ≤ 0x58 then x.chn.pressCnt.toList.getD ((o - 0x40) / 8) 0 else 0

/-- A unit's LVL_ register, or MOD_ID (03 R93, 01 R23). -/
def lvlRead (s : State) (x : UnitState) (o : Nat) : Word :=
  if o = 0 then x.lvl.cfg
  else if o = 8 then x.lvl.status
  else if o = 0x10 then BitVec.ofNat 64 x.ucc
  else if o = 0x18 then x.lvl.start
  else if o = 0x20 then x.lvl.bench
  else if o = 0x28 then x.lvl.pool.headD 0
  else if o = 0x30 then entStatus x
  else if o = 0x38 then x.lvl.tod
  else if o = 0x40 then x.lvl.todUcc
  else if o = 0x48 then BitVec.ofNat 64 (clkMhz s)
  else if o = 0x100 then x.lvl.modId else 0

/-- A unit's CLO_ register (04 R128). -/
def cloRead (x : UnitState) (o : Nat) : Word :=
  if o = 0 then x.clo.cfg
  else if o = 8 then x.clo.status
  else if o = 0x10 then x.clo.drop
  else if o = 0x18 then x.clo.count
  else if o = 0x20 then x.clo.relevel else 0

/-- A mailbox register in a unit's levelled view of a side (16 R463, R464). -/
def mbxViewRead (x : UnitState) (n : Fin 64) (sd : Side) (o : Nat) : Word :=
  let v := tabGet (fun _ => ({} : MbxView)) x.views (viewKey n sd)
  if o < 0x80 then v.words.getD (o / 8) 0 else if o = 0x90 then v.status else 0

/-- The side of a channel that a master is, by the unit's binding. -/
def unitSide (x : UnitState) (n : Fin 64) (mid : Nat) : Side := if bindMid (unitBind x n) .a = mid then .a else .b

/-- A cipher page's register (14 R413). -/
def cphRead (x : UnitState) (p o : Nat) : Word :=
  let g := pageOf x p
  if o = 0 then ownWord g.owner
  else if o = 0x10 then cphStatus g
  else if 0x40 ≤ o ∧ o ≤ 0x88 then g.args.toList.getD ((o - 0x40) / 8) 0
  else if o = 0xF00 then BitVec.ofNat 64 (bit x.cph.lockEn + 2 * x.cph.lockPage) else 0

/-- A compression channel's register (14 R433). -/
def cmpRead (x : UnitState) (e : Fin 2) (c o : Nat) : Word :=
  let g := cmpChan x e c
  if o = 0 then ownWord g.owner
  else if o = 8 then g.ring
  else if o = 0x10 then g.prod.setWidth 64
  else if o = 0x18 then BitVec.ofNat 64 (g.cons.toNat + 2 ^ 32 * bit g.busy)
  else if o = 0x20 then Config.cmpRev.setWidth 64 else 0

/-- A listed register read by a master; write-only fields read zero (00 R11). -/
def ctlRead (s : State) (u : UnitId) (m : CtlMaster) (l : CtlLoc) : Word :=
  let x := getUnit s u
  match l with
  | .chn o => chnRead x o
  | .lvl o => lvlRead s x o
  | .clo o => cloRead x o
  | .mbx n o => mbxViewRead x n (unitSide x n (ctlMid m)) o
  | .cph p o => cphRead x p.val o
  | .cmp e c o => cmpRead x e c.val o
  | .tec k o => tecRead x k.val o
  | .db n o => dbRead (stnS s u n.val) o
  | .reserved => 0

/-- A read of LVL_ENT_DATA removes the oldest word of the pool; an empty pool sets UNDERRUN (03 R70). The service die counts
the pool from the active unit. -/
def entDraw (s : State) (u : UnitId) : State :=
  let x := getUnit s u
  if x.lvl.pool.isEmpty then modUnit s u (fun x => { x with lvl := { x.lvl with underrun := true } })
  else
    let s := modUnit s u (fun x => { x with lvl := { x.lvl with pool := x.lvl.pool.drop 1 } })
    if u = foreUnit s then { s with sahya := { s.sahya with pool := s.sahya.pool - 1 } } else s

/-- The effect of a read beside its value: LVL_ENT_DATA alone has one. -/
def ctlReadEffect (s : State) (u : UnitId) (l : CtlLoc) : State := if l = .lvl 0x28 then entDraw s u else s

/-- A write sets a reserved field of a writable register (00 R15). DB_CMD follows 05 R552, CPH_ARG words 14 R414. -/
def ctlBadBits (l : CtlLoc) (w : Word) : Bool :=
  match l with
  | .chn o =>
    (o == 0 && (bitsOf w 3 13 != 0 || bitsOf w 32 32 != 0)) || (o == 0x18 && bitsOf w 12 52 != 0)
      || (o == 0x20 && (bitsOf w 2 2 != 0 || bitsOf w 12 52 != 0))
  | .lvl o => o == 0x30 && bitsOf w 8 56 != 0
  | .clo _ => false
  | .mbx _ o =>
    (o == 0x80 && bitsOf w 5 59 != 0) || (o == 0x88 && bitsOf w 2 62 != 0)
      || (o == 0x90 && (bitOf w 7 || bitsOf w 11 53 != 0))
  | .cph _ o => (o == 8 && bitsOf w 1 63 != 0) || (o == 0x10 && (bitsOf w 4 4 != 0 || bitOf w 31 || bitsOf w 32 32 != 0))
  | .cmp _ _ o => (o == 8 && (bitsOf w 5 7 != 0 || bitsOf w 52 12 != 0)) || (o == 0x10 && bitsOf w 32 32 != 0)
  | .tec _ _ => false
  | .db _ o => decide (o < 0x48) && bitsOf w 32 32 != 0
  | .reserved => false

/-- A write of CHN_CFG is held pending (02 R38, 00 R13). -/
def chnCfgPend (x : UnitState) (w : Word) : UnitState :=
  { x with chn := { x.chn with pend := some w, status := withBit x.chn.status 1 true } }

/-- A write of CHN_SYNC: the first after a module reset takes effect (02 R49, 00 R14). -/
def chnSyncWrite (x : UnitState) (w : Word) : UnitState :=
  if x.chn.syncWritten then x else { x with chn := { x.chn with sync := w, syncWritten := true } }

/-- W1C bits of a register. -/
def w1c (r w : Word) (mask : Nat) : Word := r &&& ~~~(w &&& BitVec.ofNat 64 mask)

/-- A write of a cipher page's register (14 R413): GO with the page busy sets OVR, else the command starts. -/
def cphWrite (x : UnitState) (p o : Nat) (w : Word) : UnitState :=
  if o = 8 then
    if !bitOf w 0 then x else if (pageOf x p).busy then cphGo x p else cphRun (cphGo x p) p
  else if o = 0x10 then modPage x p (fun g => if bitOf w 3 then { g with ovr := false } else g)
  else if 0x40 ≤ o ∧ o ≤ 0x88 then
    let i := Fin.ofNat 10 ((o - 0x40) / 8)
    modPage x p (fun g => { g with args := g.args.set i.val w i.isLt })
  else x

/-- A write of a cipher page's register through the expert window: a GO on the lock page needs no CTX (14 R425). -/
def cphWriteRaw (x : UnitState) (p o : Nat) (w : Word) : UnitState :=
  if o = 8 ∧ bitOf w 0 ∧ !(pageOf x p).busy ∧ x.cph.lockEn ∧ x.cph.lockPage = p then
    cphRun (modPage (cphGo x p) p (fun g => { g with noCtx := true })) p
  else cphWrite x p o w

/-- A write of a compression channel's register (14 R433). -/
def cmpWrite (x : UnitState) (e : Fin 2) (c o : Nat) (w : Word) : UnitState :=
  if o = 8 then modCmpChan x e c (fun g => if g.prod = g.cons then { g with ring := w } else g)
  else if o = 0x10 then modCmpChan x e c (fun g => { g with prod := w.setWidth 32 })
  else x

/-- A write of a doorbell register (05 R134, R135). -/
def dbWrite (s : State) (u : UnitId) (n o : Nat) (w : Word) : State :=
  if o = 0 then modS s u n (fun t => { t with txProd := w.setWidth 32 })
  else if 8 ≤ o ∧ o < 0x28 then
    let q := Fin.ofNat 4 ((o - 8) / 8)
    modS s u n (fun t => { t with rxProd := t.rxProd.set q.val (w.setWidth 32) q.isLt })
  else if 0x28 ≤ o ∧ o < 0x48 then
    let q := Fin.ofNat 4 ((o - 0x28) / 8)
    modS s u n (fun t => { t with cqCons := t.cqCons.set q.val (w.setWidth 32) q.isLt })
  else if o = 0x48 then stationCmd s u n w
  else s

/-- A listed register written by a master (00 R11): read-only fields ignore it; a mailbox write is a service output (04
R94). -/
def ctlWrite (s : State) (u : UnitId) (m : CtlMaster) (l : CtlLoc) (w : Word) : State :=
  match l with
  | .chn o =>
    if o = 0 then modUnit s u (fun x => chnCfgPend x w)
    else if o = 0x18 then modUnit s u (fun x => { x with chn := { x.chn with status := w1c x.chn.status w 0x18 } })
    else if o = 0x20 then modUnit s u (fun x => chnSyncWrite x w)
    else s
  | .lvl o => if o = 0x30 ∧ bitOf w 7 then modUnit s u (fun x => { x with lvl := { x.lvl with underrun := false } }) else s
  | .clo _ => s
  | .mbx n o => emitOut s u (getUnit s u).ucc (.mailbox n (BitVec.ofNat 16 (ctlMid m)) (BitVec.ofNat 12 o) w)
  | .cph p o => modUnit s u (fun x => cphWrite x p.val o w)
  | .cmp e c o => modUnit s u (fun x => cmpWrite x e c.val o w)
  | .tec _ _ => s
  | .db n o => dbWrite s u n.val o w
  | .reserved => s

end Sys2Proof.Machine
end

