-- ==== Sys2Proof/Machine/MemAcc.lean ====
section
/-! DEFINITION. Loads and stores of processors: translation and its checks in order, the store buffer, transactions, device and
fieldbook targets (07 R230, 09 R266 to R288, 10 R303, 15 R446 to R454). -/
namespace Sys2Proof.Machine

/-- What a data address comes to: its module-physical address, a cause, or an access that a transaction forbids. -/
inductive AddrRes
  | at (mpa : Nat) (s : State)
  | exn (code : Nat) (s : State)
  | forbid

/-- What is asked of an address (07 R230, 15 R452): its width; whether it is a store; whether it is one of the four instructions that
may reach a DEVICE segment; whether the retired-page table is left to the home (15 R455, STCOND of the reserved granule). -/
structure Access where
  n : Nat
  write : Bool := false
  dev : Bool := false
  atHome : Bool := false

/-- Steps 2 to 4 of 15 R452 on a module-physical address, with the misuse of a DEVICE segment ahead of them (07 R230); 0 when the
access may go on. `rights` says that step 2 passes, `code` that the segment is a code segment. -/
def mpaCause (x : UnitState) (p mpa : Nat) (a : Access) (rights code : Bool) : Nat :=
  if isCtlAddr mpa && !a.dev then 0x04
  else if !rights then 0x08
  else if code then 0x09
  else if isCtlAddr mpa then 0
  else if isFbAddr mpa then (if fbAllowed x p (mpa - fbFirst) a.write then 0 else 0x05)
  else if fbFirst ≤ mpa then 0x05
  else if !aclHas x (mpa / 2 ^ 36) p || (pageRetired x mpa && !a.atHome) then 0x09
  else if installed x ≤ mpa then 0x05 else 0

/-- The rights of a leaf allow the access (15 R452 step 2). -/
def leafOk (c : Core) (a : Access) (w u : Bool) : Bool := (w || !a.write) && (u || c.psw.s)

/-- The checks on a translated address of a core, with the limit that a transaction sets on its segment (09 R284). -/
def checkAddr (s : State) (u : UnitId) (l mpa : Nat) (a : Access) (w us code : Bool) : AddrRes :=
  let x := getUnit s u
  let c := unitCore x l
  if c.txn.isSome && (isCtlAddr mpa || isFbAddr mpa) then .forbid else
  match mpaCause x c.parcel.toNat mpa a (leafOk c a w us) code with
  | 0 => .at mpa s
  | k => .exn k s

/-- A core's data address translated, by an entry that it holds, else by a walk that fills one (15 R446 to R448). -/
def coreAddr (s : State) (u : UnitId) (l : Nat) (va : Word) (a : Access) : AddrRes :=
  let x := getUnit s u
  let c := unitCore x l
  let pg := va.toNat / 4096
  match c.tlb.find? (fun e => e.vpage == pg) with
  | some e => checkAddr s u l (e.mpage * 4096 + va.toNat % 4096) a e.w e.u false
  | none =>
    match dataXlate x c.parcel.toNat l va with
    | none => .exn 0x07 s
    | some (pp, w, us) =>
      match xlatePpa x c.parcel.toNat (pp * 4096) with
      | none => .exn (if leafOk c a w us then 0x09 else 0x08) s
      | some (e, mpa) =>
        match checkAddr s u l (mpa + va.toNat % 4096) a w us e.code with
        | .at m s =>
          let c := keepCtxLine x c.parcel.toNat l c
          .at m (modUnit s u (fun x => setUnitCore x l { c with tlb := { vpage := pg, mpage := mpa / 4096, w := w, u := us } :: c.tlb }))
        | r => r

/-- A traverse engine's data address: parcel-physical, through the parcel map alone (15 R452). -/
def engineAddr (s : State) (u : UnitId) (e : Nat) (va : Word) (a : Access) : AddrRes :=
  let x := getUnit s u
  let p := (unitEngine x e).parcel.toNat
  if bitsOf va 52 12 ≠ 0 then .exn 0x07 s else
  match xlatePpa x p va.toNat with
  | none => .exn 0x09 s
  | some (m, mpa) =>
    match mpaCause x p mpa a true m.code with
    | 0 => .at mpa s
    | k => .exn k s

/-- A processor's data address (07 R230: the natural alignment first). The service processor reaches its own 16 MiB of SRAM. -/
def dataAddr (s : State) (p : Proc) (va : Word) (a : Access) : AddrRes :=
  if va.toNat % a.n ≠ 0 then .exn 0x04 s else
  match p with
  | .core u l => coreAddr s u l va a
  | .engine u e => engineAddr s u e va a
  | .service => if va.toNat + a.n ≤ 2 ^ 24 then .at va.toNat s else .exn 0x05 s

/-- What a load comes to: its bytes, or the end of the instruction. -/
inductive LdRes
  | ok (s : State) (bs : List Byte)
  | stop (o : XOut)

/-- What a store comes to: the state in which it has retired, or the end of the instruction. -/
inductive StRes
  | ok (s : State)
  | stop (o : XOut)

/-- A mark's consumer takes MC_LOST or MC_UE (13 R389). -/
def markCause (m : BitVec 8) : Nat := if m = 0x02 then 0x22 else 0x21

/-- The bytes of a buffered store that cover an access; none where they cover it only in part. -/
def sbCover (e : SbEntry) (mpa n : Nat) : Option (List Byte) :=
  if e.addr ≤ mpa ∧ mpa + n ≤ e.addr + e.bytes.length then some ((e.bytes.drop (mpa - e.addr)).take n) else none

/-- The buffered stores that share a byte with an access, oldest first. -/
def sbOverlap (c : Core) (mpa n : Nat) : List SbEntry :=
  c.sb.filter (fun e => decide (e.addr < mpa + n) && decide (mpa < e.addr + e.bytes.length))

/-- What a load finds in the store buffer (09 R267): nothing, the youngest covering store's bytes, or a wait. -/
inductive Fwd
  | none
  | value (bs : List Byte)
  | part

/-- Forwarding from the store buffer (09 R267). -/
def sbForward (c : Core) (mpa n : Nat) : Fwd :=
  let es := sbOverlap c mpa n
  match es.getLast? with
  | Option.none => .none
  | some e =>
    if es.all (fun e => (sbCover e mpa n).isSome) then
      (match sbCover e mpa n with | some bs => .value bs | Option.none => .part)
    else .part

/-- A byte of an open transaction's own stores (09 R283). -/
def txByte (t : Txn) (a : Nat) : Option Byte := (t.data.find? (fun e => e.1 == a)).map (fun e => e.2)

/-- Bytes of memory with a transaction's own stores over them. -/
def txOverlay (t : Txn) (x : UnitState) (mpa n : Nat) : List Byte :=
  (List.range n).map (fun k => (txByte t (mpa + k)).getD (tabGet byteDef x.mem.data (mpa + k)))

/-- A transaction's store of bytes (09 R283). -/
def txPut (t : Tab Byte) (mpa : Nat) : List Byte → Tab Byte
  | [] => t
  | b :: r => txPut (tabInsert (tabErase t mpa) mpa b) (mpa + 1) r

/-- The limit that a transaction would pass with a new line (09 R284); none when the line may enter. -/
def txNewLine (t : Txn) (line : Nat) (write : Bool) : Option (BitVec 8) :=
  let known := t.writeSet.contains line || (!write && t.readSet.contains line)
  if known then none
  else if write && decide (16 ≤ t.writeSet.length) then some 3
  else if !write && decide (64 ≤ t.readSet.length) then some 4
  else if !t.readSet.contains line && decide (8 ≤ ((t.readSet ++ t.writeSet).filter (sameSet line)).length) then some 5
  else none

/-- A line enters a transaction's read or write set, at the home too (09 R283, 11 R345). -/
def txEnter (x : UnitState) (l line : Nat) (write : Bool) : UnitState :=
  let x := modUnitCore x l (fun c => { c with txn := c.txn.map (fun t =>
    if write then { t with
      readSet := t.readSet.filter (fun k => k != line)
      writeSet := if t.writeSet.contains line then t.writeSet else t.writeSet ++ [line] }
    else if t.readSet.contains line || t.writeSet.contains line then t else { t with readSet := t.readSet ++ [line] }) })
  let e := dirOf x line
  setDir x line (corePos x l) { e with tvec := e.tvec ||| tvecBit (corePos x l) }

/-- A core's load from DRAM (09 R266, R267, R283, R287): forwarded, or from memory with a copy kept; a marked line is a machine
check. -/
def dramLoad (s : State) (u : UnitId) (l : Nat) (va : Word) (mpa n : Nat) : LdRes :=
  let x := getUnit s u
  let c := unitCore x l
  let line := mpa / 64
  let go := fun (s : State) =>
    let x := getUnit s u
    match c.txn with
    | some t =>
      (match txNewLine t line false with
       | some code => LdRes.stop (.abort s code)
       | none =>
         match coreTouch x l line false (some t.stamp) with
         | (x, .go) =>
           let x := cohRead x (corePos x l) line
           if lineMark x line ≠ 0 ∧ !t.writeSet.contains line then .stop (.exn (setUnit s u x) (markCause (lineMark x line)) va)
           else .ok (setUnit s u (txEnter x l line false)) (txOverlay t x mpa n)
         | (x, .wait) => .stop (.wait (setUnit s u x))
         | (x, .selfAbort) => .stop (.abort (setUnit s u x) 1))
    | none =>
      match coreTouch x l line false none with
      | (x, .go) =>
        let x := cohRead x (corePos x l) line
        if lineMark x line ≠ 0 then .stop (.exn (setUnit s u x) (markCause (lineMark x line)) va)
        else .ok (setUnit s u x) (tabGetList byteDef x.mem.data mpa n)
      | (x, _) => .stop (.wait (setUnit s u x))
  match sbForward c mpa n with
  | .value bs => .ok s bs
  | .none => go s
  | .part =>
    match drainSb s u l with
    | none => .stop (.wait s)
    | some s => go s

/-- A core's load from fieldbook memory (09 R272, 13 R401): a word that cannot be read is a machine check. -/
def fbLoad (s : State) (u : UnitId) (l : Nat) (va : Word) (mpa n : Nat) : LdRes :=
  let go := fun (s : State) =>
    let x := cohReadFb (getUnit s u) (corePos (getUnit s u) l) (mpa / 64)
    if fbUnreadable x (mpa - fbFirst) n then LdRes.stop (.exn (setUnit s u x) 0x21 va)
    else .ok (setUnit s u x) (fbBytes x (mpa - fbFirst) n)
  match sbForward (unitCore (getUnit s u) l) mpa n with
  | .value bs => .ok s bs
  | .none => go s
  | .part =>
    match drainSb s u l with
    | none => .stop (.wait s)
    | some s => go s

/-- Who a processor is to a control-window target (15 R453). -/
def ctlMaster (s : State) (p : Proc) : CtlMaster :=
  let c := getCore s p
  { parcel := c.parcel.toNat, sup := c.psw.s, cluster := match p with | .engine _ e => some (e.val / 16) | _ => none }

/-- A processor's place in the control window at a module-physical address, where it may go there: ADDRESS for a place that is not
listed, TAG where the target refuses (01 R26, 15 R453, R454). -/
def ctlCause (s : State) (u : UnitId) (m : CtlMaster) (mpa : Nat) (write : Bool) : Nat :=
  let loc := ctlLoc (mpa - ctlFirst)
  if !ctlListed loc then 0x05 else if !ctlAccepts (getUnit s u) m write loc then 0x09 else 0

/-- A device load (09 R271): after every earlier store of the core. -/
def ctlLoad (s : State) (u : UnitId) (p : Proc) (va : Word) (mpa : Nat) : LdRes :=
  let m := ctlMaster s p
  match ctlCause s u m mpa false with
  | 0 =>
    let loc := ctlLoc (mpa - ctlFirst)
    let r := match p with | .core u l => drainSb s u l | _ => some s
    (match r with
     | none => .stop (.wait s)
     | some s => .ok (ctlReadEffect s u loc) (leBytes 8 (ctlRead s u m loc).toNat))
  | k => .stop (.exn s k va)

/-- A device store (09 R271): performed as it retires; a reserved bit set is left undefined by 00 R15. -/
def ctlStore (s : State) (u : UnitId) (p : Proc) (va : Word) (mpa : Nat) (w : Word) : StRes :=
  let m := ctlMaster s p
  match ctlCause s u m mpa true with
  | 0 =>
    let loc := ctlLoc (mpa - ctlFirst)
    if ctlBadBits loc w then .stop (.stop .reservedWrite) else
    let r := match p with | .core u l => drainSb s u l | _ => some s
    (match r with
     | none => .stop (.wait s)
     | some s => .ok (ctlWrite s u m loc w))
  | k => .stop (.exn s k va)

/-- A load from memory or a device by a processor. -/
def loadBytes (s : State) (p : Proc) (va : Word) (a : Access) : LdRes :=
  match dataAddr s p va a with
  | .exn code s => .stop (.exn s code va)
  | .forbid => .stop (.abort s 7)
  | .at mpa s =>
    match p with
    | .service => .ok s (tabGetList byteDef s.svcMem mpa a.n)
    | .core u l =>
      if isCtlAddr mpa then ctlLoad s u p va mpa
      else if isFbAddr mpa then fbLoad s u l va mpa a.n else dramLoad s u l va mpa a.n
    | .engine u e =>
      if isCtlAddr mpa then ctlLoad s u p va mpa
      else if isFbAddr mpa then
        let x := cohReadFb (getUnit s u) (56 + e / 16) (mpa / 64)
        if fbUnreadable x (mpa - fbFirst) a.n then .stop (.exn (setUnit s u x) 0x21 va)
        else .ok (setUnit s u x) (fbBytes x (mpa - fbFirst) a.n)
      else
        match dmaTouch (getUnit s u) (56 + e / 16) (mpa / 64) false with
        | (x, false) => .stop (.wait (setUnit s u x))
        | (x, true) =>
          if lineMark x (mpa / 64) ≠ 0 then .stop (.exn (setUnit s u x) (markCause (lineMark x (mpa / 64))) va)
          else .ok (setUnit s u x) (tabGetList byteDef x.mem.data mpa a.n)

/-- A transactional store (09 R283): the line owned at once, the bytes in the transaction table. -/
def txStore (s : State) (u : UnitId) (l : Nat) (t : Txn) (mpa : Nat) (bs : List Byte) : StRes :=
  let line := mpa / 64
  match txNewLine t line true with
  | some code => .stop (.abort s code)
  | none =>
    match coreTouch (getUnit s u) l line true (some t.stamp) with
    | (x, .go) =>
      let x := txEnter (cohOwn x (corePos x l) line) l line true
      .ok (setUnit s u (modUnitCore x l (fun c => { c with txn := c.txn.map (fun t => { t with data := txPut t.data mpa bs }) })))
    | (x, .wait) => .stop (.wait (setUnit s u x))
    | (x, .selfAbort) => .stop (.abort (setUnit s u x) 1)

/-- A store put into the core's buffer (09 R267): a full buffer first performs its oldest one. -/
def sbPut (s : State) (u : UnitId) (l mpa : Nat) (bs : List Byte) : StRes :=
  let put := fun (s : State) => StRes.ok (modUnit s u (fun x => modUnitCore x l (fun c => { c with sb := c.sb ++ [{ addr := mpa, bytes := bs }] })))
  if (unitCore (getUnit s u) l).sb.length < 64 then put s else
  match drainHead s u l with
  | none => .stop (.wait s)
  | some s => if (unitCore (getUnit s u) l).sb.length < 64 then put s else .stop (.wait s)

/-- A store by a processor. -/
def storeBytes (s : State) (p : Proc) (va : Word) (a : Access) (bs : List Byte) : StRes :=
  match dataAddr s p va { a with write := true } with
  | .exn code s => .stop (.exn s code va)
  | .forbid => .stop (.abort s 7)
  | .at mpa s =>
    match p with
    | .service => .ok { s with svcMem := tabSetList byteDef s.svcMem mpa bs }
    | .core u l =>
      if isCtlAddr mpa then ctlStore s u p va mpa (BitVec.ofNat 64 (leNat bs)) else
      match (unitCore (getUnit s u) l).txn with
      | some t => txStore s u l t mpa bs
      | none => sbPut s u l mpa bs
    | .engine u e =>
      if isCtlAddr mpa then ctlStore s u p va mpa (BitVec.ofNat 64 (leNat bs))
      else if isFbAddr mpa then .ok (modUnit s u (fun x => fbEngStore x e mpa bs))
      else
        match dmaTouch (getUnit s u) (56 + e / 16) (mpa / 64) true with
        | (x, false) => .stop (.wait (setUnit s u x))
        | (x, true) => .ok (setUnit s u (performStore x (56 + e / 16) mpa bs none (some e)))

/-- A load, then the rest of the instruction on its bytes. -/
def loadThen (s : State) (p : Proc) (va : Word) (a : Access) (k : State → Nat → XOut) : XOut :=
  match loadBytes s p va a with
  | .ok s bs => k s (leNat bs)
  | .stop o => o

/-- A store, then the rest of the instruction. -/
def storeThen (s : State) (p : Proc) (va : Word) (a : Access) (v : Nat) (k : State → XOut) : XOut :=
  match storeBytes s p va a (leBytes a.n v) with
  | .ok s => k s
  | .stop o => o

/-- Every store of a processor's buffer performed, and the entry of its own context line taken anew (09 R273, 15 R448); none while a
store waits. -/
def orderNow (s : State) (p : Proc) : Option State :=
  match p with
  | .core u l =>
    (match drainSb s u l with
     | none => none
     | some s => some (modUnit s u (fun x => modUnitCore x l (fun c => if c.ctxStale then flushTlb c else c))))
  | .engine u e => some (modUnit s u (fun x => let c := unitEngine x e; if c.ctxStale then setUnitEngine x e (flushTlb c) else x))
  | .service => some s

/-- A change of the processor's registers after which the instruction retires. -/
def retireWith (s : State) (p : Proc) (f : Core → Core × List (BitVec 8 × Quad)) : XOut :=
  let r := f (getCore s p)
  .done (setCore s p r.1) r.2 1

end Sys2Proof.Machine
end

