-- ==== Sys2Proof/Machine/LoadStore.lean ====
section
/-! DEFINITION. Loads, stores, the stack, calls and returns (07 R221, R228, R230). -/
namespace Sys2Proof.Machine

/-- An F3M instruction: three syllables; its address fields as 07 R224 asks. -/
def encMem (ok : Bool) : Enc := { len := 3, bad := !ok }

/-- An F3M instruction that the S profile lacks (07 R210). -/
def encMemCt (ok : Bool) : Enc := { len := 3, sv := false, bad := !ok }

/-- An access of `n` bytes that may not reach a DEVICE segment (07 R230). -/
def plain (n : Nat) : Access := { n := n }

/-- An 8-byte access by LDD, ALD, STD or AST, which may (07 R230). -/
def devWord : Access := { n := 8, dev := true }

/-- A load into Dd: the bytes extended to 64 bits. -/
def loadD (p : Proc) (r : Reg) (ea : Ea) (a : Access) (ext : Nat → Word) (s : State) : XOut :=
  loadThen s p (effAddr (getCore s p) ea) a (fun s v => retireWith s p (fun c => putD c r (ext v)))

/-- A store of the low bytes of a value. -/
def storeV (p : Proc) (ea : Ea) (a : Access) (v : Nat) (s : State) : XOut :=
  storeThen s p (effAddr (getCore s p) ea) a v (fun s => .done s [] 1)

/-- A loaded number zero-extended. -/
def zextN (v : Nat) : Word := BitVec.ofNat 64 v

/-- A loaded number of `w` bits sign-extended. -/
def sextN (w v : Nat) : Word := (BitVec.ofNat w v).signExtend 64

/-- LDB Dd, EA (07 R228, R230). -/
def execLdb (i : Issue) (r : Reg) (ea : Ea) (s : State) : Host.Outcome State Fault Refusal :=
  runInstr s i (encMem (wfEa ea)) (loadD i.proc r ea (plain 1) (sextN 8))

/-- LDBU Dd, EA (07 R228, R230). -/
def execLdbu (i : Issue) (r : Reg) (ea : Ea) (s : State) : Host.Outcome State Fault Refusal :=
  runInstr s i (encMem (wfEa ea)) (loadD i.proc r ea (plain 1) zextN)

/-- LDH Dd, EA (07 R228, R230). -/
def execLdh (i : Issue) (r : Reg) (ea : Ea) (s : State) : Host.Outcome State Fault Refusal :=
  runInstr s i (encMem (wfEa ea)) (loadD i.proc r ea (plain 2) (sextN 16))

/-- LDHU Dd, EA (07 R228, R230). -/
def execLdhu (i : Issue) (r : Reg) (ea : Ea) (s : State) : Host.Outcome State Fault Refusal :=
  runInstr s i (encMem (wfEa ea)) (loadD i.proc r ea (plain 2) zextN)

/-- LDW Dd, EA (07 R228, R230). -/
def execLdw (i : Issue) (r : Reg) (ea : Ea) (s : State) : Host.Outcome State Fault Refusal :=
  runInstr s i (encMem (wfEa ea)) (loadD i.proc r ea (plain 4) (sextN 32))

/-- LDWU Dd, EA (07 R228, R230). -/
def execLdwu (i : Issue) (r : Reg) (ea : Ea) (s : State) : Host.Outcome State Fault Refusal :=
  runInstr s i (encMem (wfEa ea)) (loadD i.proc r ea (plain 4) zextN)

/-- LDD Dd, EA (07 R228, R230). -/
def execLdd (i : Issue) (r : Reg) (ea : Ea) (s : State) : Host.Outcome State Fault Refusal :=
  runInstr s i (encMem (wfEa ea)) (loadD i.proc r ea devWord zextN)

/-- STB Ds, EA (07 R228, R230). -/
def execStb (i : Issue) (r : Reg) (ea : Ea) (s : State) : Host.Outcome State Fault Refusal :=
  runInstr s i (encMem (wfEa ea)) (fun s => storeV i.proc ea (plain 1) (rdD (getCore s i.proc) r).toNat s)

/-- STH Ds, EA (07 R228, R230). -/
def execSth (i : Issue) (r : Reg) (ea : Ea) (s : State) : Host.Outcome State Fault Refusal :=
  runInstr s i (encMem (wfEa ea)) (fun s => storeV i.proc ea (plain 2) (rdD (getCore s i.proc) r).toNat s)

/-- STW Ds, EA (07 R228, R230). -/
def execStw (i : Issue) (r : Reg) (ea : Ea) (s : State) : Host.Outcome State Fault Refusal :=
  runInstr s i (encMem (wfEa ea)) (fun s => storeV i.proc ea (plain 4) (rdD (getCore s i.proc) r).toNat s)

/-- STD Ds, EA (07 R228, R230). -/
def execStd (i : Issue) (r : Reg) (ea : Ea) (s : State) : Host.Outcome State Fault Refusal :=
  runInstr s i (encMem (wfEa ea)) (fun s => storeV i.proc ea devWord (rdD (getCore s i.proc) r).toNat s)

/-- ALD Ar, EA (07 R228, R230). -/
def execAld (i : Issue) (r : Reg) (ea : Ea) (s : State) : Host.Outcome State Fault Refusal :=
  runInstr s i (encMem (wfEa ea)) (fun s =>
    loadThen s i.proc (effAddr (getCore s i.proc) ea) devWord (fun s v => retireWith s i.proc (fun c => putA c r (zextN v))))

/-- AST Ar, EA (07 R228, R230). -/
def execAst (i : Issue) (r : Reg) (ea : Ea) (s : State) : Host.Outcome State Fault Refusal :=
  runInstr s i (encMem (wfEa ea)) (fun s => storeV i.proc ea devWord (rdA (getCore s i.proc) r).toNat s)

/-- LDK Kr, EA: 16 bytes (07 R228, R230). -/
def execLdk (i : Issue) (r : Reg) (ea : Ea) (s : State) : Host.Outcome State Fault Refusal :=
  runInstr s i (encMemCt (wfK r && wfEa ea)) (fun s =>
    loadThen s i.proc (effAddr (getCore s i.proc) ea) (plain 16) (fun s v => retireWith s i.proc (fun c => putK c r (BitVec.ofNat 128 v))))

/-- STK Kr, EA: 16 bytes (07 R228, R230). -/
def execStk (i : Issue) (r : Reg) (ea : Ea) (s : State) : Host.Outcome State Fault Refusal :=
  runInstr s i (encMemCt (wfK r && wfEa ea)) (fun s => storeV i.proc ea (plain 16) (rdK (getCore s i.proc) r).toNat s)

/-- A word pushed: stored at A15 - 8, then A15 moves (07 R221, R228, R230). -/
def pushThen (s : State) (p : Proc) (v : Word) (k : State → XOut) : XOut :=
  let sp := rdA (getCore s p) 15 - 8
  storeThen s p sp (plain 8) v.toNat (fun s => k (modCore s p (fun c => wrA c 15 sp)))

/-- PUSHD Ds (07 R228). -/
def execPushd (i : Issue) (rs : Reg) (s : State) : Host.Outcome State Fault Refusal :=
  runInstr s i { len := 1 } (fun s =>
    pushThen s i.proc (rdD (getCore s i.proc) rs) (fun s => .done s [aItem (getCore s i.proc) 15] 1))

/-- APUSH As: A15 before the decrement where As is A15 (07 R228, R238). -/
def execApush (i : Issue) (rs : Reg) (s : State) : Host.Outcome State Fault Refusal :=
  runInstr s i { len := 1 } (fun s =>
    pushThen s i.proc (rdA (getCore s i.proc) rs) (fun s => .done s [aItem (getCore s i.proc) 15] 1))

/-- POPD Dd: a load that faults changes nothing (07 R228, R238). -/
def execPopd (i : Issue) (d : Reg) (s : State) : Host.Outcome State Fault Refusal :=
  runInstr s i { len := 1 } (fun s =>
    loadThen s i.proc (rdA (getCore s i.proc) 15) (plain 8) (fun s v =>
      retireWith s i.proc (fun c =>
        let c := wrA (wrD c d (zextN v)) 15 (rdA c 15 + 8)
        (c, [dItem c d, aItem c 15]))))

/-- APOP Ad: A15 takes the loaded value where Ad is A15 (07 R228, R238). -/
def execApop (i : Issue) (d : Reg) (s : State) : Host.Outcome State Fault Refusal :=
  runInstr s i { len := 1 } (fun s =>
    loadThen s i.proc (rdA (getCore s i.proc) 15) (plain 8) (fun s v =>
      retireWith s i.proc (fun c =>
        if d = 15 then putA c 15 (zextN v) else
        let c := wrA (wrA c d (zextN v)) 15 (rdA c 15 + 8)
        (c, [aItem c d, aItem c 15]))))

/-- A call (07 R221): the address of the next instruction pushed, then the branch. -/
def callTo (p : Proc) (target : Core → CodeAddr) (s : State) : XOut :=
  let c := getCore s p
  let t := target c
  pushThen s p (c.pc.setWidth 64) (fun s =>
    let s := modCore s p (fun c => { c with pc := t })
    .done s [aItem (getCore s p) 15] 1)

/-- CALL disp30 (07 R221, R224): COND must be 0. -/
def execCall (i : Issue) (cond : BitVec 4) (disp : BitVec 30) (s : State) : Host.Outcome State Fault Refusal :=
  runInstr s i { len := 3, bad := cond != 0 } (callTo i.proc (fun c => branchTo (c.pc - 3) disp))

/-- CALLR Aa (07 R221). -/
def execCallr (i : Issue) (a : Reg) (s : State) : Host.Outcome State Fault Refusal :=
  runInstr s i { len := 1 } (callTo i.proc (fun c => (rdA c a).setWidth 48))

/-- CALLF target48 (07 R221). -/
def execCallf (i : Issue) (target : CodeAddr) (s : State) : Host.Outcome State Fault Refusal :=
  runInstr s i { len := 4 } (callTo i.proc (fun _ => target))

/-- RET (07 R221): a loaded word with bits above the code address raises ILLEGAL after the load, with A15 unchanged. -/
def execRet (i : Issue) (s : State) : Host.Outcome State Fault Refusal :=
  runInstr s i { len := 1 } (fun s =>
    loadThen s i.proc (rdA (getCore s i.proc) 15) (plain 8) (fun s v =>
      if 2 ^ 48 ≤ v then .exn s 0x01 0 else
      retireWith s i.proc (fun c =>
        let c := { wrA c 15 (rdA c 15 + 8) with pc := BitVec.ofNat 48 v }
        (c, [aItem c 15]))))

end Sys2Proof.Machine
end

