-- ==== Sys2Proof/Machine/System.lean ====
section
/-! DEFINITION. Control registers, barriers, system instructions, waits and interrupts (07 R219, R220, R225, 09 R273 to R275, 10 R298
to R307, 11 R339, 15 R451). -/
namespace Sys2Proof.Machine

/-- RSV as MFC reads it (07 R219). -/
def rsvWord (c : Core) : Word := BitVec.ofNat 64 (bit c.rsvValid + 2 ^ 6 * c.rsvGranule.toNat)

/-- CORE as MFC reads it (07 R219). -/
def coreWord (p : Proc) (c : Core) : Word :=
  match p with
  | .core _ l => BitVec.ofNat 64 (l.val + 2 ^ 8 * c.parcel.toNat)
  | .engine _ e => BitVec.ofNat 64 (e.val + 2 ^ 8 * c.parcel.toNat + 2 ^ 14)
  | .service => 0x8000

/-- A control register as MFC reads it (07 R219, 10 R301). -/
def ctlRegWord (p : Proc) (c : Core) (code : Nat) : Word :=
  match code with
  | 0x30 => pswWord c.psw
  | 0x31 => BitVec.ofNat 64 (c.rm.toNat + 4 * bit c.subn)
  | 0x32 => c.fpsw.setWidth 64
  | 0x33 => rsvWord c
  | 0x34 => BitVec.ofNat 64 (bit c.psw.tx + 2 ^ 8 * c.tcode.toNat)
  | 0x35 => c.retryCnt.setWidth 64
  | 0x36 => coreWord p c
  | 0x37 => c.ea15
  | 0x38 => c.ssp
  | 0x39 => c.vbase.setWidth 64 <<< 10
  | 0x3A => c.epc.setWidth 64
  | 0x3B => pswWord c.epsw
  | 0x3C => ecauseWord c.ecause
  | 0x3D => c.eaddr
  | 0x3F => c.tcmp
  | _ => 0

/-- The flag bits of a word written to PSW (07 R219): [3:0]. -/
def withNzcvBits (p : Psw) (w : Word) : Psw := { p with c := bitOf w 0, v := bitOf w 1, z := bitOf w 2, n := bitOf w 3 }

/-- A control register written by MTC: the RW fields alone (07 R219, 00 R11, 10 R301). In problem state PSW.IE stays. -/
def putCtlReg (c : Core) (code : Nat) (w : Word) : Core :=
  match code with
  | 0x30 => { c with psw := { withNzcvBits c.psw w with ie := if c.psw.s then bitOf w 9 else c.psw.ie } }
  | 0x31 => { c with rm := BitVec.ofNat 2 w.toNat, subn := bitOf w 2 }
  | 0x32 => { c with fpsw := BitVec.ofNat 5 w.toNat }
  | 0x37 => { c with ea15 := w }
  | 0x38 => { c with ssp := w }
  | 0x39 => { c with vbase := BitVec.ofNat 38 (bitsOf w 10 38) }
  | 0x3A => { c with epc := BitVec.ofNat 48 w.toNat }
  | 0x3B => { c with epsw := { withNzcvBits c.epsw w with s := bitOf w 8, ie := bitOf w 9 } }
  | 0x3C => { c with ecause :=
      { code := BitVec.ofNat 8 w.toNat, ilen := BitVec.ofNat 2 (bitsOf w 8 2), tx := bitOf w 10, mcip := bitOf w 11
        iaddr := BitVec.ofNat 48 (bitsOf w 16 48) } }
  | 0x3D => { c with eaddr := w }
  | 0x3F => { c with tcmp := w }
  | _ => c

/-- A control register that is read-only in every field (07 R219). -/
def roCtlReg (code : Nat) : Bool := decide (0x33 ≤ code) && decide (code ≤ 0x36)

/-- The encoding of MFC and MTC (07 R219, R220, 09 R284). -/
def encCtlReg (code : BitVec 12) : Enc :=
  let n := code.toNat
  { len := 2, bad := !(decide (0x30 ≤ n) && decide (n < 0x40) && decide (n ≠ 0x3E)), priv := decide (0x37 ≤ n), txBad := decide (0x37 ≤ n) }

/-- The fold item of a control register: its code and its value. -/
def ctlItem (p : Proc) (c : Core) (code : Nat) : BitVec 8 × Quad := (BitVec.ofNat 8 code, (ctlRegWord p c code).setWidth 128)

/-- MFC Dd, code (07 R219). -/
def execMfc (i : Issue) (d : Reg) (code : BitVec 12) (s : State) : Host.Outcome State Fault Refusal :=
  runReg s i (encCtlReg code) (fun c => putD c d (ctlRegWord i.proc c code.toNat))

/-- MTC code, Ds (07 R219): a register that is read-only in every field is left, and writes nothing. -/
def execMtc (i : Issue) (code : BitVec 12) (r : Reg) (s : State) : Host.Outcome State Fault Refusal :=
  runReg s i (encCtlReg code) (fun c =>
    if roCtlReg code.toNat then (c, []) else
    let c := putCtlReg c code.toNat (rdD c r)
    (c, [ctlItem i.proc c code.toNat]))

/-- EI (07 R220): PSW.IE := 1. -/
def execEi (i : Issue) (s : State) : Host.Outcome State Fault Refusal :=
  runReg s i { len := 1, priv := true, txBad := true } (fun c => withFlags (c, []) (fun p => { p with ie := true }))

/-- DI (07 R220): PSW.IE := 0. -/
def execDi (i : Issue) (s : State) : Host.Outcome State Fault Refusal :=
  runReg s i { len := 1, priv := true, txBad := true } (fun c => withFlags (c, []) (fun p => { p with ie := false }))

/-- RTE (10 R298). -/
def execRte (i : Issue) (s : State) : Host.Outcome State Fault Refusal :=
  runReg s i { len := 1, priv := true, txBad := true } (fun c =>
    let n := returnCore c
    (n, (if n.psw.s then [] else [aItem n 15]) ++ [ctlItem i.proc n 0x3C, pswItem n]))

/-- SVC #imm12 (07 R220, 10 R302): the supervisor-call entry. -/
def execSvc (i : Issue) (imm : BitVec 12) (s : State) : Host.Outcome State Fault Refusal :=
  runInstr s i { len := 2, txBad := true } (fun s => .exn s 0x0C (imm.setWidth 64))

/-- ORDER (09 R273). -/
def execOrder (i : Issue) (s : State) : Host.Outcome State Fault Refusal :=
  runInstr s i { len := 1 } (fun s =>
    match orderNow s i.proc with
    | some s => .done s [] 1
    | none => .wait s)

/-- A fieldbook write belongs to the stores of a core, at its position. -/
def isCoreWrite (l pos : Nat) (w : FbWrite) : Bool :=
  match w.cont with | .coreStore n => decide (n = l) | .cohDone a _ => decide (a = pos) | _ => false

/-- The end points of PLUMB are reached (09 R274): the core's fieldbook stores have completed, and no DRAM write waits for room in a
write queue. Every other access ends as it is performed. -/
def plumbed (s : State) (p : Proc) : Bool :=
  match p with
  | .core u l =>
    let x := getUnit s u
    !(x.fb.flight ++ x.fb.waiting).any (isCoreWrite l (corePos x l)) && x.mem.mc.toList.all (fun m => m.blocked.all (fun r => r.write.isNone))
  | .engine u _ => (getUnit s u).mem.mc.toList.all (fun m => m.blocked.all (fun r => r.write.isNone))
  | .service => true

/-- PLUMB (09 R274). -/
def execPlumb (i : Issue) (s : State) : Host.Outcome State Fault Refusal :=
  runInstr s i { len := 1, txBad := true } (fun s =>
    match orderNow s i.proc with
    | some s => if plumbed s i.proc then .done s [] 1 else .wait s
    | none => .wait s)

/-- CSYNC (09 R275): every earlier LCODE in memory; the model's fetch reads memory, so nothing stale is left to discard. -/
def execCsync (i : Issue) (s : State) : Host.Outcome State Fault Refusal :=
  runInstr s i { len := 1, txBad := true } (fun s =>
    match orderNow s i.proc with
    | some s => .done s [] 1
    | none => .wait s)

/-- An interrupt is pending at a core (10 R305 to R307). -/
def anyPending (x : UnitState) (c : Core) : Bool := timerPending x c || (lowestPending c).isSome

/-- WAIT (10 R307): ends at once while an interrupt is pending, else the core waits with its pc at the next instruction. Which interrupts
reach the service processor the spec does not state: a free value says whether one is pending, and the WAIT stays its next instruction
until one is. -/
def execWait (i : Issue) (s : State) : Host.Outcome State Fault Refusal :=
  runInstr s i { len := 1, priv := true, txBad := true } (fun s =>
    match i.proc with
    | .core u l =>
      if anyPending (getUnit s u) (unitCore (getUnit s u) l) then .done s [] 1
      else .done (modUnit s u (fun x => modUnitCore x l (fun c => { c with waiting := true }))) [] 0
    | .engine .. => .done s [] 1
    | .service =>
      let f := nextFree s
      if bitOf f.1 0 then .done f.2 [] 1 else .wait f.2)

/-- WAIT ends at a core (10 R307): it retires, and counts then. -/
def endWait (x : UnitState) (l : Nat) : UnitState :=
  if (unitCore x l).waiting then countRetired (modUnitCore x l (fun c => { c with waiting := false })) l 1 else x

/-- A core stands at an instruction boundary, in a WAIT or not, where it may take an interrupt. -/
def atBoundary (s : State) (u : UnitId) (l : CoreId) : Bool :=
  let x := getUnit s u
  let c := unitCore x l
  unitRuns s u x.ucc && coreRuns { c with waiting := false } && decide (c.resumeAt ≤ x.ucc)

/-- A pending interrupt met at a boundary (10 R303 to R307): a WAIT ends, and with IE = 1 and TX = 0 the interrupt is taken. -/
def meetInterrupt (s : State) (u : UnitId) (l : CoreId) : State :=
  if !atBoundary s u l || !anyPending (getUnit s u) (unitCore (getUnit s u) l) then s else
  let s := modUnit s u (fun x => endWait x l)
  (takeInterrupt s u l).getD s

/-- WAIT_END (10 R307). -/
def execWaitEnd (u : UnitId) (l : CoreId) (s : State) : Host.Outcome State Fault Refusal :=
  .next (if (unitCore (getUnit s u) l).waiting then meetInterrupt s u l else s)

/-- INTERRUPT_ENTRY (10 R303): nothing happens where no interrupt can be taken. -/
def execInterruptEntry (u : UnitId) (l : CoreId) (s : State) : Host.Outcome State Fault Refusal :=
  .next (if intEnabled (unitCore (getUnit s u) l) then meetInterrupt s u l else s)

/-- TIMER_INTERRUPT (10 R306): the UCC passes, and a core timer that is due is taken where it may be. -/
def execTimerInterrupt (u : UnitId) (l : CoreId) (ucc : Nat) (s : State) : Host.Outcome State Fault Refusal :=
  match timeTo s u ucc with
  | none => .next s
  | some s => .next (if timerPending (getUnit s u) (unitCore (getUnit s u) l) then meetInterrupt s u l else s)

/-- The word of a code slot (07 R213): the four syllables with their parity. -/
def codeSlot (w : Word) : Word :=
  let par := (List.range 4).foldl (fun a k => a + 2 ^ k * bit (parity (BitVec.ofNat 14 (bitsOf w (14 * k) 14)))) 0
  BitVec.ofNat 64 (bitsOf w 0 56 + 2 ^ 56 * par)

/-- LCODE [As], Dt (15 R451): the code word goes into the store buffer as a store of its slot. -/
def lcodeBody (p : Proc) (a t : Reg) (s : State) : XOut :=
  match p with
  | .core u l =>
    let x := getUnit s u
    let c := unitCore x l
    let va := rdA c a
    let ca : CodeAddr := BitVec.ofNat 48 va.toNat
    let pc := c.parcel.toNat
    if va.toNat % 4 ≠ 0 then .exn s 0x04 va else
    match (if bitsOf va 48 16 = 0 then codeXlate x pc l ca else none) with
    | none => .exn s 0x06 va
    | some (ppa, lOk, _) =>
      if !lOk then .exn s 0x08 va else
      match codeFrame x pc ppa with
      | none => .exn s 0x06 va
      | some frame =>
        match sbPut s u l (frame + slotOff ca) (leBytes 8 (codeSlot (rdD c t)).toNat) with
        | .ok s => .done s [] 1
        | .stop o => o
  | _ => .done s [] 1

/-- LCODE (15 R451): C profile, privileged. -/
def execLcode (i : Issue) (r t : Reg) (s : State) : Host.Outcome State Fault Refusal :=
  runInstr s i { len := 2, t := false, sv := false, priv := true, txBad := true } (lcodeBody i.proc r t)

/-- A CLEAN or FLUSH of a byte's line by a processor (11 R339, R341): after the core's buffered stores to the line, and after a
transaction that wrote it. A fieldbook line is never dirty. `flush` tells the two apart. -/
def lineOp (flush : Bool) (p : Proc) (va : Word) (s : State) : XOut :=
  match dataAddr s p va (plain 1) with
  | .exn code s => .exn s code va
  | .forbid => .abort s 7
  | .at mpa s =>
    let line := mpa / 64
    let work := fun (s : State) (u : UnitId) (agent : Nat) =>
      let x := getUnit s u
      XOut.done (setUnit s u (
        if isFbAddr mpa then
          if flush then setL3 (setDir (dropCopies x line (holderList (dirOf x line))) line agent
            { dirOf x line with st := .free, holders := 0, own := 0 }) line .absent else x
        else if flush then performFlush x agent line else performClean x line)) [] 1
    match p with
    | .core u l =>
      let mine := (unitCore (getUnit s u) l).sb.any (fun e => e.addr / 64 == line)
      (match (if mine then drainSb s u l else some s) with
       | none => .wait s
       | some s =>
         match txResolve (getUnit s u) line false (some l) none with
         | (_, .go) => if inService (getUnit s u) line then .wait s else work s u (corePos (getUnit s u) l)
         | _ => .wait s)
    | .engine u e =>
      (match txResolve (getUnit s u) line false none none with
       | (_, .go) => if inService (getUnit s u) line then .wait s else work s u (56 + e / 16)
       | _ => .wait s)
    | .service => .done s [] 1

/-- The address of CLEAN and FLUSH (07 R228). -/
def lineOpAddr (s : State) (p : Proc) (a : Reg) (imm : BitVec 12) : Word := rdA (getCore s p) a + imm12s imm

/-- CLEAN [As + imm12] (07 R228, 11 R341). -/
def execClean (i : Issue) (r : Reg) (imm : BitVec 12) (s : State) : Host.Outcome State Fault Refusal :=
  runInstr s i { len := 2, txBad := true } (fun s => lineOp false i.proc (lineOpAddr s i.proc r imm) s)

/-- FLUSH [As + imm12] (07 R228, 11 R341). -/
def execFlush (i : Issue) (r : Reg) (imm : BitVec 12) (s : State) : Host.Outcome State Fault Refusal :=
  runInstr s i { len := 2, txBad := true } (fun s => lineOp true i.proc (lineOpAddr s i.proc r imm) s)

/-- The encoding of the service group: the S profile alone, privileged (07 R210, R228). -/
def encSvcGroup : Enc := { len := 2, c := false, t := false, priv := true }

/-- Service-die I/O read (07 R228): the spec gives its operands no resource that it describes. -/
def execServiceIoRead (i : Issue) (_d _s _t : Reg) (s : State) : Host.Outcome State Fault Refusal :=
  runInstr s i encSvcGroup (fun _ => .refuse .serviceGroup)

/-- Service-die I/O write (07 R228). -/
def execServiceIoWrite (i : Issue) (_d _s _t : Reg) (s : State) : Host.Outcome State Fault Refusal :=
  runInstr s i encSvcGroup (fun _ => .refuse .serviceGroup)

/-- Stake issue by firmware (07 R228). -/
def execServiceStakeIssue (i : Issue) (_d _s _t : Reg) (s : State) : Host.Outcome State Fault Refusal :=
  runInstr s i encSvcGroup (fun _ => .refuse .serviceGroup)

/-- Key-bus transfer by firmware (07 R228). -/
def execServiceKeyTransfer (i : Issue) (_d _s _t : Reg) (s : State) : Host.Outcome State Fault Refusal :=
  runInstr s i encSvcGroup (fun _ => .refuse .serviceGroup)

/-- UNASSIGNED_INSTRUCTION (07 R225, R234): ILLEGAL, whatever the reason; `len` is one less than the syllables decoded. -/
def execUnassignedInstruction (i : Issue) (_why : BadDecode) (len : Fin 4) (s : State) : Host.Outcome State Fault Refusal :=
  runInstr s i { len := len.val + 1, bad := true } (fun s => .done s [] 1)

end Sys2Proof.Machine
end

