-- ==== Sys2Proof/Machine/Atomics.lean ====
section
/-! DEFINITION. Reservations and posting transactions (09 R277 to R293), the drain of a store buffer (R267). -/
namespace Sys2Proof.Machine

/-- The pins of a line's directory set, without those of one holder (09 R280). -/
def pinsInSet (x : UnitState) (line : Nat) (self : Nat × Nat) : Nat :=
  ((setEntries x line).filter (fun e => match e.2.pin with | some h => h != self | none => false)).length

/-- A reservation set on a line by a processor (09 R277, R280): its old pin released, the entry pinned. -/
def setRsv (x : UnitState) (line : Nat) (self : Nat × Nat) (put : UnitState → UnitState) : UnitState :=
  put (setDir x line self.1 { dirOf x line with pin := some self })

/-- The encoding of the reservation group (07 R223, R228). -/
def encRsv : Enc := { len := 2, txBad := true }

/-- LDRES of a core at a module-physical address (09 R277, R280): a ninth pin in a set waits. -/
def ldresCore (d : Reg) (u : UnitId) (l : CoreId) (va : Word) (mpa : Nat) (p : Proc) (s : State) : XOut :=
  let line := mpa / 64
  let s := modUnit s u (fun x => clearRsv x l)
  let x := getUnit s u
  let self := (corePos x l, 0)
  if 8 ≤ pinsInSet x line self then
    .wait (modUnit s u (fun x => modUnitCore x l (fun c => { c with pinWait := some (BitVec.ofNat 46 line) }))) else
  let r := if isFbAddr mpa then fbLoad s u l va mpa 8 else
    match coreTouch x l line false none with
    | (x, .go) => dramLoad (setUnit s u x) u l va mpa 8
    | (x, _) => .stop (.wait (setUnit s u x))
  match r with
  | .stop o => o
  | .ok s bs =>
    let hold := fun (x : UnitState) => modUnitCore x l (fun c => { c with rsvValid := true, rsvGranule := BitVec.ofNat 46 line, pinWait := none })
    let s := modUnit s u (fun x => setRsv (if isFbAddr mpa then cohReadFb x self.1 line else cohRead x self.1 line) line self hold)
    retireWith s p (fun c =>
      let r := putD c d (BitVec.ofNat 64 (leNat bs))
      (r.1, r.2 ++ [ctlItem p r.1 0x33]))

/-- LDRES of an engine. -/
def ldresEngine (d : Reg) (u : UnitId) (e : EngineId) (va : Word) (mpa : Nat) (p : Proc) (s : State) : XOut :=
  let line := mpa / 64
  let s := modUnit s u (fun x => clearEngineRsv x e)
  let self := (56 + e.val / 16, e.val % 16)
  if 8 ≤ pinsInSet (getUnit s u) line self then .wait s else
  match loadBytes s p va (plain 8) with
  | .stop o => o
  | .ok s bs =>
    let hold := fun (x : UnitState) => setUnitEngine x e { unitEngine x e with rsvValid := true, rsvGranule := BitVec.ofNat 46 line }
    let s := modUnit s u (fun x => setRsv (if isFbAddr mpa then cohReadFb x self.1 line else cohRead x self.1 line) line self hold)
    retireWith s p (fun c =>
      let r := putD c d (BitVec.ofNat 64 (leNat bs))
      (r.1, r.2 ++ [ctlItem p r.1 0x33]))

/-- LDRES Dd, [As] (09 R277). The service processor has its memory to itself: its reservation is never lost to another agent. -/
def execLdres (i : Issue) (d r : Reg) (s : State) : Host.Outcome State Fault Refusal :=
  runInstr s i encRsv (fun s =>
    let p := i.proc
    let va := rdA (getCore s p) r
    match dataAddr s p va (plain 8) with
    | .exn code s => .exn s code va
    | .forbid => .abort s 7
    | .at mpa s =>
      match p with
      | .core u l => ldresCore d u l va mpa p s
      | .engine u e => ldresEngine d u e va mpa p s
      | .service =>
        retireWith s p (fun c =>
          let c := { c with rsvValid := true, rsvGranule := BitVec.ofNat 46 (mpa / 64) }
          let r := putD c d (BitVec.ofNat 64 (leNat (tabGetList byteDef s.svcMem mpa 8)))
          (r.1, r.2 ++ [ctlItem p r.1 0x33])))

/-- PIN_WAIT_END (09 R280): a pin of the set is released, and the waiting LDRES is tried again. -/
def execPinWaitEnd (u : UnitId) (l : CoreId) (s : State) : Host.Outcome State Fault Refusal :=
  let x := getUnit s u
  match (unitCore x l).pinWait with
  | none => .next s
  | some line =>
    if 8 ≤ pinsInSet x line.toNat (corePos x l, 0) then .next s
    else .next (modUnit s u (fun x => modUnitCore x l (fun c => { c with pinWait := none })))

/-- The end of a STCOND (09 R278): Dd and RSV. -/
def stcondEnd (d : Reg) (ok : Bool) (p : Proc) (s : State) : XOut :=
  retireWith s p (fun c =>
    let r := putD { c with rsvValid := false } d (if ok then 0 else 1)
    (r.1, r.2 ++ [ctlItem p r.1 0x33]))

/-- The reservation of a processor covers an address (09 R278). -/
def rsvCovers (c : Core) (mpa : Nat) : Bool := c.rsvValid && decide (c.rsvGranule.toNat = mpa / 64)

/-- A RSVL is on its way to a holder for a line: the home has released its pin, and a STC fails (11 R344). -/
def rsvlFlying (x : UnitState) (mpa : Nat) (self : Nat × Nat) : Bool :=
  x.mem.coh.msgs.any (fun m => decide (m.kind = .rsvl) && m.line == mpa / 64 && m.agent == self.1 && m.engine == self.2)

/-- STCOND of a core, its earlier stores performed (09 R278, 15 R455): decided at the home as one step. -/
def stcondCore (d t : Reg) (u : UnitId) (l : CoreId) (va : Word) (p : Proc) (s : State) : XOut :=
  match drainSb s u l with
  | none => .wait s
  | some s =>
    -- the reserved granule's retired page is left to the home (15 R455)
    let c := unitCore (getUnit s u) l
    let a : Access := { n := 8, write := true }
    let r := match dataAddr s p va { a with atHome := true } with
      | .at m s' => if rsvCovers c m then AddrRes.at m s' else dataAddr s p va a
      | r => r
    match r with
    | .exn code s => .exn s code va
    | .forbid => .abort s 7
    | .at mpa s =>
      let c := unitCore (getUnit s u) l
      if !rsvCovers c mpa || rsvlFlying (getUnit s u) mpa (corePos (getUnit s u) l, 0) || !homeTakes (getUnit s u) c.parcel.toNat mpa then
        stcondEnd d false p (modUnit s u (fun x => clearRsv x l))
      else
        let bs := leBytes 8 (rdD c t).toNat
        if isFbAddr mpa then
          stcondEnd d true p (modUnit s u (fun x => clearRsv (fbCoreStore x l mpa bs) l))
        else
          match coreTouch (getUnit s u) l (mpa / 64) true none with
          | (x, .go) => stcondEnd d true p (setUnit s u (clearRsv (performStore x (corePos x l) mpa bs (some l) none) l))
          | (x, _) => .wait (setUnit s u x)

/-- STCOND of an engine. -/
def stcondEngine (d t : Reg) (u : UnitId) (e : EngineId) (va : Word) (p : Proc) (s : State) : XOut :=
  let c := unitEngine (getUnit s u) e
  let a : Access := { n := 8, write := true }
  let r := match dataAddr s p va { a with atHome := true } with
    | .at m s' => if rsvCovers c m then AddrRes.at m s' else dataAddr s p va a
    | r => r
  match r with
  | .exn code s => .exn s code va
  | .forbid => .abort s 7
  | .at mpa s =>
    if !rsvCovers c mpa || rsvlFlying (getUnit s u) mpa (56 + e.val / 16, e.val % 16) || !homeTakes (getUnit s u) c.parcel.toNat mpa then
      stcondEnd d false p (modUnit s u (fun x => clearEngineRsv x e))
    else
      let bs := leBytes 8 (rdD c t).toNat
      if isFbAddr mpa then stcondEnd d true p (modUnit s u (fun x => clearEngineRsv (fbEngStore x e mpa bs) e))
      else
        match dmaTouch (getUnit s u) (56 + e / 16) (mpa / 64) true with
        | (x, false) => .wait (setUnit s u x)
        | (x, true) => stcondEnd d true p (setUnit s u (clearEngineRsv (performStore x (56 + e / 16) mpa bs none (some e)) e))

/-- STCOND Dd, Dt, [As] (09 R278). -/
def execStcond (i : Issue) (d r t : Reg) (s : State) : Host.Outcome State Fault Refusal :=
  runInstr s i encRsv (fun s =>
    let p := i.proc
    let va := rdA (getCore s p) r
    match p with
    | .core u l => stcondCore d t u l va p s
    | .engine u e => stcondEngine d t u e va p s
    | .service =>
      match dataAddr s p va { n := 8, write := true } with
      | .exn code s => .exn s code va
      | .forbid => .abort s 7
      | .at mpa s =>
        let c := getCore s p
        if rsvCovers c mpa then
          stcondEnd d true p { s with svcMem := tabSetList byteDef s.svcMem mpa (leBytes 8 (rdD c t).toNat) }
        else stcondEnd d false p s)

/-- CLRES (09 R279). -/
def execClres (i : Issue) (s : State) : Host.Outcome State Fault Refusal :=
  runInstr s i { len := 1, txBad := true } (fun s =>
    let s := match i.proc with
      | .core u l => modUnit s u (fun x => clearRsv x l)
      | .engine u e => modUnit s u (fun x => clearEngineRsv x e)
      | .service => modCore s .service (fun c => { c with rsvValid := false })
    retireWith s i.proc (fun c => (c, [ctlItem i.proc c 0x33])))

/-- The checkpoint that TBEG takes (09 R282). -/
def takeCkpt (c : Core) : Checkpoint :=
  { a := c.a, d := c.d, k := c.k, psw := c.psw, rm := c.rm, subn := c.subn, fpsw := c.fpsw }

/-- TBEG (09 R282, R290): ORDER, then the transaction opens with its begin-stamp, the carried one at the same TBEG. -/
def tbegBody (i : Issue) (disp : BitVec 30) (s : State) : XOut :=
  match i.proc with
  | .core u l =>
    (match orderNow s i.proc with
     | none => .wait s
     | some s =>
       let c := unitCore (getUnit s u) l
       let pc0 := c.pc - 3
       let stamp := match c.carried with
         | some (st, pc) => if pc = pc0 then st else (i.ucc, l.val)
         | none => (i.ucc, l.val)
       let t : Txn :=
         { stamp := stamp, abortPath := branchTo pc0 disp, tbegPc := pc0, ckpt := takeCkpt c
           readSet := [], writeSet := [], data := [], count := 0 }
       let keep := match c.carried with | some (_, pc) => decide (pc = pc0) | none => false
       retireWith s i.proc (fun c =>
         withFlags ({ c with txn := some t, carried := if keep then c.carried else none }, []) (fun p => { p with tx := true })))
  | _ => .done s [] 1

/-- TBEG disp30 (09 R282): C profile; COND must be 0. -/
def execTbeg (i : Issue) (cond : BitVec 4) (disp : BitVec 30) (s : State) : Host.Outcome State Fault Refusal :=
  runInstr s i { len := 3, t := false, sv := false, bad := decide (cond ≠ 0), txBad := true } (tbegBody i disp)

/-- A line of a write set performed at the commit (09 R285). -/
def commitLine (x : UnitState) (l : Nat) (t : Txn) (line : Nat) : UnitState :=
  let x := cohOwn x (corePos x l) line
  let x := (t.data.filter (fun e => e.1 / 64 == line)).foldl (fun x e => putBytes x e.1 [e.2]) x
  storeEffects (writeThrough x (corePos x l) line) line (some l) none

/-- The commit of a core's open transaction (09 R285, R290). -/
def commitTxn (x : UnitState) (l : Nat) (t : Txn) : UnitState :=
  let x := t.writeSet.foldl (fun x line => commitLine x l t line) x
  let x := releaseLines x (corePos x l) (t.readSet ++ t.writeSet)
  modUnitCore x l (fun c => { c with txn := none, carried := none })

/-- TEND (09 R285): outside a transaction ILLEGAL (R293). The commit then acts as ORDER: the buffer is empty inside a transaction. -/
def execTend (i : Issue) (s : State) : Host.Outcome State Fault Refusal :=
  runInstr s i { len := 1, t := false, sv := false } (fun s =>
    match i.proc with
    | .core u l =>
      (match (unitCore (getUnit s u) l).txn with
       | none => .exn s 0x01 0
       | some t =>
         match orderNow (modUnit s u (fun x => commitTxn x l t)) i.proc with
         | none => .wait s
         | some s => retireWith s i.proc (fun c => withFlags (c, []) (fun p => { p with tx := false })))
    | _ => .done s [] 1)

/-- TABT #code (09 R293). -/
def execTabt (i : Issue) (fn : BitVec 8) (s : State) : Host.Outcome State Fault Refusal :=
  runInstr s i { len := 2, t := false, sv := false, bad := decide (fn.toNat < 0x80) } (fun s =>
    match (getCore s i.proc).txn with
    | none => .done s [] 1
    | some _ => .abort s fn)

/-- A code that an abort may write (09 R292). -/
def abortCodeOk (code : BitVec 8) : Bool := (decide (1 ≤ code.toNat) && decide (code.toNat ≤ 0x0A)) || decide (0x80 ≤ code.toNat)

/-- TRANSACTION_ABORT (09 R286): an open transaction aborts with a code. -/
def execTransactionAbort (u : UnitId) (l : CoreId) (code : BitVec 8) (s : State) : Host.Outcome State Fault Refusal :=
  .next (if abortCodeOk code && unitRuns s u (getUnit s u).ucc then modUnit s u (fun x => txAbort x l code) else s)

/-- STORE_BUFFER_DRAIN (09 R267): the oldest store is performed, unless it waits at its home. -/
def execStoreBufferDrain (u : UnitId) (l : CoreId) (s : State) : Host.Outcome State Fault Refusal :=
  .next (if unitRuns s u (getUnit s u).ucc then (drainHead s u l).getD s else s)

end Sys2Proof.Machine
end

