-- ==== Sys2Proof/Machine/Links.lean ====
section
/-! DEFINITION. Lanes and ports: frames and flits in, stakes out of the receive buffers, flow control, ports up and down (06
R173 to R180, R198 to R201, R207, R551). -/
namespace Sys2Proof.Machine

/-- The receive buffer of a port in bytes (06 R179). -/
def rxCap (x : DiePort) : Nat := (if portNative x then 262144 else 32768) * portLanes x

/-- The bytes that an input takes in the receive buffer. -/
def inBytes : InputBody → Nat
  | .frame f => f.len
  | .flit _ => 256
  | .portEvent _ => 0

/-- The MTU field of a port's CFG word (06 R174). -/
def portMtu (x : DiePort) : Nat := bitsOf x.cfg 16 16

/-- A MAC PAUSE frame of IEEE 802.3 Annex 31B (06 R179): destination, source, type, opcode, quanta, padding. -/
def pauseFrame (mac : BitVec 48) (quanta : Nat) : List Byte :=
  beBytes 6 0x0180C2000001 ++ beBytes 6 mac.toNat ++ beBytes 2 0x8808 ++ beBytes 2 1 ++ beBytes 2 quanta ++ List.replicate 42 0

/-- Bytes that leave on a lane outside the transmit queue: PAUSE frames and link-layer flits (log 15). -/
def laneRaw (s : State) (p : Nat) (bs : List Byte) : State := { s with sent := s.sent ++ [(p, bs)] }

/-- A port with pause enabled sends PAUSE 0xFFFF when its buffer passes half full, quanta 0 below one quarter (06 R179). -/
def pauseCheck (s : State) (p : Nat) : State :=
  let x := portOf s p
  if portNative x || !x.up || !bitOf x.cfg 9 then s
  else if !x.pauseSent && decide (rxCap x < 2 * x.rxBytes) then
    laneRaw (setPort s p { x with pauseSent := true, pauseTx := x.pauseTx + 1 }) p (pauseFrame x.mac 0xFFFF)
  else if x.pauseSent && decide (4 * x.rxBytes < rxCap x) then
    laneRaw (setPort s p { x with pauseSent := false, pauseTx := x.pauseTx + 1 }) p (pauseFrame x.mac 0)
  else s

/-- The frame is for the port (06 R175). -/
def frameWanted (x : DiePort) (f : EthFrame) : Bool :=
  bitOf x.cfg 10 || f.dstMac == x.mac || f.dstMac == BitVec.allOnes 48
    || (f.dstMac != 0 && x.mcast.contains f.dstMac)

/-- The longest frame of a port with its FCS (06 R175). -/
def frameMax (x : DiePort) (f : EthFrame) : Nat := portMtu x + 18 + 4 * f.tags

/-- A return of one credit for a flit that left the receive buffer (06 R200). -/
def returnCredit (s : State) (p : Nat) (ctl : Bool) : State :=
  laneRaw (modPort s p (fun x => if ctl then { x with grant1 := x.grant1 + 1 } else { x with grant0 := x.grant0 + 1 })) p
    (linkFlit 5 0 (beBytes 2 (if ctl then 0 else 1) ++ beBytes 2 (if ctl then 1 else 0)))

/-- The head of a receive buffer staked, where the die may stake it (06 R179): outside OFF, a checkstop, a stopped die and a
re-level freeze (04 R123), and with room in the stake line (03 R67). -/
def drainRx (s : State) (p : PortId) : State :=
  let x := portOf s p.val
  match x.rx with
  | [] => s
  | b :: r =>
    let d := portDie p
    if isOff s || s.bench.checkstop || (dieOf s d).stopped || relevelPhase s == 5 || !dieRoom s d (.input p b) then s
    else
      let s := setPort s p.val { x with rx := r, rxBytes := x.rxBytes - inBytes b }
      let s := issueDie s d (.input p b)
      match b with
      | .flit f => returnCredit s p.val f.isCtl
      | _ => pauseCheck s p.val

/-- A receive buffer drained as far as it goes. -/
def drainRxAll : Nat → State → PortId → State
  | 0, s, _ => s
  | n + 1, s, p => drainRxAll n (drainRx s p) p

/-- A port's levelled state in a unit (06 R176). -/
def setUnitUp (x : UnitState) (p : Nat) (up : Bool) : UnitState :=
  { x with trv := { x.trv with
    ports := tabSet (fun _ => ({} : UnitPort)) x.trv.ports p { tabGet (fun _ => ({} : UnitPort)) x.trv.ports p with up := up } } }

/-- A port event (06 R176): staked behind what the buffer holds; while no unit executes, the units' state changes at once
(log 16). -/
def portEventOut (s : State) (p : PortId) (up : Bool) : State :=
  if isOff s then modBoth s (fun x => setUnitUp x p.val up)
  else
    let s := modPort s p.val (fun x => { x with rx := x.rx ++ [.portEvent up] })
    drainRxAll ((portOf s p.val).rx.length) s p

/-- The link state of a port that is down: no credits, nothing kept for replay (06 R199, R200). -/
def portCold (x : DiePort) : DiePort :=
  { x with
    up := false, replayBuf := [], llNext := 0, llExpect := 0, sinceAck := 0, replays := 0
    vc0 := 0, vc1 := 0, grant0 := 0, grant1 := 0, paused := 0, pauseSent := false, lock := false, trained := 0 }

/-- One more port-down event. -/
def bumpDown (x : DiePort) : DiePort := { x with downEvents := x.downEvents + 1 }

/-- A port goes down (06 R176, R199, R551; 17 R489 PORT_FLAP). -/
def goDown (s : State) (p : PortId) : State :=
  if !(portOf s p.val).up then s else
  let s := modPort s p.val (fun x => portCold (bumpDown (portFlush x)))
  let s := endSpace (drainWaitOut ((dieOf s (portDie p)).waitOut.length) s (portDie p)) (portDie p)
  let s := portEventOut s p false
  raiseFree s (dieSrcNum (portDie p) 5) (foreState s).ucc

/-- FRAME_RECEIVE (06 R175, R179): the filter, the length, room in the buffer. -/
def execFrameReceive (p : PortId) (f : EthFrame) (s : State) : Host.Outcome State Fault Refusal :=
  let x := portOf s p.val
  if !x.conf || !x.up || portNative x || !frameWanted x f then .next s
  else if frameMax x f < f.len + 4 ∨ rxCap x < x.rxBytes + f.len then .next (setPort s p.val { x with rxDrop := x.rxDrop + 1 })
  else .next (pauseCheck (setPort s p.val { x with rx := x.rx ++ [.frame f], rxBytes := x.rxBytes + f.len }) p.val)

/-- STAKE_DRAIN (06 R179, 03 R67). -/
def execStakeDrain (p : PortId) (s : State) : Host.Outcome State Fault Refusal := .next (drainRx s p)

/-- PAUSE_RECEIVE (06 R179): the port honours it whether or not it sends them. -/
def execPauseReceive (p : PortId) (quanta : BitVec 16) (s : State) : Host.Outcome State Fault Refusal :=
  let x := portOf s p.val
  if !x.conf || !x.up || portNative x then .next s
  else
    let s := setPort s p.val { x with paused := quanta.toNat, pauseRx := x.pauseRx + 1 }
    let s := drainTx x.tx.length s p.val
    .next (endSpace (drainWaitOut ((dieOf s (portDie p)).waitOut.length) s (portDie p)) (portDie p))

/-- PAUSE_EXPIRY (06 R179): the pause time has run out. -/
def execPauseExpiry (p : PortId) (s : State) : Host.Outcome State Fault Refusal :=
  let x := portOf s p.val
  let s := setPort s p.val { x with paused := 0 }
  let s := drainTx x.tx.length s p.val
  .next (endSpace (drainWaitOut ((dieOf s (portDie p)).waitOut.length) s (portDie p)) (portDie p))

/-- PORT_UP (06 R172, R176, R200): a configured port whose die has its lanes up, not before the units have cleared its DOWN (04 R102); a
native port grants its credits. -/
def execPortUp (p : PortId) (s : State) : Host.Outcome State Fault Refusal :=
  let x := portOf s p.val
  let d := dieOf s (portDie p)
  if !x.conf || x.up || d.stopped || d.lanesDown || (!isOff s && bitOf (foreState s).clo.status (4 + (portDie p).val)) then .next s else
  let n := portLanes x
  let y : DiePort := { (portCold x) with up := true, lock := true, trained := BitVec.ofNat 4 (2 ^ n - 1) }
  let s := setPort s p.val (if portNative x then { y with grant0 := 960 * n, grant1 := 64 * n } else y)
  let s := if portNative x then laneRaw s p.val (linkFlit 5 0 (beBytes 2 (960 * n) ++ beBytes 2 (64 * n))) else s
  .next (portEventOut s p true)

/-- PORT_DOWN (06 R176, R551). -/
def execPortDown (p : PortId) (s : State) : Host.Outcome State Fault Refusal := .next (goDown s p)

/-- BLOCK_LOCK_LOSS (06 R199): 1 us without block lock takes a native port down. -/
def execBlockLockLoss (p : PortId) (s : State) : Host.Outcome State Fault Refusal :=
  if portNative (portOf s p.val) then .next (goDown s p) else .next s

/-- The ports of a die at their lanes go down as it stops: what they hold is lost (06 R207). -/
def stopDiePorts (s : State) (d : DieId) : State :=
  { s with
    ports := tabMap (fun _ => ({} : DiePort))
      (fun n x => if n / 256 = d.val then { (portCold x) with tx := [], txBytes := 0, rx := [], rxBytes := 0 } else x) s.ports }

/-- The ports of a die down in a unit (06 R207). -/
def unitPortsDown (x : UnitState) (d : DieId) : UnitState :=
  { x with trv := { x.trv with
    ports := tabMap (fun _ => ({} : UnitPort)) (fun n q => if n / 256 = d.val then { q with up := false } else q) x.trv.ports } }

/-- A Traverse die stops (06 R207): the hub marks the die's ports down, the outputs held at the die are discarded; while levelled the
Backsight is dropped, since its records in the die's stake line are lost (03 R63). -/
def dieStop (s : State) (d : DieId) : State :=
  if (dieOf s d).stopped then s else
  let s := modDie s d (fun x => { x with
    stopped := true, line := [], side0 := [], side1 := [], held := [], referee := none, waitOut := [] })
  let s := stopDiePorts s d
  let s := if isOff s then modBoth s (fun x => unitPortsDown x d) else issueSvc s (some (boundaryStamp s)) (.cfg (.portsDown d))
  let s := raiseFree s (dieSrcNum d 4) (foreState s).ucc
  match backUnit s with | some u => dropUnit s u 0x06 | none => s

/-- DIE_STOP (06 R207). -/
def execDieStop (d : DieId) (s : State) : Host.Outcome State Fault Refusal := .next (dieStop s d)

/-- An LLACK of the last flit accepted (06 R199). -/
def sendLlack (s : State) (p : Nat) : State :=
  let x := portOf s p
  laneRaw (setPort s p { x with sinceAck := 0 }) p (linkFlit 3 (x.llExpect - 1) [])

/-- FLIT_RECEIVE (06 R199 to R201): a CRC failure asks for a replay; a flit out of its turn is dropped, the replay brings
it; a flit for another module is discarded and counted, and its credit returned. -/
def execFlitReceive (p : PortId) (f : Flit) (crcOk : Bool) (s : State) : Host.Outcome State Fault Refusal :=
  let x := portOf s p.val
  if !x.conf || !x.up || !portNative x then .next s
  else if !crcOk then .next (laneRaw s p.val (linkFlit 4 x.llExpect []))
  else if f.llseq ≠ x.llExpect then .next s
  else
    let x := { x with llExpect := x.llExpect + 1, sinceAck := x.sinceAck + 1 }
    let s := setPort s p.val x
    let s := if f.dst ≠ s.pow.modId then
        returnCredit (modPort s p.val (fun x => { x with rxDrop := x.rxDrop + 1 })) p.val f.isCtl
      else modPort s p.val (fun x => { x with rx := x.rx ++ [.flit f], rxBytes := x.rxBytes + 256 })
    .next (if 32 ≤ x.sinceAck then sendLlack s p.val else s)

/-- LLACK_TIMER (06 R199): an LLACK at least every 100 ns while flits wait for one. -/
def execLlackTimer (p : PortId) (s : State) : Host.Outcome State Fault Refusal :=
  let x := portOf s p.val
  if x.up && portNative x && decide (0 < x.sinceAck) then .next (sendLlack s p.val) else .next s

/-- The flits after the one with an LLSEQ; all of them where it is not there. -/
def afterFlit (l : List (BitVec 16 × List Byte)) (n : BitVec 16) : List (BitVec 16 × List Byte) :=
  if l.any (fun e => e.1 == n) then (l.dropWhile (fun e => e.1 != n)).drop 1 else l

/-- LLACK (06 R199): the replay buffer drops every flit up to the LLSEQ. -/
def execLlack (p : PortId) (llseq : BitVec 16) (s : State) : Host.Outcome State Fault Refusal :=
  let x := portOf s p.val
  if !x.up || !portNative x then .next s else
  let r := afterFlit x.replayBuf llseq
  let y := if r.length < x.replayBuf.length then { x with replayBuf := r, replays := 0 } else x
  let s := drainTx y.tx.length (setPort s p.val y) p.val
  .next (endSpace (drainWaitOut ((dieOf s (portDie p)).waitOut.length) s (portDie p)) (portDie p))

/-- LLNAK (06 R199): every flit from the LLSEQ on is sent again, without credit; the port goes down after 16 replays
without progress. -/
def execLlnak (p : PortId) (llseq : BitVec 16) (s : State) : Host.Outcome State Fault Refusal :=
  let x := portOf s p.val
  if !x.up || !portNative x then .next s else
  let r := x.replayBuf.dropWhile (fun e => e.1 != llseq)
  let s := setPort s p.val { x with replays := x.replays + 1, llReplay := x.llReplay + 1 }
  let s := r.foldl (fun s e => laneRaw s p.val (flitWire e.1 e.2)) s
  .next (if 16 ≤ x.replays + 1 then goDown s p else s)

/-- CREDIT (06 R200): grants of both channels. -/
def execCredit (p : PortId) (vc0 vc1 : BitVec 16) (s : State) : Host.Outcome State Fault Refusal :=
  let x := portOf s p.val
  if !x.up || !portNative x then .next s else
  let s := setPort s p.val { x with vc0 := x.vc0 + vc0.toNat, vc1 := x.vc1 + vc1.toNat }
  let s := drainTx x.tx.length s p.val
  .next (endSpace (drainWaitOut ((dieOf s (portDie p)).waitOut.length) s (portDie p)) (portDie p))

end Sys2Proof.Machine
end

