-- ==== Sys2Proof/Machine/RawOps.lean ====
section
/-! DEFINITION. The unit window of the expert window: MC_, COH_, FBM_ blocks, raw views of the control window and of the levelled
tables (12 R382, 13 R390 to R392, 16 R484, R485). -/
namespace Sys2Proof.Machine

/-- MC_CTL.EN of a controller (12 R382). -/
def mcEn (x : UnitState) (c : Fin 12) : Bool := bitOf (mcReg x c 0) 0

/-- The defined bits of a writable MC_ register; 0 where the offset holds none (12 R382, 13 R390 to R392). -/
def mcMask (o : Nat) : Nat :=
  if o = 0x000 then 0xF07
  else if o = 0x008 then 0x773F
  else if o = 0x010 then 0xFFFF
  else if (0x020 ≤ o ∧ o ≤ 0x040 ∨ 0x048 ≤ o ∧ o ≤ 0x058) ∧ o % 8 = 0 then 0xFFFFFFFFFF000
  else if o = 0x060 then 0xFFFF
  else if 0x080 ≤ o ∧ o ≤ 0x0B8 ∧ o % 8 = 0 then 0xFFFFFFFF
  else if o = 0x0C0 then 0xFF03FFFF
  else if o = 0x0C8 then 0xFFFFFFFFFFFF
  else if o = 0x0D0 then 0xFFFF0003
  else if o = 0x0D8 then 0xFFFF0001
  else if 0x100 ≤ o ∧ o < 0x200 ∧ o % 8 = 0 then 0xFFFF
  else if 0x200 ≤ o ∧ o < 0x240 ∧ o % 8 = 0 then 0x377F
  else if 0x400 ≤ o ∧ o < 0x540 ∧ o % 8 = 0 then 0x3FF03FF
  else if o = 0x800 then 3
  else if o = 0x808 ∨ o = 0x810 then 0xFFFFFFFFFFFFFFFF
  else if o = 0x828 then 0x1FFFFFFFFFFFF
  else 0

/-- The offset holds RWS fields (12 R382). -/
def mcRws (o : Nat) : Bool :=
  (o == 0x060 || decide (0x080 ≤ o ∧ o ≤ 0x0B8) || o == 0x0C0 || o == 0x0C8 || o == 0x0D0 || o == 0x0D8
    || decide (0x200 ≤ o ∧ o < 0x240)) && mcMask o != 0

/-- A pending RWS value of a controller (00 R13). -/
def mcPend (x : UnitState) (c : Fin 12) (o : Nat) (w : Word) : UnitState :=
  modMc x c (fun m => { m with pendRws := tabSet (fun _ => (none : Option Word)) m.pendRws o (some w) })

/-- MC_CTL written (12 R382): EN stays once set; GEN only while EN is 0; EN := 1 starts bring-up. -/
def mcCtlWrite (x : UnitState) (c : Fin 12) (w : Word) : UnitState :=
  let r := mcReg x c 0
  let en := bitOf r 0
  let r' := withBits (withBit (withBit r 0 (en || bitOf w 0)) 1 (if en then bitOf r 1 else bitOf w 1)) 8 4 (bitsOf w 8 4)
  let x := setMcReg x c 0 r'
  if !en && bitOf w 0 then setMcReg x c 0x018 (withBits (mcReg x c 0x018) 0 3 1) else x

/-- MC_FCHG written: GO is RWS, HOLD is RW while EN is 0 (12 R382). -/
def mcFchgWrite (x : UnitState) (c : Fin 12) (w : Word) : UnitState :=
  let x := if mcEn x c then x else setMcReg x c 0x0D8 (withBits (mcReg x c 0x0D8) 16 16 (bitsOf w 16 16))
  mcPend x c 0x0D8 (BitVec.ofNat 64 (bitsOf w 0 1))

/-- MC_DLY written: at once while EN is 0, else at the next retrain slot (12 R382). -/
def mcDlyWrite (x : UnitState) (c : Fin 12) (o : Nat) (w : Word) : UnitState :=
  if mcEn x c then modMc x c (fun m => { m with dlyPend := tabSet (fun _ => (none : Option Word)) m.dlyPend o (some w) })
  else setMcReg x c o w

/-- MC_ECCTEST written: EN := 1 only while the unit executes nothing (13 R391). -/
def mcEccWrite (x : UnitState) (c : Fin 12) (w : Word) : UnitState :=
  if bitOf w 0 && x.executing then x else setMcReg x c 0x800 w

/-- A write to a controller's block (12 R382, 13 R390 to R392); read-only fields ignore it. -/
def mcWrite (x : UnitState) (c : Fin 12) (o : Nat) (w : Word) : UnitState :=
  if o = 0 then mcCtlWrite x c w
  else if o = 0x0D8 then mcFchgWrite x c w
  else if mcRws o then mcPend x c o w
  else if 0x400 ≤ o ∧ o < 0x540 then mcDlyWrite x c o w
  else if o = 0x800 then mcEccWrite x c w
  else if o = 0x808 ∨ o = 0x810 then setMcReg x c o w
  else if o = 0x828 then setMcReg x c o (w1c (mcReg x c o) w (2 ^ 48))
  else if mcMask o ≠ 0 ∧ !mcEn x c then setMcReg x c o w
  else x

/-- COH_CFG.WT (11 R348): setting it starts the sweeps that write every dirty line through. -/
def setWt (x : UnitState) (v : Bool) : UnitState :=
  modCoh x (fun c => { c with wt := v, wtSweep := if v && !c.wt then true else if v then c.wtSweep else false })

/-- A write to the COH_ block (11 R354). -/
def cohWrite (x : UnitState) (o : Nat) (w : Word) : UnitState :=
  if o = 0 then setWt x (bitOf w 0)
  else if o = 8 ∧ bitOf w 2 then modCoh x (fun c => { c with lostOvf := false })
  else x

/-- A map entry from word 0 of 15 R440. -/
def mapEntOf (w : Word) : MapEnt :=
  { pseg := BitVec.ofNat 16 (bitsOf w 0 16), mseg := BitVec.ofNat 16 (bitsOf w 16 16), code := bitOf w 33
    fieldbook := bitOf w 34, device := bitOf w 35, retired := bitOf w 36 }

/-- A parcel's fields changed, where it exists. -/
def modParcel (x : UnitState) (p : Nat) (f : Parcel → Parcel) : UnitState :=
  match parcelOf x p with
  | none => x
  | some q => setParcel x p (some (f q))

/-- Entry `e` of a parcel map written raw (16 R484): V = 0 removes it. -/
def rawMap (x : UnitState) (p e : Nat) (w : Word) : UnitState :=
  modParcel x p (fun q => { q with
    map := if bitOf w 32 then (if e < q.map.length then q.map.set e (mapEntOf w) else q.map ++ [mapEntOf w]) else q.map.eraseIdx e })

/-- A segment table entry replaced (15 R442). -/
def setSeg (x : UnitState) (m : Nat) (e : SegEnt) : UnitState :=
  { x with mem := { x.mem with segs := tabSet (fun _ => ({} : SegEnt)) x.mem.segs m e } }

/-- The parcel table written raw (16 R484): created, SYSTEM, quota. -/
def rawParcel (x : UnitState) (p : Nat) (w : Word) : UnitState :=
  let x := { x with trv := { x.trv with quotas := tabSet (fun _ => 0) x.trv.quotas p (bitsOf w 2 19) } }
  if !bitOf w 0 then setParcel x p none
  else
    match parcelOf x p with
    | none => setParcel x p (some { sys := bitOf w 1, ctxBase := 0, map := [], vectors := [] })
    | some q => setParcel x p (some { q with sys := bitOf w 1 })

/-- Eight bytes of a parcel's vector table written raw (16 R484). -/
def rawVectors (x : UnitState) (p v : Nat) (w : Word) : UnitState :=
  modParcel x p (fun q => { q with
    vectors := (List.range 8).foldl (fun t k =>
      let b := bitsOf w (8 * k) 8
      tabSet (fun _ => (none : Option Nat)) t (v + k) (if b / 128 = 1 then some (b % 64) else none)) q.vectors })

/-- Word 1 + 2p of a path group's entry (06 R204). -/
def pathWord1 (e : PathEntry) (w : Word) : PathEntry :=
  { e with port := Fin.ofNat 1024 (bitsOf w 0 10), valid := bitOf w 10, vlanp := bitOf w 11, vid := BitVec.ofNat 12 (bitsOf w 12 12) }

/-- A path group changed. -/
def modGroup (x : UnitState) (g : Nat) (f : PathGroup → PathGroup) : UnitState :=
  let d : Nat → PathGroup := fun _ => {}
  { x with trv := { x.trv with groups := tabSet d x.trv.groups g (f (tabGet d x.trv.groups g)) } }

/-- Word `i` of a path group written raw (16 R484). -/
def rawGroup (x : UnitState) (g i : Nat) (w : Word) : UnitState :=
  modGroup x g (fun q =>
    if i = 0 then { q with spread := bitOf w 0 }
    else if 16 < i then q
    else
      let p := (i - 1) / 2
      let e := tabGet pathDef q.paths p
      { q with paths := tabSet pathDef q.paths p (if i % 2 = 1 then pathWord1 e w else { e with nhmac := w.setWidth 48 }) })

/-- A station directory entry (05 R130). -/
def setGrant (x : UnitState) (n : Nat) (g : Grant) : UnitState :=
  { x with trv := { x.trv with grants := tabSet (fun _ => (none : Grant)) x.trv.grants n g } }

/-- The raw view of the levelled tables written (16 R484); offsets not listed ignore writes. -/
def rawTable (x : UnitState) (o : Nat) (w : Word) : UnitState :=
  if o < 0x10000 then rawMap x (o / 1024) (o / 8 % 128) w
  else if o < 0x12000 then
    let m := (o - 0x10000) / 16
    let e := segOf x m
    setSeg x m (if o % 16 = 0 then { e with acl := w } else { e with code := bitOf w 0 })
  else if 0x20000 ≤ o ∧ o < 0x28000 then
    let i := (o - 0x20000) / 8
    let l := if i < x.mem.retired.length then x.mem.retired.eraseIdx i else x.mem.retired
    { x with mem := { x.mem with retired := if bitOf w 63 then l ++ [bitsOf w 0 40] else l } }
  else if 0x30000 ≤ o ∧ o < 0x30200 then rawParcel x ((o - 0x30000) / 8) w
  else if 0x40000 ≤ o ∧ o < 0x44000 then rawVectors x ((o - 0x40000) / 256) (o % 256 / 8 * 8) w
  else if 0x100000 ≤ o ∧ o < 0x900000 then
    setGrant x ((o - 0x100000) / 8) (if bitOf w 0 then some (BitVec.ofNat 6 (bitsOf w 1 6)) else none)
  else if 0x900000 ≤ o ∧ o < 0xA00000 then rawGroup x ((o - 0x900000) / 256) (o % 256 / 8) w
  else x

/-- A CHN_ register written raw (16 R485): the RWS register pends, the others take the value. -/
def rawChn (x : UnitState) (o : Nat) (w : Word) : UnitState :=
  if o = 0 then chnCfgPend x w
  else if o = 8 then { x with cn := w.toNat }
  else if o = 0x10 then { x with ub := w.toNat }
  else if o = 0x18 then { x with chn := { x.chn with status := w &&& 0xFFF } }
  else if o = 0x20 then { x with chn := { x.chn with sync := w &&& 0xFF3 } }
  else if h : 0x40 ≤ o ∧ o < 0x60 then
    { x with chn := { x.chn with pressCnt := x.chn.pressCnt.set ((o - 0x40) / 8) w (by omega) } }
  else x

/-- An LVL_ register or MOD_ID written raw (16 R485). -/
def rawLvl (x : UnitState) (o : Nat) (w : Word) : UnitState :=
  if o = 0 then { x with lvl := { x.lvl with cfg := w &&& 0x7F037F } }
  else if o = 8 then { x with lvl := { x.lvl with status := w &&& 0xFFFF3F7F } }
  else if o = 0x10 then { x with ucc := w.toNat }
  else if o = 0x18 then { x with lvl := { x.lvl with start := w } }
  else if o = 0x20 then { x with lvl := { x.lvl with bench := w } }
  else if o = 0x30 then { x with lvl := { x.lvl with underrun := bitOf w 7 } }
  else if o = 0x38 then { x with lvl := { x.lvl with tod := w } }
  else if o = 0x40 then { x with lvl := { x.lvl with todUcc := w } }
  else if o = 0x100 then { x with lvl := { x.lvl with modId := w &&& 0x1FFFF } }
  else x

/-- A CLO_ register written raw (16 R485). -/
def rawClo (x : UnitState) (o : Nat) (w : Word) : UnitState :=
  if o = 0 then { x with clo := { x.clo with cfg := w &&& 0xFFFFFF07 } }
  else if o = 8 then { x with clo := { x.clo with status := w &&& 0x3FFFF } }
  else if o = 0x10 then { x with clo := { x.clo with drop := w &&& 0xFFFFFFFFFFFF0FFF } }
  else if o = 0x18 then { x with clo := { x.clo with count := w } }
  else if o = 0x20 then { x with clo := { x.clo with relevel := w &&& 0xFFFFFFFFFFFFFF0F } }
  else x

/-- The registers of cluster 0 written raw. -/
def rawTec (x : UnitState) (k o : Nat) (w : Word) : UnitState :=
  if k ≠ 0 then x
  else if o = 0x140 then { x with trv := { x.trv with tvtPort := w.setWidth 16 } }
  else if o = 0x148 then { x with trv := { x.trv with native := w &&& 0xFFFFF } }
  else if o = 0x108 then
    { x with fb := { x.fb with epoch := w.setWidth 32, lstate := BitVec.ofNat 2 (bitsOf w 32 2) } }
  else if 0x110 ≤ o ∧ o ≤ 0x128 then
    { x with fb := { x.fb with mlost := withBits x.fb.mlost (64 * ((o - 0x110) / 8)) 64 w.toNat } }
  else x

/-- A register of the raw view of the control window written in one unit (16 R484, R485). -/
def rawCtl (x : UnitState) (o : Nat) (w : Word) : UnitState :=
  match ctlLoc o with
  | .chn o => rawChn x o w
  | .lvl o => rawLvl x o w
  | .clo o => rawClo x o w
  | .cph p o => cphWriteRaw x p.val o w
  | .cmp e c o => cmpWrite x e c.val o w
  | .tec k o => rawTec x k.val o w
  | _ => x

/-- Where a unit-window offset lies (16 R484). -/
inductive WinLoc
  | mc (c : Fin 12) (o : Nat)
  | coh (o : Nat)
  | fbm (o : Nat)
  | ucode
  | ctl (o : Nat)
  | table (o : Nat)
  | reserved
  deriving DecidableEq, Repr

/-- The place of a unit-window offset (16 R484). -/
def winLoc (off : Nat) : WinLoc :=
  if off < 0xC000 then .mc (Fin.ofNat 12 (off / 4096)) (off % 4096)
  else if 0x10000 ≤ off ∧ off < 0x11000 then .coh (off - 0x10000)
  else if 0x11000 ≤ off ∧ off < 0x12000 then .fbm (off - 0x11000)
  else if 0x20000 ≤ off ∧ off < 0x20000 + 56 * 0x100 then .ucode
  else if 0x1000000 ≤ off ∧ off < 0x2400000 then .ctl (off - 0x1000000)
  else if 0x3000000 ≤ off ∧ off < 0x4000000 then .table (off - 0x3000000)
  else .reserved

/-- A unit-window offset holds a levelled field (16 R485): the raw views, and the RWS fields of an MC_ block. -/
def winLevelled (off : Nat) : Bool :=
  match winLoc off with
  | .mc _ o => mcRws o
  | .ctl o => ctlListed (ctlLoc o)
  | .table _ => true
  | _ => false

/-- A write sets a reserved bit of an unlevelled block's register (00 R15). -/
def winBadBits (off : Nat) (w : Word) : Bool :=
  match winLoc off with
  | .mc _ o => mcMask o != 0 && (w &&& ~~~(BitVec.ofNat 64 (mcMask o))) != 0
  | .coh o => (o == 0 && bitsOf w 1 63 != 0) || (o == 8 && bitsOf w 10 54 != 0)
  | .ctl o => ctlBadBits (ctlLoc o) w
  | _ => false

/-- A unit-window offset written in one unit (16 R484, R485); UC_MATCH and FBM_ ignore writes. -/
def winWrite (x : UnitState) (off : Nat) (w : Word) : UnitState :=
  match winLoc off with
  | .mc c o => mcWrite x c o w
  | .coh o => cohWrite x o w
  | .ctl o => rawCtl x o w
  | .table o => flushAllTlbs (rawTable x o w)
  | _ => x

end Sys2Proof.Machine
end

