-- ==== Sys2Proof/Machine/ScrubOps.lean ====
section
/-! DEFINITION. The end of a scrub run and its summary event (13 R393, R395). -/
namespace Sys2Proof.Machine

/-- A scrub run of a unit ends (13 R395): its fabric cycles from the STAMP. -/
def endScrub (x : UnitState) : UnitState :=
  match x.mem.scrub with
  | none => x
  | some r => if r.ended then x else
    { x with mem := { x.mem with scrub := some { r with ended := true, cycles := (x.ucc - r.start) / 2 } } }

/-- A unit's run is over: it has none, it has ended, or the unit is out of service. -/
def scrubOver (x : UnitState) : Bool := match x.mem.scrub with | none => true | some r => r.ended || x.dropped

/-- A unit's four words of the summary (13 R395); zero where it has none. -/
def scrubWords (x : UnitState) : List Word :=
  match x.mem.scrub with
  | none => [0, 0, 0, 0]
  | some r =>
    [BitVec.ofNat 64 r.lines, BitVec.ofNat 64 (r.ce % 2 ^ 32 + 2 ^ 32 * (r.ue % 2 ^ 32)),
     (match r.firstUe with | some a => BitVec.ofNat 64 a | none => -1#64), BitVec.ofNat 64 r.cycles]

/-- Once both units' runs have ended, the summary goes to the command's channel with its tag (13 R395, 16 R467). -/
def scrubFinish (s : State) : State :=
  match s.sahya.scrubTag with
  | none => s
  | some h =>
    if !scrubOver s.u0 || !scrubOver s.u1 || (s.u0.mem.scrub.isNone && s.u1.mem.scrub.isNone) then s else
    let st := if s.sahya.scrubAborted then 1 else if s.sahya.scrubCancelled then 2 else 0
    let w := BitVec.ofNat 64 (bit s.u0.mem.scrub.isSome + 2 * bit s.u1.mem.scrub.isSome + 4 * st)
    let ws := [w] ++ scrubWords s.u0 ++ scrubWords s.u1
    let s := { s with sahya := { s.sahya with scrubTag := none, scrubAborted := false, scrubCancelled := false } }
    let s := modBoth s (fun x => { x with mem := { x.mem with scrub := none } })
    if sahyaUp s then queueReplies s h.chan (replyFrames h.v2 h.tag 0x0B 0xFF 0x83 0 (ws.length + 1) ws) else s

/-- Both units' runs are cut short. -/
def scrubStop (s : State) (aborted : Bool) : State :=
  if s.u0.mem.scrub.isNone && s.u1.mem.scrub.isNone then s else
  let s := { s with sahya := { s.sahya with
    scrubAborted := s.sahya.scrubAborted || aborted, scrubCancelled := s.sahya.scrubCancelled || !aborted } }
  scrubFinish (modBoth s endScrub)

end Sys2Proof.Machine
end

