-- ==== Sys2Proof/Machine/CfgOps.lean ====
section
/-! DEFINITION. What a CTL CFG stake and a block reset do in a unit (03 R66, 04 R128, 05 R130, R160, R162, R553, 06 R173 to R207,
15 R436 to R444, 16 R465, R485, 17 R494). -/
namespace Sys2Proof.Machine

/-- The stations of a unit whose path is no longer live take a new one; those without a path stay so (06 R205, R206). -/
def leaveDeadPaths (s : State) (u : UnitId) : State :=
  (liveStns (getUnit s u)).foldl (fun s n =>
    let x := getUnit s u
    let t := stnOf x n
    let g := stnGroup t
    match t.path with
    | none => s
    | some k => if pathLive x (groupPath x g k) then s else (movePath s u n (choosePath x g n)).getD s) s

/-- Books whose MSTN has no live path enter MIRROR_LOST (05 R160, 06 R206). -/
def cutBooks (s : State) (u : UnitId) : State :=
  (List.range 256).foldl (fun s b =>
    let x := getUnit s u
    let t := stnOf x (bookMstn x b)
    if bookMirrored x b && decide (t.st ≠ .closed) && (livePaths x (stnGroup t)).isEmpty then (enterLost s u b).getD s else s) s

/-- A port's state in a unit after a port event, and what stations do at it (06 R176, R206). -/
def portEvent (s : State) (u : UnitId) (p : Nat) (up : Bool) : State :=
  let s := modUnit s u (fun x => setUnitUp x p up)
  if up then
    (liveStns (getUnit s u)).foldl (fun s n =>
      let x := getUnit s u
      let t := stnOf x n
      let c := choosePath x (stnGroup t) n
      if t.path.isSome || stnTransport t == 2 || c.isNone then s else (movePath s u n c).getD s) s
  else cutBooks (leaveDeadPaths s u) u

/-- The ports of a unit configured by `PATH.PORT` (06 R173): ports whose lanes overlap are replaced. -/
def cfgPort (x : UnitState) (p : Nat) (cfg : Word) (mac : BitVec 48) (raw : BitVec 20) : UnitState :=
  let d : Nat → UnitPort := fun _ => {}
  let n := widthLanes (bitsOf cfg 4 2)
  let meets := fun (q : Nat) (y : UnitPort) => q ≠ p && y.conf && decide (q < p + n) && decide (p < q + widthLanes (bitsOf y.cfg 4 2))
  let ports := tabMap d (fun q y => if meets q y then {} else y) x.trv.ports
  { x with trv := { x.trv with ports := tabSet d ports p { tabGet d ports p with conf := true, cfg := cfg, mac := mac, raw := raw } } }

/-- The station directory and the quota (05 R130). -/
def cfgGrant (x : UnitState) (first count : Nat) (parcel : Option (BitVec 6)) (quota : Nat) : UnitState :=
  let x := (List.range count).foldl (fun x k => setGrant x (first + k) parcel) x
  match parcel with
  | none => x
  | some p => { x with trv := { x.trv with quotas := tabSet (fun _ => 0) x.trv.quotas p.toNat quota } }

/-- The book table written by `STATION.BOOK` (05 R553). -/
def cfgBook (x : UnitState) (b op : Nat) (w0 w1 : Word) : UnitState :=
  match op with
  | 0 =>
    let base := BitVec.ofNat 64 (bitsOf w1 0 33)
    bookPut x 0 b (fun i _ => [w0, w1, base, base, 1, 1, 0, 0].getD i 0)
  | 1 =>
    bookPut x 0 b (fun i w =>
      let base := BitVec.ofNat 64 (bookBase x b)
      if i = 1 then withBits w 40 24 (bitsOf w1 40 24) else if i = 2 ∨ i = 3 then base else w)
  | _ => bookPut x 0 b (fun _ _ => 0)

/-- `STATION.MIRROR` with RESEND (05 R160): every live record again in BSN order, M_STATE after one that is not OPEN. -/
def resendRecs (u : UnitId) (b : Nat) : List (Nat × Nat) → State → Option State
  | [], s => some s
  | (_, off) :: r, s =>
    let x := getUnit s u
    if recKind x off = 6 then resendRecs u b r s else
    match mirrorSend s u b off false with
    | none => none
    | some s' =>
      if recState x off = 0 then resendRecs u b r s' else
      match mirrorSend s' u b off true with
      | none => none
      | some s' => resendRecs u b r s'

/-- A mirrored book sent again from its tail, MSEQ from 1 with RESTART. -/
def resendBook (s : State) (u : UnitId) (b : Nat) : State :=
  let s' := modUnit s u (fun x => modMirror x b (fun m => { m with restart := true, unconf := [] }))
  (resendRecs u b (liveRecs (getUnit s' u) b) s').getD s

/-- A list of mirror records put in origin BSN order. -/
def insertByBsn (x : UnitState) (off : Nat) : List Nat → List Nat
  | [] => [off]
  | o :: r => if (recWord x off 4).toNat < (recWord x o 4).toNat then off :: o :: r else o :: insertByBsn x off r

/-- The live records of a MIRROR book of some kinds, in origin BSN order. -/
def mirrorRecs (x : UnitState) (b : Nat) (state : Bool) : List Nat :=
  ((liveRecs x b).map (fun e => e.2)).foldr (fun off l =>
    let k := recKind x off
    if (state && k == 5) || (!state && (k == 3 || k == 4)) then insertByBsn x off l else l) []

/-- The final words 6 and 7 of an origin record: those of its last M_STATE record, else OPEN with its own LINK. -/
def adoptedState (x : UnitState) (m : Nat) (off : Nat) : Word × Word :=
  let mine := ((liveRecs x m).map (fun e => e.2)).filter (fun o => recKind x o == 5 && recWord x o 4 == recWord x off 4)
  match mine.getLast? with
  | some o => let p := bytesWords 2 (recPayload x o); (p.getD 0 0, p.getD 1 0)
  | none => (0, recWord x off 7)

/-- The mirror records copied into the JOURNAL book (05 R162): the origin BSN, the local offset and the mirror record. -/
def adoptCopy (jbook : Nat) (pairs : List (BitVec 20 × BitVec 20)) : List Nat → UnitState → UnitState × List (Nat × Nat × Nat)
  | [], x => (x, [])
  | off :: r, x =>
    match pairs.find? (fun p => p.1.toNat == recStation x off) with
    | none => adoptCopy jbook pairs r x
    | some (_, local_) =>
      let kind := if recKind x off = 3 then 1 else 2
      let w1 := withBits (withBits (recWord x off 1) 0 4 kind) 8 20 local_.toNat
      let (x', o, _) := bookAppendCn (recWord x off 3).toNat x (stnEng local_.toNat) jbook w1 (recWord x off 2) 0 (BitVec.allOnes 64)
        (recPayload x off) (fun _ _ => .nothing)
      let (x'', l) := adoptCopy jbook pairs r x'
      (x'', ((recWord x off 4).toNat, o, off) :: l)

/-- The state and links of the adopted records (05 R162): a link to a record that was not adopted is none. -/
def adoptLinks (mbook : Nat) (all : List (Nat × Nat × Nat)) : List (Nat × Nat × Nat) → UnitState → UnitState
  | [], x => x
  | (_, off, m) :: r, x =>
    let (w6, w7) := adoptedState x mbook m
    let link : Word := match all.find? (fun e => e.1 == w7.toNat) with | some e => BitVec.ofNat 64 e.2.1 | none => BitVec.allOnes 64
    let x := fbEngPut x (recStation x off / 4096) (off + 32) (wordsBytes [recWord x off 4, recWord x off 5, w6, link]) .nothing
    adoptLinks mbook all r x

/-- The mark of an adopted station rebuilt from its records (05 R162). -/
def adoptMark (x : UnitState) (jbook : Nat) (n : Nat) : UnitState :=
  let recs := ((liveRecs x jbook).map (fun e => e.2)).filter (fun o => recStation x o == n && recKind x o != 6)
  let ins := (recs.filter (fun o => recKind x o == 1)).map (fun o => recSeq x o)
  let outs := recs.filter (fun o => recKind x o == 2)
  let top := fun (l : List Nat) => l.foldl later 0 + 1
  let next := top (outs.map (fun o => recSeq x o))
  let acked := ((outs.filter (fun o => recState x o == 0)).map (fun o => recSeq x o)).foldl min next
  markPut x n (fun i _ =>
    if i = 0 then markHead n (bookParcel x jbook) jbook true
    else BitVec.ofNat 64 (if i = 1 then top ins else if i = 2 then next else acked))

/-- `STATION.TAKEOVER` (05 R162). -/
def doTakeover (x : UnitState) (mbook jbook : Nat) (pairs : List (BitVec 20 × BitVec 20)) : UnitState :=
  let (x, l) := adoptCopy jbook pairs (mirrorRecs x mbook false) x
  let x := adoptLinks mbook l l x
  (pairs.map (fun p => p.2.toNat)).foldl (fun x n => adoptMark x jbook n) x

/-- A parcel reaches a line of DRAM: its map names the segment, and the home takes the parcel's access (15 R439, R453). -/
def reaches (x : UnitState) (p mpa : Nat) : Bool :=
  homeTakes x p mpa &&
  (match parcelOf x p with
   | none => false
   | some q => q.map.any (fun e => decide (e.mseg.toNat = mpa / 2 ^ 36) && !e.code))

/-- Open transactions that hold a line which a change makes unreachable abort with CONFLICT (15 R455). -/
def abortUnreachable (x : UnitState) : UnitState :=
  (List.range 48).foldl (fun x l =>
    match (unitCore x l).txn with
    | none => x
    | some t =>
      let p := (unitCore x l).parcel.toNat
      if (t.readSet ++ t.writeSet).any (fun line => !reaches x p (line * 64)) then txAbort x l 1 else x) x

/-- A change of the parcel tables: held translations go, unreachable transactions abort (15 R448, R455). -/
def tablesChanged (x : UnitState) : UnitState := abortUnreachable (flushAllTlbs x)

/-- `PARCEL.MAP` (15 R439 to R441): an entry set or removed; RETIRED is copied from the segment table. -/
def cfgMap (x : UnitState) (p : Nat) (remove : Bool) (w : Word) : UnitState :=
  let e := mapEntOf w
  let e := { e with retired := e.retired || x.mem.retired.any (fun pg => pg / 2 ^ 24 == e.mseg.toNat) }
  tablesChanged (modParcel x p (fun q =>
    let rest := q.map.filter (fun f => f.pseg != e.pseg)
    { q with map := if remove then rest else rest ++ [e] }))

/-- RETIRED of every map entry follows the retired-page table (15 R443). -/
def copyRetired (x : UnitState) : UnitState :=
  { x with mem := { x.mem with
    parcels := tabMap parcelDef (fun _ q => q.map (fun q => { q with
      map := q.map.map (fun e =>
        if e.fieldbook || e.device then e else { e with retired := x.mem.retired.any (fun pg => pg / 2 ^ 24 == e.mseg.toNat) }) })) x.mem.parcels } }

/-- `PARCEL.RETIRE` (15 R443). -/
def cfgRetire (x : UnitState) (remove : Bool) (page : Nat) : UnitState :=
  let l := x.mem.retired.filter (fun p => p != page)
  tablesChanged (copyRetired { x with mem := { x.mem with retired := if remove then l else l ++ [page] } })

/-- The register state of a core that starts in a parcel (15 R436): reset values, supervisor state, the entry address. -/
def startCore (p : Nat) (entry : CodeAddr) : Core := { parcel := BitVec.ofNat 6 p, pc := entry, entry := entry }

/-- `PARCEL.CORES` (15 R436): each named core is reset and starts in its new parcel. -/
def cfgCores (s : State) (u : UnitId) (p : Nat) (cores : BitVec 48) (entry : CodeAddr) : State :=
  (bitList cores 48).foldl (fun s l =>
    if (unitCore (getUnit s u) l).offline then s else resetCore s u l (startCore p entry)) s

/-- `CIPHER.PAGE` (14 R412): a revocation clears the page's hidden key and context. -/
def cfgCipherPage (x : UnitState) (p : Nat) (o : Option (BitVec 6 × BitVec 16)) : UnitState :=
  modPage x p (fun g => if o.isSome then { g with owner := o } else { g with owner := none, key := none, ctx := none })

/-- `CIPHER.CHANNEL` (14 R429). -/
def cfgCipherChannel (x : UnitState) (e : Fin 2) (c : Nat) (o : Option (BitVec 6 × BitVec 16)) : UnitState :=
  modCmpChan x e c (fun g => if o.isSome then { g with owner := o } else { g with owner := none, needFirst := true })

/-- MBX_BIND at its STAMP (16 R465): the unit's copy, and with the active unit the authoritative binding. -/
def cfgBind (s : State) (u : UnitId) (n : Fin 64) (w : Word) : State :=
  let s := modUnit s u (fun x => { x with binds := tabSet (fun _ => (0 : Word)) x.binds n.val w })
  if u = foreUnit s then setMbx s n { mbxOf s n with bind := w } else s

/-- A traverse-engine cluster is reset (17 R494): its stations become CLOSED with their marks kept, their slots are free. -/
def resetCluster (x : UnitState) (k : Nat) : UnitState :=
  let x := { x with trv := { x.trv with
    stations := tabMap (fun _ => ({} : Station)) (fun n t => if n / 65536 = k then {} else t) x.trv.stations
    slots := x.trv.slots.filter (fun e => match e.2 with | some v => decide (v.station / 65536 ≠ k) | none => false) } }
  let x := { x with exe := { x.exe with
    engines := tabDrop (fun e => decide (e / 16 = k)) x.exe.engines } }
  killAgent x (56 + k)

/-- The cipher group is reset (17 R494): BUSY pages complete with POISON, contexts, hidden keys and TVT keys are cleared. -/
def resetCipher (x : UnitState) : UnitState :=
  let x := (x.cph.pages.map (fun e => e.1)).foldl (fun x p =>
    let g := pageOf x p
    let x := if g.busy then cphFail x p (cphCmd g.cmd) 0x0A else x
    modPage x p (fun g => { g with key := none, ctx := none, waitKey := false, keyDone := false })) x
  killAgent { x with cph := { x.cph with keyQ := [], tvtKeys := [] } } 72

/-- The compression group is reset (17 R494): running jobs complete with POISON, their streams need FIRST = 1. -/
def resetCompression (x : UnitState) : UnitState :=
  let one := fun (x : UnitState) (e : Fin 2) => modCmp x e (fun g => { g with
    job := g.job.map (fun j => { j with w6 := BitVec.ofNat 64 (1 + 2 ^ 8 * 0x0A) })
    chans := tabMap (fun _ => ({} : CmpChan)) (fun _ c => { c with needFirst := true }) g.chans })
  killAgent (one (one x 0) 1) 73

/-- BLOCK_RESET at its STAMP (17 R494). -/
def doBlockReset (x : UnitState) (kind : BitVec 2) (k : Fin 16) : UnitState :=
  if kind = 0 then resetCluster x k.val else if kind = 1 then resetCipher x else resetCompression x

/-- The held acknowledgements of a station emitted in SEQ order (05 R146). -/
def emitHeld (u : UnitId) (n : Nat) : List Nat → State → State
  | [], s => s
  | v :: r, s => emitHeld u n r ((sendAck s u n v).getD s)

/-- At the UCC at which STATE becomes LEVELLED the held acknowledgements go out in station order (05 R146). -/
def flushAcks (s : State) (u : UnitId) : State :=
  (liveStns (getUnit s u)).foldl (fun s n =>
    let l := (stnS s u n).heldAcks
    emitHeld u n l (modS s u n (fun t => { t with heldAcks := [] }))) s

/-- LVL_STATUS.STATE and ROLE recorded (03 R93). -/
def setLevel (x : UnitState) (st : BitVec 3) (role : BitVec 2) : UnitState :=
  { x with lvl := { x.lvl with status := withBits (withBits x.lvl.status 0 3 st.toNat) 3 2 role.toNat } }

/-- A levelled state recorded by the hub: STATE becoming LEVELLED frees the held acknowledgements (05 R146) and begins the next
EPOCH (R151). A unit whose twin has been dropped meanwhile stays simplex. -/
def cfgLevel (s : State) (u : UnitId) (st : BitVec 3) (role : BitVec 2) : State :=
  if st = 1 ∧ (getUnit s u.other).dropped then s else
  let was := lvlState (getUnit s u)
  let s := modUnit s u (fun x => setLevel x st role)
  let s := if st = 1 ∧ isFore s u ∧ relevelPhase s = 7 then { s with hub := { s.hub with relevel := none } } else s
  if st = 1 ∧ (was = 2 ∨ was = 3) then flushAcks (modUnit s u (fun x => epochPut x 1)) u else s

/-- Four paths of a group written (06 R204): the lower half also sets POLICY. -/
def cfgGroup (x : UnitState) (g : Nat) (spread half : Bool) (ps : List PathEntry) : UnitState :=
  modGroup x g (fun q => { q with
    spread := spread
    paths := tabSetList pathDef q.paths (if half then 4 else 0) (ps.take 4) })

/-- A parcel's vector routed, or its route removed (10 R304). -/
def cfgVector (x : UnitState) (p v : Nat) (core : Option CoreId) : UnitState :=
  modParcel x p (fun q => { q with vectors := tabSet (fun _ => (none : Option Nat)) q.vectors v (core.map (fun l => l.val)) })

/-- What a CTL CFG stake applies in a unit at its STAMP (03 R66, 04 R128). -/
def applyCfg (s : State) (u : UnitId) (e : CfgEffect) : State :=
  let mod := modUnit s u
  match e with
  | .diverge v => mod (fun x => { x with lvl := { x.lvl with cfg := withBits x.lvl.cfg 8 2 v.toNat } })
  | .lagPend v => mod (fun x => { x with lvl := { x.lvl with cfg := withBits x.lvl.cfg 16 7 v.toNat } })
  | .cloCfg .. | .injOk _ | .cloCount .. | .relevelPhase .. => mod (fun x => applyHubCfg x e)
  | .cloStatus .. => cutBooks (leaveDeadPaths (mod (fun x => applyHubCfg x e)) u) u
  | .levelState st role => cfgLevel s u st role
  | .portsDown d => cutBooks (leaveDeadPaths (mod (fun x => unitPortsDown x d)) u) u
  | .portConfig p cfg mac raw => mod (fun x => cfgPort x p.val cfg mac raw)
  | .stationGrant f c p q => mod (fun x => cfgGrant x f c p q)
  | .book n op w0 w1 => mod (fun x => flushAllTlbs (cfgBook x n.toNat op.toNat w0 w1))
  | .bookResend n => resendBook s u n.toNat
  | .takeover m j ps => mod (fun x => doTakeover x m.toNat j.toNat ps)
  | .pathAddr i v6 a => mod (fun x => { x with trv := { x.trv with
      addrs := tabSet (fun _ => (none : Option (Bool × Quad))) x.trv.addrs i.toNat (some (v6, a)) } })
  | .pathGroup g sp hf ps => mod (fun x => cfgGroup x g.toNat sp hf ps)
  | .pathLink tp rto st => mod (fun x => { x with trv := { x.trv with
      tvtPort := tp, native := BitVec.ofNat 64 (rto.toNat + 2 ^ 16 * st.toNat) } })
  | .modId id => mod (fun x => { x with lvl := { x.lvl with modId := BitVec.ofNat 64 (id.toNat + 2 ^ 16) } })
  | .parcelCreate p sys ctx => mod (fun x => setParcel x p.toNat (some { sys := sys, ctxBase := ctx.toNat, map := [], vectors := [] }))
  | .parcelDestroy p => mod (fun x => setParcel x p.toNat none)
  | .parcelCores p cs entry => cfgCores s u p.toNat cs entry
  | .parcelMap p rm w => mod (fun x => cfgMap x p.toNat rm w)
  | .parcelSegment m acl code => mod (fun x => tablesChanged (setSeg x m { acl := acl, code := code }))
  | .parcelRetire rm pg => mod (fun x => cfgRetire x rm pg.toNat)
  | .parcelVector p v c => mod (fun x => cfgVector x p.toNat v.toNat c)
  | .cipherPage p o => mod (fun x => cfgCipherPage x p.val o)
  | .cipherChannel c k o => mod (fun x => cfgCipherChannel x c k.val o)
  | .cipherLock en p => mod (fun x => { x with cph := { x.cph with lockEn := en, lockPage := p.val } })
  | .mbxBind n w => cfgBind s u n w
  | .blockReset k n => mod (fun x => doBlockReset x k n)
  | .scrubCancel =>
    let s := mod endScrub
    scrubFinish { s with sahya := { s.sahya with scrubCancelled := s.sahya.scrubCancelled || (getUnit s u).mem.scrub.isSome } }
  | .unitWrite off w => mod (fun x => winWrite x off.toNat w)

end Sys2Proof.Machine
end

