-- ==== Sys2Proof/Machine/PowerOps.lean ====
section
/-! DEFINITION. Power domains: numbering, refusals, sequencers and what a domain's end does (18 R517 to R523). -/
namespace Sys2Proof.Machine

/-- A domain's sequencer. -/
def domOf (s : State) (d : Nat) : Dom := tabGet (fun _ => ({} : Dom)) s.pow.doms d

/-- A domain's sequencer replaced. -/
def setDom (s : State) (d : Nat) (x : Dom) : State :=
  { s with pow := { s.pow with doms := tabSet (fun _ => ({} : Dom)) s.pow.doms d x } }

/-- The number of domain `k` of a unit (18 R517). -/
def domNum (u : UnitId) (k : Nat) : Nat := 24 * u.toNat + k

/-- OFF of 18 R520. -/
def domOff : BitVec 3 := 0
/-- POWERING_ON. -/
def domPoweringOn : BitVec 3 := 1
/-- ON. -/
def domOn : BitVec 3 := 2
/-- POWERING_OFF. -/
def domPoweringOff : BitVec 3 := 3
/-- PENDING_ON. -/
def domPendingOn : BitVec 3 := 4
/-- PENDING_OFF. -/
def domPendingOff : BitVec 3 := 5

/-- The fabric cycles of a unit domain's sequence (18 R521). -/
def domCycles (k : Nat) (on : Bool) : Nat :=
  if k < 14 then (if on then 130000 else 52000)
  else if k = 14 then (if on then 520000 else 260000)
  else if k < 17 then (if on then 52000 else 26000)
  else if k < 21 then (if on then 130000 else 52000)
  else (if on then 130000 else 26000)

/-- The logical cores whose positions lie in core cluster `k`. -/
def clusterCores (x : UnitState) (k : Nat) : List Nat := (List.range 48).filter (fun l => corePos x l / 4 == k)

/-- The positions of core cluster `k` as a set. -/
def clusterMask (k : Nat) : BitVec 56 := BitVec.ofNat 56 (15 * 2 ^ (4 * k))

/-- A station served by traverse-engine group `g` is not CLOSED, and a test on it holds. -/
def anyStn (x : UnitState) (p : Nat → Station → Bool) : Bool :=
  x.trv.stations.any (fun e => decide (e.2.st ≠ .closed) && p e.1 e.2)

/-- The code with which the power-down of a unit domain is refused (18 R518, 09 R295, 14 R435); OK when it is not. -/
def powerRefused (x : UnitState) (k : Nat) : Nat :=
  if k < 14 then
    if (clusterCores x k).any (fun l => !(unitCore x l).sb.isEmpty) then 0x2F
    else match x.exe.spareRun with
      | some r => if corePos x r.core / 4 = k ∨ r.target / 4 = k then ccBusy else ccOk
      | none => ccOk
  else if k = 14 ∨ 21 ≤ k then ccBusy
  else if k = 15 then
    if x.cph.pages.any (fun e => e.2.busy) || anyStn x (fun _ t => decide (t.st = .opened) && stnTransport t == 0) then 0x30 else ccOk
  else if k = 16 then
    let busy := fun (e : Fin 2) => (x.cph.cmp.get e).job.isSome || (x.cph.cmp.get e).chans.any (fun c => c.2.busy || decide (c.2.prod ≠ c.2.cons))
    if busy 0 || busy 1 then ccBusy else ccOk
  else if anyStn x (fun n _ => n / 65536 / 4 == k - 17) then ccBusy else ccOk

/-- A logical core back in service, or out of it: LVL_STATUS.CORES follows (03 R88, 18 R519). -/
def setCores (x : UnitState) (n : Nat) : UnitState :=
  { x with lvl := { x.lvl with status := withBits x.lvl.status 8 6 n } }

/-- LVL_STATUS.CORES. -/
def coresOnline (x : UnitState) : Nat := bitsOf x.lvl.status 8 6

/-- The dirty lines of an agent's cache written back and its copies dropped; the agent stays in service (10 R316). -/
def agentFlush (x : UnitState) (a : Nat) : UnitState :=
  salvageAgent x a

/-- A core cluster goes down (18 R519): its cores are reset and offline, its spare positions leave the common spare set. -/
def clusterDown (s : State) (u : UnitId) (k : Nat) : State :=
  let s := (clusterCores (getUnit s u) k).foldl (fun s l =>
    let c := unitCore (getUnit s u) l
    if c.offline then s else
    let s := resetCore s u l { parcel := c.parcel, pc := c.entry, entry := c.entry, offline := true }
    modUnit s u (fun x => setCores (agentFlush x (corePos x l)) (coresOnline x - 1))) s
  modUnit s u (fun x => { x with exe := { x.exe with
    spareOff := x.exe.spareOff ||| (x.exe.spares &&& clusterMask k), spares := x.exe.spares &&& ~~~(clusterMask k) } })

/-- A core cluster comes up (18 R519): its cores start at their entry addresses. -/
def clusterUp (s : State) (u : UnitId) (k : Nat) : State :=
  let s := (clusterCores (getUnit s u) k).foldl (fun s l =>
    let c := unitCore (getUnit s u) l
    if !c.offline || c.deconf then s else
    modUnit s u (fun x => setCores (setUnitCore x l (startCore c.parcel.toNat c.entry)) (coresOnline x + 1))) s
  modUnit s u (fun x => { x with exe := { x.exe with
    spares := x.exe.spares ||| (x.exe.spareOff &&& clusterMask k), spareOff := x.exe.spareOff &&& ~~~(clusterMask k) } })

/-- The cipher domain goes down (18 R519): hidden keys and contexts are cleared. -/
def cipherDown (x : UnitState) : UnitState :=
  { x with cph := { x.cph with
    tvtKeys := [], keyQ := []
    pages := tabMap (fun _ => ({} : CphPage)) (fun _ g => { g with key := none, ctx := none, waitKey := false, keyDone := false }) x.cph.pages } }

/-- What the start of a unit domain's power-down does (18 R519). -/
def powerDownFx (s : State) (u : UnitId) (k : Nat) : State :=
  if k < 14 then clusterDown s u k
  else if k = 15 then modUnit s u cipherDown
  else s

/-- What the end of a unit domain's power-up does (18 R519): DRAM channels go to training. -/
def powerUpFx (s : State) (u : UnitId) (k : Nat) : State :=
  if k < 14 then clusterUp s u k
  else if k = 14 then s
  else if k = 15 then modUnit s u resetCipher
  else if k = 16 then modUnit s u resetCompression
  else if k < 21 then modUnit s u (fun x => (List.range 4).foldl (fun x i => resetCluster x (4 * (k - 17) + i)) x)
  else modUnit s u (fun x => (List.range 4).foldl (fun x i =>
    let c := Fin.ofNat 12 (4 * (k - 21) + i)
    setMcReg x c 0x018 (withBits (mcReg x c 0x018) 0 3 1)) x)

/-- A unit domain's sequence begins at a UCC. -/
def domStart (s : State) (u : UnitId) (k : Nat) (on staked : Bool) (at_ : Nat) : State :=
  let d := domNum u k
  let s := setDom s d { domOf s d with st := if on then domPoweringOn else domPoweringOff, staked := staked, due := at_ + 2 * domCycles k on }
  if on then s else powerDownFx s u k

/-- An enable or a disable at a unit domain's sequencer (18 R520). -/
def domRequest (s : State) (u : UnitId) (k : Nat) (on staked : Bool) (at_ : Nat) : State :=
  let d := domNum u k
  let x := domOf s d
  if on then
    if x.st = domOff then domStart s u k true staked at_
    else if x.st = domPoweringOff then setDom s d { x with st := domPendingOn }
    else if x.st = domPendingOff then setDom s d { x with st := domPoweringOn }
    else s
  else if x.st = domOn then domStart s u k false staked at_
  else if x.st = domPoweringOn then setDom s d { x with st := domPendingOff }
  else if x.st = domPendingOn then setDom s d { x with st := domPoweringOff }
  else s

/-- The reply that waits for a domain's STAMP (18 R518). -/
def powerReply (s : State) (k code : Nat) : State :=
  match s.sahya.powerTags.find? (fun e => e.1 == k) with
  | none => s
  | some (_, h) =>
    let s := { s with sahya := { s.sahya with powerTags := s.sahya.powerTags.filter (fun e => e.1 != k) } }
    postReply s h 0x0D 0x01 code 0 []

/-- CTL POWER at its STAMP in a unit (18 R518 to R521): the check, then the sequencer; the reply follows in the active unit. -/
def applyPower (s : State) (u : UnitId) (k : Nat) (on : Bool) : State :=
  let code := if on then ccOk else powerRefused (getUnit s u) k
  let s := if code = ccOk then domRequest s u k on true (getUnit s u).ucc else s
  if u = foreUnit s then powerReply s k code else s

/-- A sequence of a unit domain ends (18 R520, R521). -/
def domEnd (s : State) (u : UnitId) (k : Nat) (at_ : Nat) : State :=
  let d := domNum u k
  let x := domOf s d
  let s := setDom s d { x with changes := BitVec.ofNat 32 (saturate 32 (x.changes.toNat + 1)) }
  let x := domOf s d
  if x.st = domPoweringOn then powerUpFx (setDom s d { x with st := domOn }) u k
  else if x.st = domPoweringOff then setDom s d { x with st := domOff }
  else if x.st = domPendingOn then domStart (setDom s d { x with st := domOff }) u k true x.staked at_
  else if x.st = domPendingOff then
    domStart (powerUpFx (setDom s d { x with st := domOn }) u k) u k false x.staked at_
  else s

end Sys2Proof.Machine
end

