-- ==== Sys2Proof/Machine/StakeOps.lean ====
section
/-! DEFINITION. What a stake record does in a unit at its STAMP, in stake order (03 R60 to R71, 02 R36, R37, R43). -/
namespace Sys2Proof.Machine

/-- A frame meets the address and port tests of TVT (06 R177 step 1). -/
def frameTvt (x : UnitState) (f : EthFrame) : Bool :=
  f.isIp && decide (f.tags ≤ 1) && f.isUdp && f.udpPort == x.trv.tvtPort
    && x.trv.addrs.any (fun e => match e.2 with | some (v6, a) => v6 == f.ipv6 && a == f.dstIp | none => false)

/-- The counters of a port in a unit changed. -/
def modUPort (x : UnitState) (p : Nat) (f : UnitPort → UnitPort) : UnitState :=
  let d : Nat → UnitPort := fun _ => {}
  { x with trv := { x.trv with ports := tabSet d x.trv.ports p (f (tabGet d x.trv.ports p)) } }

/-- The raw station of a port, where it has one (06 R181). -/
def rawStn (x : UnitState) (p : Nat) : Option Nat :=
  let r := (uPort x p).raw
  if r = 0xFFFFF ∨ stnTransport (stnOf x r.toNat) ≠ 2 ∨ (stnOf x r.toNat).st = .closed then none else some r.toNat

/-- A frame at the unit (06 R177, R178): one with a failed FCS is counted and discarded; TVT datagrams act by their segment
rows; the rest goes to the port's raw station with its program's verdict. -/
def applyFrame (s : State) (u : UnitId) (p : Nat) (f : EthFrame) (v : ProgVerdict) : State :=
  let s := modUnit s u (fun x => modUPort x p (fun q => { q with
    frames := q.frames + 1, fcs := if f.fcsOk then q.fcs else q.fcs + 1 }))
  let x := getUnit s u
  let s := match rawStn x p with
    | some n => modS s u n (fun t => { t with rawFrames := t.rawFrames + 1, rawFcs := if f.fcsOk then t.rawFcs else t.rawFcs + 1 })
    | none => s
  let drop := fun (s : State) => modUnit s u (fun x => modUPort x p (fun q => { q with unclass := q.unclass + 1 }))
  if !f.fcsOk then s
  else if frameTvt x f then (if f.ipOk && f.udpOk then s else drop s)
  else match rawStn x p with
    | some n => (inboundMsg s u n { seq := 0, payload := f.bytes, verdict := v }).getD s
    | none => drop s

/-- An INPUT record applied (03 R65, 06 R176, R177, R201). -/
def applyInput (s : State) (u : UnitId) (p : PortId) (b : InputBody) (v : ProgVerdict) : State :=
  match b with
  | .frame f => applyFrame s u p.val f v
  | .flit _ => modUnit s u (fun x => modUPort x p.val (fun q => { q with frames := q.frames + 1 }))
  | .portEvent up => portEvent s u p.val up

/-- A HOST record applied: the side's view, and its vector (16 R463). -/
def applyHost (s : State) (u : UnitId) (n : Fin 64) (sd : Side) (notice : Bool) (ws : List Word) : State :=
  let s := modUnit s u (fun x => applyHostView x n sd notice ws)
  let b := unitBind (getUnit s u) n
  match midParcel (bindMid b sd) with
  | some p => raiseVector s u p (bindVec b sd)
  | none => s

/-- An ENTROPY record applied: four words into the pool of 64 (03 R70). -/
def applyEntropy (x : UnitState) (ws : List Word) : UnitState :=
  { x with lvl := { x.lvl with pool := (x.lvl.pool ++ ws).take 64 } }

/-- A TIMER record applied (03 R71). -/
def applyTimer (s : State) (u : UnitId) (stamp : Nat) (alarm : Bool) (tod : Word) : State :=
  if alarm then
    let (p, v) := Config.alarmTarget tod
    raiseVector s u p.toNat v.toNat
  else modUnit s u (fun x => { x with lvl := { x.lvl with tod := tod, todUcc := BitVec.ofNat 64 stamp } })

/-- CHN_STATUS.PRESS of a unit from the pressures in force (02 R49). -/
def showPress (x : UnitState) : UnitState :=
  { x with chn := { x.chn with status := withBits x.chn.status 8 4 (x.chn.pressBudget ||| x.chn.pressSpace).toNat } }

/-- A PRESSURE record applied (02 R36, R37, R49): the pressure of its kind, and one more chain counted. -/
def applyPressure (s : State) (u : UnitId) (d : DieId) (on space : Bool) : State :=
  let b : BitVec 4 := BitVec.ofNat 4 (2 ^ d.val)
  let put := fun (v : BitVec 4) => if on then v ||| b else v &&& ~~~b
  let s := modUnit s u (fun x =>
    let c := x.chn
    let first := on && c.pressSeen &&& b == 0
    let c := if space then { c with pressSpace := put c.pressSpace } else { c with pressBudget := put c.pressBudget }
    let c := if first then { c with pressSeen := c.pressSeen ||| b, pressCnt := c.pressCnt.set d.val (c.pressCnt.get d + 1) d.isLt } else c
    showPress { x with chn := c })
  if on then s else flushHeld s u

/-- A retry performed by a logical core (10 R311 to R314, 03 R74): the core resumes 128 cycles on, RETRYCNT counts, kind 5
invalidates the entry that the index names. -/
def doRetry (x : UnitState) (l ucc : Nat) (kind : BitVec 8) (index : BitVec 24) : UnitState :=
  modUnitCore x l (fun c => { c with
    resumeAt := ucc + 128, retryCnt := c.retryCnt + 1, retrying := some (kind, c.pc)
    tlb := if kind = 5 then c.tlb.eraseIdx index.toNat else c.tlb })

/-- A sparing sequence begins (10 R316, UCC 0 of its table): the core stops, its transaction aborts with HALT, its
reservation is cleared, its retired stores are performed. -/
def applySpare (s : State) (u : UnitId) (l p stamp : Nat) : State :=
  let s := haltCore s u l
  modUnit s u (fun x =>
    let x := killAgent (modUnitCore x l (fun c => { c with sparing := true })) (corePos x l)
    { x with exe := { x.exe with spareRun := some { core := l, target := p, start := stamp } } })

/-- CTL DECONFIG (03 R88): the core stops for good, its state is kept in service SRAM, the event reports it (16 R549). -/
def applyDeconfig (s : State) (u : UnitId) (l : Nat) : State :=
  let c := unitCore (getUnit s u) l
  if c.deconf then s else
  let s := haltCore s u l
  let c := unitCore (getUnit s u) l
  let s := modUnit s u (fun x =>
    let x := killAgent (modUnitCore x l (fun c => { c with offline := true, deconf := true })) (corePos x l)
    if c.offline then x else setCores x (coresOnline x - 1))
  if u = foreUnit s then
    let x := getUnit s u
    let s := { s with sahya := { s.sahya with coreKept := tabSet coreDef s.sahya.coreKept l c } }
    postEvent s 0x01 0x84 [BitVec.ofNat 64 (l + 2 ^ 8 * corePos x l), BitVec.ofNat 64 x.cn]
  else s

/-- CTL DROP applied by the unit that remains (03 R66, R90, 04 R112, R114, R128, 05 R151). -/
def applyDrop (s : State) (u dropped : UnitId) (cause : Nat) : State :=
  if u = dropped then s else
  let was := lvlState (getUnit s u)
  let role := lvlRole (getUnit s u)
  let wasFore := match dropped with | .u0 => role == 0 || role == 2 | .u1 => role == 1 || role == 3
  let promoted := was == 1 && wasFore
  modUnit s u (fun x =>
    let st := withBits (withBits x.lvl.status 0 3 2) 3 2 (match u with | .u0 => 2 | .u1 => 3)
    let st := withBits st 16 16 (saturate 16 (bitsOf st 16 16 + 1))
    let st := if cause = 8 then withBit st 5 true else st
    let clo := { x.clo with
      drop := dropWord dropped wasFore cause x.cn &&& ~~~(BitVec.ofNat 64 0x400) ||| BitVec.ofNat 64 (2 ^ 10 * bit promoted)
      status := if promoted then withBit x.clo.status 17 true else x.clo.status
      count := if cause = 1 ∨ cause = 0x0A then bumpField x.clo.count 32 16 else x.clo.count }
    epochPut { x with lvl := { x.lvl with status := st }, clo := clo } 2)

/-- CTL MCODE (10 R325): the patch replaced as a whole, its match entries enabled (R324), every position stalled for
4,096 cycles. -/
def applyMcode (s : State) (u : UnitId) (stamp : Nat) (img : PatchImage) : State :=
  let ram : Tab (BitVec 160) := tabSetList (fun _ => (0 : BitVec 160)) [] 0 img.words
  let regs : Tab Word := tabSetList (fun _ => (0 : Word)) [] 0 (img.entries.map (fun w => w &&& 0x3FFFFFF#64 ||| 0x80000000#64))
  let s := modUnit s u (fun x => { x with exe := { x.exe with
    ucode := { ram := ram, patchId := img.patchId, regs := regs, stallEnd := some (stamp + 4096) } } })
  if u = foreUnit s then { s with sahya := { s.sahya with mcodePend := false } } else s

/-- CTL CODE (16 R481, 09 R276): the page written line by line; translations that fetched it are gone. -/
def applyCode (x : UnitState) (frame : Nat) (ws : List Word) : UnitState :=
  let bs := wordsBytes ws
  let x := (List.range 256).foldl (fun x k => performWrl x 79 (frame / 64 + k) ((bs.drop (64 * k)).take 64)) x
  { x with exe := { x.exe with
    cores := tabMap coreDef (fun _ c => { c with codeTlb := [] }) x.exe.cores
    engines := tabMap engineDef (fun _ c => { c with codeTlb := [] }) x.exe.engines } }

/-- CTL SCRUB (13 R394): the run starts. -/
def applyScrub (x : UnitState) (base len : Nat) : UnitState :=
  { x with mem := { x.mem with scrub := some { base := base, len := len, start := x.ucc } } }

/-- LVL_STATUS.DEBUG follows the halted cores (03 R93). -/
def showDebug (x : UnitState) : UnitState :=
  { x with lvl := { x.lvl with status := withBit x.lvl.status 6 ((List.range 48).any (fun l => (unitCore x l).debugHalt)) } }

/-- CTL DEBUG (03 R90, R92): named cores of the active unit halt, or resume. -/
def applyDebug (s : State) (u : UnitId) (resume : Bool) (cores : BitVec 48) : State :=
  let s := (bitList cores 48).foldl (fun s l =>
    let s := if resume then s else haltCore s u l
    modUnit s u (fun x => modUnitCore x l (fun c => { c with debugHalt := !resume }))) s
  modUnit s u showDebug

/-- CTL SYNC (02 R43, R45, R66). -/
def applySync (x : UnitState) (lock : Bool) : UnitState :=
  { x with chn := { x.chn with
    status := if lock then withBit x.chn.status 2 true else withBit (withBit x.chn.status 3 true) 2 false } }

/-- CTL MCHK (10 R308): MC_STAKED on each named core that is online and not stopped. -/
def applyMchk (s : State) (u : UnitId) (cores : BitVec 48) (source : BitVec 12) : State :=
  (bitList cores 48).foldl (fun s l =>
    let c := unitCore (getUnit s u) l
    if c.offline || c.vectorStop then s else takeCause s u l 0x20 0 c.pc c.pc (source.setWidth 64)) s

/-- A record applied in a unit at its STAMP (03 R61, R65, R66). -/
def applyBody (s : State) (u : UnitId) (source : Fin 5) (stamp : Nat) (b : StakeBody) (v : ProgVerdict) : State :=
  match b with
  | .input p i => applyInput s u p i v
  | .entropy ws => modUnit s u (fun x => applyEntropy x ws)
  | .host n sd notice ws => applyHost s u n sd notice ws
  | .timer alarm tod => applyTimer s u stamp alarm tod
  | .echo l kind index => modUnit s u (fun x => doRetry x l.val stamp kind index)
  | .pressure on space => applyPressure s u ⟨source.val - 1, by have := source.isLt; omega⟩ on space
  | .rws r w => modUnit s u (fun x => match r with
    | .chnCfg => chnCfgPend x w
    | .mcSched c => mcPend x c 0x060 w
    | .mcQos c p => mcPend x c (0x080 + 8 * p.val) w
    | .mcRef c => mcPend x c 0x0C0 w
    | .mcMaint c => mcPend x c 0x0C8 w
    | .mcPwrmode c => mcPend x c 0x0D0 w
    | .mcFchg c => mcPend x c 0x0D8 w
    | .mcBankRetire c i => mcPend x c (0x200 + 8 * i.val) w)
  | .cfg e => applyCfg s u e
  | .spare l p => applySpare s u l.val p.val stamp
  | .deconfig l => applyDeconfig s u l.val
  | .drop d cause => applyDrop s u d cause.toNat
  | .throttle level => modUnit s u (fun x => { x with exe := { x.exe with throttle := level } })
  | .power k on => applyPower s u k.val on
  | .mcode img => applyMcode s u stamp img
  | .code frame ws => modUnit s u (fun x => applyCode x frame.toNat ws)
  | .scrub base len => modUnit s u (fun x => applyScrub x base len)
  | .bench cn => modUnit s u (fun x => { x with lvl := { x.lvl with bench := BitVec.ofNat 64 cn } })
  | .debug resume cores => applyDebug s u resume cores
  | .sync lock => modUnit s u (fun x => applySync x lock)
  | .mchk cores src => applyMchk s u cores src
  | .blockReset k n => modUnit s u (fun x => doBlockReset x k n)

/-- One record stands before another in stake order (03 R61). At one UCC an ECHO stands before a CTL record (R84). -/
def stakeBefore (a b : Stake) : Bool :=
  let rank := fun (k : Stake) => match k.body with | .echo .. => 0 | _ => 1
  if a.stamp ≠ b.stamp then decide (a.stamp < b.stamp)
  else if a.source ≠ b.source then decide (a.source < b.source)
  else if rank a ≠ rank b then decide (rank a < rank b)
  else decide (a.seq < b.seq)

/-- The first record of a list in stake order. -/
def firstStake : List Stake → Option Stake
  | [] => none
  | k :: r =>
    match firstStake r with
    | none => some k
    | some m => if stakeBefore m k then some m else some k

/-- A record leaves a unit's input queue; one that the Backsight takes, or the unit promoted from it (04 R111), leaves the stake line,
and held records of the service die may follow (03 R67). -/
def unfeed (s : State) (u : UnitId) (k : Stake) : State :=
  let gone := fun (l : List Stake) => l.filter (fun m => !(decide (m.source = k.source) && m.seq == k.seq))
  let s := modUnit s u (fun x => { x with feed := gone x.feed })
  if (backUnit s).getD u ≠ u then s
  else if h : k.source.val = 0 then
    let s := { s with sahya := { s.sahya with line := gone s.sahya.line } }
    drainHeldIn s.sahya.heldIn.length s
  else modDie s ⟨k.source.val - 1, by have := k.source.isLt; omega⟩ (fun d => { d with line := gone d.line })

/-- The SEQ that an issuer gives next. -/
def issuerSeq (s : State) (source : Fin 5) : Nat :=
  if source.val = 0 then s.sahya.seq else (dieOf s ⟨source.val - 1, by have := source.isLt; omega⟩).seq

/-- The issuer can stake (17 R495, 16 R456, 06 R207). -/
def issuerUp (s : State) (source : Fin 5) : Bool :=
  !s.bench.checkstop && (if source.val = 0 then !s.sahya.lockStop
    else !(dieOf s ⟨source.val - 1, by have := source.isLt; omega⟩).stopped)

/-- A record that a row brings, issued at the STAMP it bears (log 20): the issuer's SEQ and stake line, and the units fed. -/
def issueAs (s : State) (k : Stake) : State :=
  if h : k.source.val = 0 then
    feedUnits { s with sahya := { s.sahya with
      seq := (k.seq + 1) % 2 ^ 32, lastStamp := k.stamp
      line := if (backUnit s).isSome then s.sahya.line ++ [k] else s.sahya.line } } k
  else
    feedUnits (modDie s ⟨k.source.val - 1, by have := k.source.isLt; omega⟩ (fun x => { x with
      seq := (k.seq + 1) % 2 ^ 32, lastStamp := k.stamp
      line := if (backUnit s).isSome then x.line ++ [k] else x.line })) k

/-- A delivered record taken by its unit (03 R61, R62): in stake order, within the chain in progress. The Foresight that is past
the STAMP records LATE_STAKE and applies it at once. -/
def takeStake (s : State) (u : UnitId) (k : Stake) (v : ProgVerdict) : State :=
  let x := getUnit s u
  if firstStake x.feed ≠ some k then s
  else if k.stamp < x.ucc then
    if isFore s u then applyBody (raiseUnitFree (unfeed s u k) u 0x200) u k.source k.stamp k.body v else dropUnit s u 0x06
  else if unitOpen s u k.stamp then
    let s := modUnit (unfeed s u k) u (fun x => { x with ucc := k.stamp })
    applyBody s u k.source k.stamp k.body v
  else s

/-- A stake row (03 R61 to R63): the record that waits under this SEQ, or the issuer's next one. A record whose SEQ leaves a
gap drops the Backsight; one already applied, or one that differs from what was issued, has no effect. -/
def stakeRow (s : State) (u : UnitId) (source : Fin 5) (h : StakeHdr) (b : StakeBody) (v : ProgVerdict) : State :=
  let x := getUnit s u
  let k : Stake := { source := source, stamp := h.stamp, seq := h.seq, bkOnly := match b with | .echo .. => true | _ => false, body := b }
  if isOff s ∨ x.dropped ∨ !x.executing then s
  else if k ∈ x.feed then takeStake s u k v
  else if x.feed.any (fun m => decide (m.source = source) && m.seq == h.seq) then s
  else if h.seq = issuerSeq s source then (if issuerUp s source then takeStake (issueAs s k) u k v else s)
  else if backUnit s = some u ∧ issuerSeq s source < h.seq then dropUnit s u 0x06
  else s

/-- The source of a die's records. -/
def dieSource (d : DieId) : Fin 5 := ⟨d.val + 1, by have := d.isLt; omega⟩

end Sys2Proof.Machine
end

