-- ==== Sys2Proof/Machine/ChainOps.lean ====
section
/-! DEFINITION. The chain generator's tick and the work of a boundary (02 R30 to R45, 03 R76, R77, 04 R119, 05 R153, 17 R490). -/
namespace Sys2Proof.Machine

/-- CHN_SYNC.MODE as the active unit holds it (02 R49): 1 LEADER, 2 FOLLOWER. -/
def syncMode (s : State) : Nat := bitsOf (foreState s).chn.sync 0 2

/-- A core's signature as it is sealed: the retired instruction count folded last; zero for an offline core (03 R76, R77). -/
def sealCore (x : UnitState) (l : Nat) : Quad :=
  if (unitCore x l).offline then 0
  else foldSig (tabGet sigDef x.exe.sig.core l) (BitVec.ofNat 128 (tabGet (fun _ => 0) x.exe.sig.retired l))

/-- `n` instances from `first` on folded into one slot (03 R77). -/
def groupSlot (t : Tab Quad) (first n : Nat) : Quad := foldItems 0 ((List.range n).map (fun k => tabGet sigDef t (first + k)))

/-- The benchmark record of the chain in progress (03 R77): 64 slots. -/
def sealRecord (x : UnitState) (u : UnitId) (isBack : Bool) : BenchRec :=
  let s0 : Quad := BitVec.ofNat 128 (x.cn + 2 ^ 64 * x.ub)
  let s1 : Quad := BitVec.ofNat 128 (u.toNat + 2 * bit isBack + 2 ^ 8)
  let body := (List.range 48).map (sealCore x) ++ (List.range 6).map (fun g => groupSlot x.exe.sig.home (4 * g) 4)
    ++ (List.range 3).map (fun g => groupSlot x.exe.sig.mc (4 * g) 4) ++ (List.range 4).map (fun g => groupSlot x.exe.sig.trav (4 * g) 4)
  s0 :: s1 :: body ++ [foldItems 0 (s0 :: body)]

/-- The signatures that a unit keeps of a sealed chain (03 R78). -/
def sealedSigs (x : UnitState) : Sigs :=
  { x.exe.sig with core := (List.range 48).foldl (fun t l => tabSet sigDef t l (sealCore x l)) [] }

/-- The signatures of the last two chains kept, those of the next start at zero (03 R76, R78). -/
def shiftSigs (x : UnitState) : UnitState :=
  { x with exe := { x.exe with sigPrev := x.exe.sigLast, sigLast := sealedSigs x, sig := {} } }

/-- Step 1 of 02 R33: the record of the chain that ends goes to the hub, which compares it while both units run. -/
def sealChain (s : State) (u : UnitId) : State :=
  let x := getUnit s u
  let r := sealRecord x u (decide (u ≠ foreUnit s))
  let s := modUnit s u shiftSigs
  if (backUnit s).isNone then s else
  match u with
  | .u0 => { s with hub := { s.hub with recs0 := s.hub.recs0 ++ [(x.cn, r)] } }
  | .u1 => { s with hub := { s.hub with recs1 := s.hub.recs1 ++ [(x.cn, r)] } }

/-- CHN_CFG's pending value applied (02 R38 to R40): a reserved PERIOD is discarded with CFG_ERR; while edges are late a PERIOD
is held. -/
def applyChnCfg (x : UnitState) : UnitState :=
  match x.chn.pend with
  | none => x
  | some w =>
    let cfg := withBits x.chn.cfg 16 16 (bitsOf w 16 16)
    let p := bitsOf w 0 3
    let late := bitOf x.clo.status 17
    let st := withBit x.chn.status 1 false
    if p = 7 then { x with chn := { x.chn with cfg := cfg, pend := none, status := withBit (withBit st 4 true) 1 x.chn.held.isSome } }
    else if late && (decide (p ≠ bitsOf x.chn.cfg 0 3) || x.chn.held.isSome) then
      { x with chn := { x.chn with cfg := cfg, pend := none, held := some (BitVec.ofNat 3 p), status := withBit st 1 true } }
    else { x with chn := { x.chn with
      cfg := withBits cfg 0 3 p, pend := none, status := st, held := none } }

/-- One pending RWS value of a controller applied (12 R379, R382): GO with FCHG = 1 starts a frequency change of the channel. -/
def applyMcRws (x : UnitState) (c : Fin 12) (o : Nat) (w : Word) : UnitState :=
  if o = 0x0D8 then
    if bitOf w 0 && bitOf (mcReg x c 0x0D0) 1 && bitsOf (mcReg x c 0x018) 0 3 == 2 then
      let st := mcReg x c 0x018
      let x := setMcReg x c 0x018 (withBit (withBits st 0 3 4) 3 (!bitOf st 3))
      modMc x c (fun m => { m with fchgHold := true, openRow := [] })
    else x
  else setMcReg x c o w

/-- Step 7 of 02 R33. -/
def applyRws (x : UnitState) : UnitState :=
  let x := applyChnCfg x
  (List.finRange 12).foldl (fun x c =>
    let l := (mcOf x c).pendRws
    let x := modMc x c (fun m => { m with pendRws := [] })
    l.foldl (fun x e => match e.2 with | some w => applyMcRws x c e.1 w | none => x) x) x

/-- The MC_DLY values written since the last retrain slot take effect in it, and no request command issues for RT_LEN fabric cycles
(12 R376). -/
def retrainSlot (x : UnitState) (c : Fin 12) : UnitState :=
  let rt := bitsOf (mcReg x c 0x0C8) 16 16
  if rt = 0 ∨ x.cn % rt ≠ 0 then x else
  let l := (mcOf x c).dlyPend
  let len := 2 * bitsOf (mcReg x c 0x0C8) 32 16
  let x := modMc x c (fun m => { m with dlyPend := [], slotEnd := x.ub + len })
  l.foldl (fun x e => match e.2 with | some w => setMcReg x c e.1 w | none => x) x

/-- Step 4 of 02 R33: the retrain slots of the boundary; refresh slots are rows of their own. -/
def openSlots (x : UnitState) : UnitState := (List.finRange 12).foldl retrainSlot x

/-- An IN record is reclaimable (05 R153). -/
def inReclaims (x : UnitState) (b off : Nat) : Bool :=
  let n := recStation x off
  let t := stnOf x n
  let outDone := match recLink x off with
    | none => true
    | some o => !offLive x b o || recState x o == 1
  let age := stnDupage t
  recState x off == 1 && outDone
    && (decide (recSeq x off + stnWindow t < inNextOf x n t) || (decide (age ≠ 0) && decide (bitsOf (recWord x off 6) 8 56 + age < x.cn)))

/-- A record at a book's tail is reclaimable (05 R153, R158). -/
def recReclaims (x : UnitState) (b off : Nat) : Bool :=
  match recKind x off with
  | 1 => inReclaims x b off
  | 2 => recState x off == 1 && (match recLink x off with | none => true | some i => !offLive x b i || inReclaims x b i)
  | 6 => true
  | _ => decide (3 ≤ recKind x off) && decide ((recWord x off 4).toNat < mconfBsn x b)

/-- The records at the tail of a book that are reclaimed together. -/
def reclaimRun (x : UnitState) (b : Nat) : List (Nat × Nat) → List (Nat × Nat)
  | [] => []
  | e :: r => if recReclaims x b e.2 then e :: reclaimRun x b r else []

/-- TAIL and TAIL_BSN of a book advanced (05 R153). -/
def advanceTail (x : UnitState) (b : Nat) : UnitState :=
  if bookKind x b ≠ 1 ∧ bookKind x b ≠ 2 then x else
  let run := reclaimRun x b (liveRecs x b)
  match run.getLast? with
  | none => x
  | some (bsn, off) =>
    let next := ringStep x b off (recSize (recLen x off))
    bookPut x 0 b (fun i w => if i = 3 then BitVec.ofNat 64 next else if i = 5 then BitVec.ofNat 64 (bsn + 1) else w)

/-- The tails of every book at a boundary. -/
def advanceTails (x : UnitState) : UnitState :=
  (List.range 256).foldl (fun x b => if bitsOf (bookWord x b 0) 0 2 = 0 then x else advanceTail x b) x

/-- The dirty maps of one kind at the boundary that opens chain `n` while levelled (04 R119); whether MAP_SWEEP is raised. -/
def switchMaps (a b : DirtyMap) (n : Nat) : DirtyMap × DirtyMap × Bool :=
  let isB := n / 65536 % 2 = 1
  let clear := fun (m : DirtyMap) => { m with pages := [], valid := false, sweeping := true }
  let ready := fun (m : DirtyMap) => if m.sweeping then m else { m with valid := true, base := n }
  if n % 65536 = 0 then (if isB then (a, clear b, false) else (clear a, b, false))
  else if n % 65536 = 32768 then (if isB then (a, ready b, b.sweeping) else (ready a, b, a.sweeping))
  else (a, b, false)

/-- The dirty maps of a unit at a boundary. -/
def mapEdge (s : State) (u : UnitId) : State :=
  if !isLevelled s then s else
  let x := getUnit s u
  let (a, b, e1) := switchMaps x.mem.mapA x.mem.mapB x.cn
  let (fa, fb, e2) := switchMaps x.mem.fbMapA x.mem.fbMapB x.cn
  let s := modUnit s u (fun x => { x with mem := { x.mem with mapA := a, mapB := b, fbMapA := fa, fbMapB := fb } })
  if e1 || e2 then raiseUnitFree s u 0x20D else s

/-- A closed window of a fault source (17 R490). -/
def closeWindow (cn : Nat) (x : Source) : Source :=
  if x.openW && decide (x.w ≠ 0) && decide (x.opened + x.w.toNat ≤ cn) then { x with openW := false, wcnt := 0 } else x

/-- A waiting `FAULT.CONFIG` applied to its sources (17 R503). -/
def applyFltConfig (s : State) (c : FltConfig) : State :=
  (List.range c.count).foldl (fun s k =>
    let n := c.first + k
    match srcInfo n with
    | none => s
    | some i => if i.fixed then s else
        setSrc s n { (srcOf s n i) with n := c.n, w := c.w, react := c.react, cores := c.cores, openW := false, wcnt := 0 }) s

/-- Step 5 of 02 R33: windows advance by one chain, and waiting configuration takes effect (17 R490, R503). -/
def collectorStep (s : State) (cn : Nat) : State :=
  let s := { s with coll := { s.coll with
    srcs := tabMap (fun _ => (none : Option Source)) (fun _ v => v.map (closeWindow cn)) s.coll.srcs } }
  s.coll.pend.foldl applyFltConfig { s with coll := { s.coll with pend := [] } }

/-- The staked commands due at a boundary, in stake order; INPUT records are taken by their own rows (02 R33 step 6). -/
def applyDue (u : UnitId) : Nat → State → State
  | 0, s => s
  | n + 1, s =>
    let x := getUnit s u
    let due := x.feed.filter (fun k => decide (k.stamp ≤ x.ub) && (match k.body with | .input .. => false | _ => true))
    match firstStake due with
    | none => s
    | some k => applyDue u n (applyBody (unfeed s u k) u k.source k.stamp k.body .discard)

/-- The die counts of a new chain of the Foresight (02 R35, R37). -/
def newDieChain (s : State) : State :=
  let one := fun (s : State) (d : DieId) => modDie s d (fun x => { x with bytes := 0, pressBudget := false })
  one (one (one (one s 0) 1) 2) 3

/-- The counters of a unit at its edge: UCC, UB, CN, the period of the new chain, and the end of budget back-pressure (02 R31,
R37, R39, R49). -/
def enterChain (s : State) (u : UnitId) : State :=
  let ub := nextUb s (getUnit s u)
  let s := modUnit s u (fun x =>
    let st := withBits x.chn.status 5 3 (bitsOf x.chn.cfg 0 3)
    showPress { x with ucc := ub, ub := ub, cn := x.cn + 1, chn := { x.chn with status := st, pressBudget := 0, pressSeen := 0 } })
  flushHeld s u

/-- The bench shadows of the levelled registers (17 R498). -/
def benchShadow (s : State) : State :=
  let x := foreState s
  { s with bench := { s.bench with
      shadowLvl := x.lvl.status, shadowClo := x.clo.status, shadowDrop := x.clo.drop, shadowChn := x.chn.status
      shadowRelevel := x.clo.relevel } }

/-- What the hub and the dies keep at a unit's edge: the UB of recent chains and the indications since (04 R107), and the Backsight's
edge, at which a die whose lanes are down opens a test slot (R105). -/
def hubEdge (s : State) (u : UnitId) : State :=
  let x := getUnit s u
  let s := if isFore s u then
      let ubs := ((x.cn, x.ub) :: s.hub.ubs).take 64
      let lo := match ubs.getLast? with | some e => e.2 | none => 0
      { s with hub := { s.hub with ubs := ubs, indic := s.hub.indic.filter (fun e => decide (lo ≤ e.2)) } } else s
  if backUnit s ≠ some u then s else
  let k := bitsOf (foreState s).clo.cfg 16 16
  let due := decide (k ≠ 0) && decide ((x.cn - 1) % (k * 1024) = 0)
  let one := fun (s : State) (d : DieId) => modDie s d (fun y => { y with
    slotOpen := y.lanesDown, rotDue := y.rotDue || (y.lanesDown && due) })
  one (one (one (one s 0) 1) 2) 3

/-- A unit reaches its boundary (02 R33): steps 1, 4, 6 and 7 at its own edge, the tails and maps of the boundary; the module's
steps at the Backsight's edge, or at the active unit's while simplex. -/
def unitEdgeStep (s : State) (u : UnitId) : State :=
  let s := sealChain s u
  let s := if isFore s u then newDieChain s else s
  let s := hubEdge (enterChain s u) u
  let s := modUnit s u openSlots
  let last : Bool := match backUnit s with | some b => decide (b = u) | none => true
  let s := if last && !isOff s && (backUnit s).isNone then simplexRelease s else s
  let s := if last then collectorStep s (getUnit s u).cn else s
  let s := applyDue u (getUnit s u).feed.length s
  let s := modUnit s u (fun x => advanceTails (applyRws x))
  let s := mapEdge s u
  if isFore s u then benchShadow { s with gen := { s.gen with nextPeriod := BitVec.ofNat 3 (bitsOf (getUnit s u).chn.cfg 0 3) } } else s

/-- A unit's edge of its next boundary falls: the tick has been given, the Foresight stands at least as far, no re-level freeze
holds the units, and no earlier record waits. -/
def edgeDue (s : State) (u : UnitId) : Bool :=
  let x := getUnit s u
  let lead := match backUnit s with
    | some b => if b = u then decide (x.cn < (foreState s).cn) else true
    | none => true
  x.executing && !x.dropped && !x.held && s.gen.run && !s.hub.frozen && decide (x.cn < s.gen.cn) && lead
    && x.feed.all (fun k => decide (nextUb s x ≤ k.stamp))

/-- A unit starts at the boundary of levelled start (03 R55, 05 R151): UCC and UB are 0, a held LAG takes effect, RWS values are
applied. -/
def startUnit (x : UnitState) (cn : Nat) (state role : Nat) (lstate : Nat) : UnitState :=
  let cfg := x.lvl.cfg
  let pend := bitsOf cfg 16 7
  let cfg := if pend = 0 then cfg else withBits (withBits cfg 0 7 pend) 16 7 0
  let x := { x with
    executing := true, dropped := false, ucc := 0, ub := 0, cn := cn
    chn := { x.chn with status := withBits x.chn.status 5 3 (bitsOf x.chn.cfg 0 3) }
    lvl := { x.lvl with start := BitVec.ofNat 64 cn, cfg := cfg, status := withBits (withBits x.lvl.status 0 3 state) 3 2 role } }
  applyRws (epochPut x lstate)

/-- The accepted `LEVEL.START` takes effect at a boundary (03 R55): the units that MODE names start. -/
def levelAt (s : State) (mode : BitVec 2) : State :=
  let cn := s.gen.cn
  let s := { s with sahya := { s.sahya with startMode := none } }
  let s := { s with hub := { s.hub with released := none, indic := [], matched := [], recs0 := [], recs1 := [] } }
  match mode.toNat with
  | 0 => modBoth s (fun x => startUnit x cn 1 0 1)
  | 1 => modBoth s (fun x => startUnit x cn 1 1 1)
  | 2 => modUnit (modUnit s .u0 (fun x => startUnit x cn 2 2 2)) .u1 (fun x => { x with dropped := true })
  | _ => modUnit (modUnit s .u1 (fun x => startUnit x cn 2 3 2)) .u0 (fun x => { x with dropped := true })

/-- A boundary of the chain at the generator (02 R30, 03 R70): CN, the period, the entropy due, an accepted start. -/
def tickNow (s : State) : State :=
  let g := s.gen
  let s := { s with
    gen := { g with cn := g.cn + 1, period := g.nextPeriod, pulseOut := false, pulseSeen := false }
    sahya := { s.sahya with entDue := decide (s.sahya.pool ≤ 48) } }
  match s.sahya.startMode with
  | some m => levelAt s m
  | none => s

/-- CHN_STATUS.RUN and SYNC_LOCK as the chain starts (02 R44, R49). -/
def showRun (x : UnitState) (lock : Bool) : UnitState :=
  { x with chn := { x.chn with status := withBit (withBit x.chn.status 0 true) 2 lock } }

/-- The first boundary of an accepted `CHAIN.START` (02 R44). -/
def chainBegin (s : State) (n : Nat) : State :=
  let s := { s with gen := { s.gen with run := true, cn := n, starting := none, pulseSeen := false, badPulses := 0 } }
  let p := BitVec.ofNat 3 (bitsOf (foreState s).chn.cfg 0 3)
  let s := { s with gen := { s.gen with period := p, nextPeriod := p } }
  modBoth s (fun x => showRun x (decide (syncMode s = 2)))

end Sys2Proof.Machine
end

