-- ==== Sys2Proof/Machine/RelevelOps.lean ====
section
/-! DEFINITION. Resets of a unit and its cores, the re-level, its freeze and its end, debug requests (04 R117 to R126, R547, R550, 03 R90, R91,
18 R513 to R515). -/
namespace Sys2Proof.Machine

/-- What a unit reset leaves of a controller's registers (12 R382, 13 R390, R391, 04 R112): EN and ECC_TEST at 0, the counts zeroed, an enabled
channel in self-refresh. -/
def mcUnitReset (c : Fin 12) (m : McState) : McState :=
  let d := mcReset c.val
  let st := tabGet d m.regs 0x018
  let run := decide (bitsOf st 0 3 = 2 ∨ bitsOf st 0 3 = 3 ∨ bitsOf st 0 3 = 4)
  let r := tabSet d m.regs 0x000 (withBit (tabGet d m.regs 0x000) 0 false)
  let r := tabSet d (tabSet d r 0x800 0) 0x828 0
  { regs := tabSet d r 0x018 (withBits (withBit st 16 false) 0 3 (if run then 3 else 0)) }

/-- What a unit reset keeps of a unit (18 R515; the L3 and directory are being invalidated, 11 R353): powered, its MC_ and DRAM contents, its fieldbook stack, its dirty maps, its place
in the module. -/
def keepMem (x : UnitState) (clear : Bool) : MemState :=
  { dram := if clear then [] else x.mem.dram
    dmark := if clear then [] else x.mem.dmark
    dchk := if clear then [] else x.mem.dchk
    data := if clear then [] else x.mem.dram
    mark := if clear then [] else x.mem.dmark
    mc := Vector.ofFn (fun c => mcUnitReset c (x.mem.mc.get c))
    coh := { invBusy := true }
    mapA := x.mem.mapA, mapB := x.mem.mapB, fbMapA := x.mem.fbMapA, fbMapB := x.mem.fbMapB }

/-- A unit reset (18 R513 to R515): every levelled register at its reset value, caches and buffers discarded, patches and hidden
keys cleared; with CLEAR the DRAM is zeroed. Spare, void and failed positions are kept while the module runs (03 R86). -/
def unitResetTo (x : UnitState) (clear : Bool) : UnitState :=
  let y := fbSettle x
  { powered := x.powered, dropped := x.dropped, mem := keepMem x clear
    fb := { y.fb with mlost := 0, log := [], ce := 0, ue := 0, wretry := 0, wfail := 0, mirror := [] }
    binds := x.binds
    lvl := { status := withBits (withBit ((0x3000 : Word)) 5 (bitOf x.lvl.status 5)) 16 16 (bitsOf x.lvl.status 16 16), modId := x.lvl.modId }
    exe := { map := x.exe.map, spares := x.exe.spares, voids := x.exe.voids, failed := x.exe.failed } }

/-- CLO_DROP.MEM_INTACT cleared in the active unit by a reset of the dropped unit that clears its memory (04 R112, 18 R514). -/
def clearIntact (x : UnitState) : UnitState := { x with clo := { x.clo with drop := withBit x.clo.drop 11 false } }

/-- A unit that is not in service reset. -/
def resetUnit (s : State) (u : UnitId) (clear : Bool) : State :=
  let s := modUnit s u (fun x => unitResetTo x clear)
  if clear then modUnit s u.other clearIntact else s

/-- The bases that valid maps of both units share, newest last (04 R120): the base and whether it is map B's. -/
def sharedBase (a j : UnitState) : Option (Nat × Bool) :=
  let ok := fun (m n : DirtyMap) => m.valid && n.valid && m.base == n.base && decide (m.base ≤ a.lvl.bench.toNat)
  match ok a.mem.mapA j.mem.mapA, ok a.mem.mapB j.mem.mapB with
  | true, true => if a.mem.mapA.base < a.mem.mapB.base then some (a.mem.mapB.base, true) else some (a.mem.mapA.base, false)
  | true, false => some (a.mem.mapA.base, false)
  | false, true => some (a.mem.mapB.base, true)
  | false, false => none

/-- An incremental re-level is possible (04 R120). -/
def canIncrement (s : State) (join : UnitId) : Option (Nat × Bool) :=
  let a := getUnit s join.other
  if bitOf a.clo.drop 11 then sharedBase a (getUnit s join) else none

/-- The pages of two maps together. -/
def orPages (a b : Tab Bool) : Tab Bool := b.foldl (fun t e => tabSet (fun _ => false) t e.1 true) a

/-- Map A or B of a unit. -/
def mapSel (b : Bool) (x y : DirtyMap) : DirtyMap := if b then y else x

/-- The copy map formed in the active unit (04 R121 phase 2): the map without base b cleared, the maps of base b of both units put
into it. A full re-level starts from empty maps: `full` stands for all ones in its first pass. -/
def formCopyMap (a j : UnitState) (full useB : Bool) : UnitState :=
  let d := if full then [] else orPages (mapSel (!useB) a.mem.mapA a.mem.mapB).pages (mapSel (!useB) j.mem.mapA j.mem.mapB).pages
  let f := if full then [] else orPages (mapSel (!useB) a.mem.fbMapA a.mem.fbMapB).pages (mapSel (!useB) j.mem.fbMapA j.mem.fbMapB).pages
  let m : DirtyMap := { pages := d }
  let g : DirtyMap := { pages := f }
  if useB then { a with mem := { a.mem with mapB := m, fbMapB := g } } else { a with mem := { a.mem with mapA := m, fbMapA := g } }

/-- The pages set in the copy map: DRAM and fieldbook (04 R121, 16 R548). -/
def copyRes (s : State) (r : Relevel) : Nat × Nat :=
  let a := getUnit s r.join.other
  if r.full && r.passes == 0 then (installed a / 4096, 0x1E0000000 / 4096)
  else ((mapSel r.useB a.mem.mapA a.mem.mapB).pages.length, (mapSel r.useB a.mem.fbMapA a.mem.fbMapB).pages.length)

/-- The copy map's bits taken as a pass begins (04 R121 phase 3; log 21). -/
def clearCopyMap (a : UnitState) (useB : Bool) : UnitState :=
  if useB then { a with mem := { a.mem with mapB := { a.mem.mapB with pages := [] }, fbMapB := { a.mem.fbMapB with pages := [] } } }
  else { a with mem := { a.mem with mapA := { a.mem.mapA with pages := [] }, fbMapA := { a.mem.fbMapA with pages := [] } } }

/-- The entries of a table in chosen pages copied over another's. -/
def copyTab {V : Type} [DecidableEq V] (d : Nat → V) (per : Nat) (pg : Nat → Bool) (a j : Tab V) : Tab V :=
  (a.filter (fun e => pg (e.1 / per))).foldl (fun t e => tabSet d t e.1 e.2) (tabDrop (fun n => pg (n / per)) j)

/-- Chosen pages of DRAM and of the fieldbook copied over the level bridge (04 R121). -/
def copyPages (dp fp : Nat → Bool) (a j : UnitState) : UnitState :=
  let data := copyTab byteDef 4096 dp a.mem.data j.mem.data
  let mark := copyTab markDef 64 dp a.mem.mark j.mem.mark
  let fb := copyTab byteDef 4096 fp a.fb.view j.fb.view
  { j with
    mem := { j.mem with data := data, dram := data, mark := mark, dmark := mark, dchk := tabDrop (fun n => dp (n / 64)) j.mem.dchk }
    fb := { j.fb with view := fb, mem := fb } }

/-- A copy pass begins (04 R121 phase 3): the pages set in the copy map are copied as they stand and their bits cleared (log 21). -/
def passBegin (s : State) (r : Relevel) : State :=
  let a := getUnit s r.join.other
  let all := r.full && r.passes == 0
  let dp := fun (n : Nat) => all || tabGet (fun _ => false) (mapSel r.useB a.mem.mapA a.mem.mapB).pages n
  let fp := fun (n : Nat) => all || tabGet (fun _ => false) (mapSel r.useB a.mem.fbMapA a.mem.fbMapB).pages n
  let s := modUnit s r.join (fun j => copyPages dp fp a j)
  modUnit s r.join.other (fun a => clearCopyMap a r.useB)

/-- The code with which a `LEVEL.RELEVEL` is refused (04 R120, 03 R89); OK when it is accepted. Kinds: 0 incremental, 1 full,
2 automatic. -/
def relevelCode (s : State) (join : UnitId) (kind : Nat) : Nat :=
  let a := foreState s
  if isOff s then 0x26
  else if join = foreUnit s then ccBadArg
  else if s.hub.relevel.isSome then ccBusy
  else if lvlState a ≠ 2 then 0x26
  else if bitOf a.lvl.status 6 then 0x27
  else if s.hub.bridgeDown then 0x28
  else if kind = 0 ∧ (canIncrement s join).isNone then 0x29
  else if (List.range 48).any (fun l => (getUnit s join).exe.failed.getLsbD (corePos a l)) then 0x2A
  else ccOk

/-- The re-level that an accepted command starts (04 R120, R121): the copy map is the active unit's map that does not have base b. -/
def relevelOf (s : State) (join : UnitId) (kind rate maxres maxpass : Nat) (force auto : Bool) (chan : Option (Fin 64 × Side)) (v2 : Bool)
    (tag : Word) : Relevel :=
  let inc := if kind = 1 then none else canIncrement s join
  { join := join, kind := kind, full := inc.isNone, rate := rate, maxres := maxres, maxpass := maxpass, force := force
    auto := auto, chan := chan, v2 := v2, tag := tag, phase := 1, passes := 0, step := 0
    base := match inc with | some b => b.1 | none => 0
    useB := match inc with | some b => !b.2 | none => false
    freezeAt := none, nres := 0, f := 0, e := 0 }

/-- A joining controller takes the configuration of the active unit's: every register but MC_STATUS, the training values and the logs
(12 R383). -/
def copyMcConfig (c : Fin 12) (a m : McState) : McState :=
  let cfg := fun (n : Nat) => decide (n < 0x240 ∧ n ≠ 0x018)
  { m with regs := (a.regs.filter (fun e => cfg e.1)).foldl (fun t e => tabSet (mcReset c.val) t e.1 e.2) (tabDrop cfg m.regs) }

/-- The joining unit after phase 1 (04 R121): its channels configured and trained, the active unit's patches and enabled-core map. -/
def prepareJoin (a j : UnitState) : UnitState :=
  let j := { j with exe := { j.exe with map := a.exe.map, spares := a.exe.spares, voids := a.exe.voids, ucode := { a.exe.ucode with stallEnd := none } } }
  (List.finRange 12).foldl (fun j c =>
    let j := modMc j c (copyMcConfig c (mcOf a c))
    if bitOf (mcReg j c 0x000) 0 then setMcReg j c 0x018 (withBits (mcReg j c 0x018) 0 3 2) else j) j

/-- The phase of a re-level recorded in the hub and in CLO_RELEVEL (04 R121). -/
def relevelTo (s : State) (r : Relevel) (phase : Nat) : State :=
  hubCfg { s with hub := { s.hub with relevel := some { r with phase := phase } } }
    (.relevelPhase (BitVec.ofNat 3 phase) r.full (BitVec.ofNat 8 r.passes) )

/-- A re-level accepted (04 R120, R121): STATE becomes RELEVEL, the joining unit is reset, phase 1 begins. -/
def relevelStart (s : State) (r : Relevel) : State :=
  let s := resetUnit s r.join false
  let s := relevelTo s r 1
  hubCfg s (.levelState 3 (if r.join = .u1 then 2 else 3))

/-- A re-level ends in NO_CONVERGE (04 R120). -/
def noConverge (s : State) (r : Relevel) : State :=
  let (d, f) := copyRes s r
  let s := modUnit s r.join haltUnit
  let s := modUnit s r.join.other (fun x => { x with mem := { x.mem with coh := { x.mem.coh with wt := false } } })
  let s := { s with hub := { s.hub with relevel := none } }
  let s := hubCfg s (.relevelPhase 0 r.full (BitVec.ofNat 8 r.passes))
  let s := hubCfg s (.levelState 2 (if r.join = .u1 then 2 else 3))
  let s := raisePlain s 0x0F0 (foreState s).ucc (foreState s).clo.drop
  relevelEvent s r 0x81 [BitVec.ofNat 64 r.passes, BitVec.ofNat 64 d, BitVec.ofNat 64 f]

/-- T_copy of 04 R122 with `n` residue pages, in core cycles, rounded up. -/
def copyCycles (b : Bin) (n : Nat) : Nat := 500 * binCycles b + (n * 4096 * (2 * binCycles b) + 399999) / 400000

/-- The freeze begins at the active unit's edge of boundary f (04 R122, R123): the unit executes nothing, its store buffers are
drained, and boundary e follows from the residue. -/
def freezeBegin (s : State) (r : Relevel) : State :=
  let u := r.join.other
  let s := (List.range 48).foldl (fun s l => forceSb s u l) s
  let s := scrubStop (modUnit s u (fun x => { x with held := true })) true
  let x := getUnit s u
  let n := (copyRes s r).1
  let late := if s.hub.edgeLate then bitsOf x.lvl.cfg 0 7 * 1024 else 0
  let p := chainCycles s.bin (periodEff x)
  let k := (late + copyCycles s.bin n + p - 1) / p
  { s with hub := { s.hub with
      frozen := true
      relevel := some { r with phase := 5, step := 0, nres := n, freezeAt := none, f := x.cn, e := x.cn + k } } }

/-- The freeze begins when its boundary is reached. -/
def freezeEdge (s : State) (u : UnitId) : State :=
  match s.hub.relevel with
  | none => s
  | some r => if r.join.other = u ∧ r.freezeAt = some (getUnit s u).ub then freezeBegin s r else s

/-- Step 6 of 04 R122: caches, directory and translations start empty; the L3's dirty lines have been written back. -/
def emptyCaches (x : UnitState) : UnitState :=
  let x := flushAllTlbs x
  { x with mem := { x.mem with
      dram := x.mem.data, dmark := x.mem.mark
      dchk := tabDrop (fun n => tabGetList byteDef x.mem.data (64 * n) 64 != tabGetList byteDef x.mem.dram (64 * n) 64) x.mem.dchk
      coh := { x.mem.coh with dir := [], ag := [], ev := [], l3 := [], svc := [], msgs := [], parked := [], salv := [], wt := false, wtSweep := false } } }

/-- At the UCC at which a unit resumes every logical rank is refreshed and the refresh schedule starts again (12 R377). -/
def refreshRestart (x : UnitState) (ub : Nat) : UnitState :=
  { x with mem := { x.mem with mc := Vector.ofFn (fun c =>
      let m := x.mem.mc.get c
      let d := mcReset c.val
      { m with openRow := [], pd := 0, refBase := ub, regs := tabSet d m.regs 0x018 (withBit (tabGet d m.regs 0x018) 16 false) }) } }

/-- The records that a unit will be fed after a freeze, restamped (04 R547): a boundary command takes UB(e), an input a fresh
STAMP; no record of a source falls below an earlier one. -/
def restamp (e : Nat) : List (Fin 5 × Nat) → List Stake → List Stake
  | _, [] => []
  | last, k :: r =>
    let fresh := match k.body with
      | .input .. | .pressure .. => e + 512
      | .host .. | .timer .. | .entropy .. | .mchk .. | .bench .. => e + 1024
      | _ => e
    let low := (last.filter (fun l => l.1 = k.source)).foldl (fun a l => later a l.2) 0
    let st := later (if k.stamp < e then fresh else k.stamp) low
    { k with stamp := st } :: restamp e ((k.source, st) :: last) r

/-- The active unit resumes as Foresight at boundary `e` (04 R123, R550): a held PERIOD and LAG take effect, EDGE_LATE is cleared. -/
def resumeUnit (x : UnitState) (ub e : Nat) : UnitState :=
  let cfg := x.lvl.cfg
  let pend := bitsOf cfg 16 7
  let ch := match x.chn.held with
    | some p => { x.chn with cfg := withBits x.chn.cfg 0 3 p.toNat, held := none, status := withBit x.chn.status 1 x.chn.pend.isSome }
    | none => x.chn
  { x with
    held := false, ucc := ub, ub := ub, cn := e, feed := restamp ub [] x.feed
    chn := { ch with status := withBits ch.status 5 3 (bitsOf ch.cfg 0 3) }
    clo := { x.clo with status := withBit x.clo.status 17 false }
    lvl := { x.lvl with cfg := if pend = 0 then cfg else withBits (withBits cfg 0 7 pend) 16 7 0 } }

/-- The freeze ends: the hub's side (04 R123, R550). The generator's period follows a held PERIOD. -/
def resumeHub (s : State) (u : UnitId) : State :=
  let p := BitVec.ofNat 3 (bitsOf (getUnit s u).chn.cfg 0 3)
  { s with
    hub := { s.hub with frozen := false, resume := false, cutStep := 0, edgeLate := false }
    gen := { s.gen with period := p, nextPeriod := p } }

/-- What the joining unit takes from the active one at UB(e) (04 R121 to R123): everything levelled and both memories; its own
controllers' registers, logs and failed marks stay. -/
def joinUnit (a j : UnitState) : UnitState :=
  { a with
    powered := j.powered, dropped := false
    exe := { a.exe with failed := j.exe.failed, sigLast := {}, sigPrev := {} }
    fb := { a.fb with log := j.fb.log, ce := j.fb.ce, ue := j.fb.ue, wretry := j.fb.wretry, wfail := j.fb.wfail
                      sparesUsed := j.fb.sparesUsed, bad := j.fb.bad }
    mem := { a.mem with
      dchk := j.mem.dchk
      mc := Vector.ofFn (fun c =>
        { (a.mem.mc.get c) with regs := (j.mem.mc.get c).regs, log := (j.mem.mc.get c).log }) } }

/-- CLO_RELEVEL at boundary e: phase 6, RESIDUE and FREEZE (04 R128). -/
def relevelShown (x : UnitState) (r : Relevel) : UnitState :=
  { x with clo := { x.clo with
    relevel := withBits (withBits (withBits (withBits x.clo.relevel 0 3 6) 8 8 r.passes) 16 32 r.nres) 48 16 (saturate 16 (r.e - r.f)) } }

/-- No dirty map is valid from the freeze until the next switch (04 R121 phase 6). -/
def staleMaps (x : UnitState) : UnitState :=
  { x with mem := { x.mem with mapA := {}, mapB := {}, fbMapA := {}, fbMapB := {} } }

/-- The records of a feed that lie in the stake line of a source (04 R122 step 5). -/
def lineOf (l : List Stake) (src : Nat) : List Stake := l.filter (fun k => decide (k.source.val = src))

/-- The tick of boundary e: the active unit resumes as Foresight, the joining unit starts as Backsight (04 R123). -/
def freezeEnd (s : State) (r : Relevel) : State :=
  let u := r.join.other
  let x := getUnit s u
  let ub := x.ub + (r.e - r.f) * chainCycles s.bin (periodEff x)
  let a := relevelShown (staleMaps (refreshRestart (emptyCaches (resumeUnit x ub r.e)) ub)) r
  let a := { a with exe := { a.exe with sig := {} } }
  let s := setUnit s u a
  let s := setUnit s r.join (joinUnit a (getUnit s r.join))
  let s := resumeHub s u
  let s := { s with
    sahya := { s.sahya with line := lineOf a.feed 0 }
    hub := { s.hub with relevel := some { r with phase := 6 }, recs0 := [], recs1 := [], matched := [], decision := none, first := r.e } }
  let one := fun (s : State) (d : DieId) => modDie s d (fun y => { y with
    line := lineOf a.feed (d.val + 1), noCompareBefore := r.e, compared := none, held := [] })
  one (one (one (one s 0) 1) 2) 3

/-- Step 1 of 04 R122: the dirty lines of the cores' caches written back to DRAM. -/
def writeBackL1 (x : UnitState) : UnitState :=
  (x.mem.coh.ag.filter (fun e => decide (e.1 % 128 < 56 ∧ e.2 = .d))).foldl
    (fun y e => setAg (mcAcceptWrite y 1 (e.1 / 128)) (e.1 % 128) (e.1 / 128) .e) x

/-- A freeze that was cut short ends at a tick (04 R550): its steps up to the one in progress have been done. -/
def freezeCut (s : State) (u : UnitId) : State :=
  let x := getUnit s u
  let e := s.gen.cn
  let ub := x.ub + (e - x.cn) * chainCycles s.bin (periodEff x)
  let y := writeBackL1 x
  let y := if 6 ≤ s.hub.cutStep then emptyCaches y else y
  let s := setUnit s u (staleMaps (refreshRestart (resumeUnit y ub e) ub))
  resumeHub s u

/-- A core that a debug request names is in a sparing sequence (03 R87). -/
def sparingNamed (s : State) (cores : BitVec 48) : Bool :=
  match (foreState s).exe.spareRun with
  | some r => cores.getLsbD r.core
  | none => false

/-- A debug request for cores of the module (03 R87, R90 to R92, 04 R126): it drops the Backsight and then halts the cores; it ends a
re-level before its freeze, and waits out a freeze and a sparing sequence of a core that it names. -/
def debugRequest (s : State) (resume : Bool) (cores : BitVec 48) : State :=
  if isOff s then modBoth s (fun x =>
    let x := (bitList cores 48).foldl (fun x l => modUnitCore x l (fun c => { c with debugHalt := !resume })) x
    showDebug x)
  else if resume then issueFw s none (.debug true cores)
  else if relevelPhase s = 5 ∨ sparingNamed s cores then { s with hub := { s.hub with debugWait := some cores } }
  else
    let s := match s.hub.relevel, backUnit s with
      | some _, none => relevelAbort s 0x23
      | _, some b => dropUnit s b 0x08
      | none, none => s
    issueFw s none (.debug false cores)

/-- A debug request that waited for the freeze takes effect (04 R126, R550). -/
def debugPending (s : State) : State :=
  match s.hub.debugWait with
  | none => s
  | some cs => debugRequest { s with hub := { s.hub with debugWait := none } } false cs

end Sys2Proof.Machine
end

