-- ==== Sys2Proof/Machine/Chain.lean ====
section
/-! DEFINITION. The chain's commands: ticks, edges, outputs, RWS writes, CHAIN_SYNC (02 R30 to R49). -/
namespace Sys2Proof.Machine

/-- A boundary during a re-level freeze (04 R123, R550): the tick of e resumes both units once the steps are done; a freeze that was
cut short ends at the first tick after its step. -/
def tickFrozen (s : State) : Host.Outcome State Fault Refusal :=
  match s.hub.relevel with
  | some r =>
    if r.phase = 5 ∧ s.gen.cn + 1 = r.e then
      (if r.step = 7 then .next (debugPending (freezeEnd (tickNow s) r)) else .next s)
    else .next (tickNow s)
  | none => .next (tickNow s)

/-- A boundary of the running chain: with a freeze, with the end of a freeze that was cut short, or plain. -/
def tickRun (s : State) : Host.Outcome State Fault Refusal :=
  if s.hub.frozen then tickFrozen s
  else if s.hub.resume then .next (debugPending (freezeCut (tickNow s) (foreUnit s)))
  else .next (tickNow s)

/-- CHAIN_TICK (02 R30, R41, R44, R45): the first boundary of an accepted start, a boundary, or the withheld one of a re-lock. -/
def execChainTick (s : State) : Host.Outcome State Fault Refusal :=
  let g := s.gen
  if g.stopped || s.bench.checkstop || s.sahya.lockStop then .next s else
  match g.starting with
  | some n => if syncMode s = 2 ∧ !g.pulseSeen then .next s else .next (chainBegin s n)
  | none =>
    if !g.run then .next s
    else if g.relock = 2 then
      if !g.pulseSeen then .next s
      else tickRun (issueSvc { s with gen := { g with relock := 0, badPulses := 0 } } none (.sync true))
    else tickRun { s with gen := { g with relock := if g.relock = 1 then 2 else 0 } }

/-- RELOCK_TIMEOUT (02 R45): no pulse came, so the follower ticks on its own count and the re-lock ends without effect. -/
def execRelockTimeout (s : State) : Host.Outcome State Fault Refusal :=
  let g := s.gen
  if g.stopped || s.bench.checkstop || s.sahya.lockStop || !g.run || decide (g.relock ≠ 2) then .next s
  else tickRun { s with gen := { g with relock := 0 } }

/-- UNIT_EDGE (02 R31 to R33). -/
def execUnitEdge (u : UnitId) (s : State) : Host.Outcome State Fault Refusal :=
  if edgeDue s u then .next (freezeEdge (unitEdgeStep s u) u) else .next s

/-- OUTPUT_EMIT (02 R36, 04 R94): to a port the output waits while back-pressure toward its die is in force. -/
def execOutputEmit (u : UnitId) (ucc : Nat) (o : OutBody) (s : State) : Host.Outcome State Fault Refusal :=
  match timeTo s u ucc with
  | none => .next s
  | some s =>
    match o with
    | .link p bs => .next (emitPort s u p bs)
    | .mailbox .. => .next (emitOut s u ucc o)

/-- BACKPRESSURE_END (02 R37): both sides of the die have 64 KiB free again. -/
def execBackpressureEnd (d : DieId) (s : State) : Host.Outcome State Fault Refusal := .next (endSpace s d)

/-- An RWS write sets a reserved bit (00 R15). -/
def rwsBad (r : RwsReg) (w : Word) : Bool :=
  let mc := fun (o : Nat) => decide ((w &&& ~~~(BitVec.ofNat 64 (mcMask o))) ≠ 0)
  match r with
  | .chnCfg => ctlBadBits (.chn 0) w
  | .mcSched _ => mc 0x060
  | .mcQos _ p => mc (0x080 + 8 * p.val)
  | .mcRef _ => mc 0x0C0
  | .mcMaint _ => mc 0x0C8
  | .mcPwrmode _ => mc 0x0D0
  | .mcFchg _ => mc 0x0D8
  | .mcBankRetire _ i => mc (0x200 + 8 * i.val)

/-- RWS_REGISTER_WRITE (02 R38): a write by the service processor reaches both units as a CTL stake; while no unit executes, it
pends in both at once (log 16). -/
def execRwsRegisterWrite (r : RwsReg) (w : Word) (s : State) : Host.Outcome State Fault Refusal :=
  if rwsBad r w then .fault .reservedWrite
  else if isOff s then .next (applyBody (applyBody s .u0 0 0 (.rws r w) .discard) .u1 0 0 (.rws r w) .discard)
  else .next (issueFw s none (.rws r w))

/-- SYNC_PULSE_OUT (02 R41): a leader drives CHAIN_SYNC_OUT high ahead of its boundary. -/
def execSyncPulseOut (s : State) : Host.Outcome State Fault Refusal :=
  if syncMode s = 1 ∧ s.gen.run ∧ !s.gen.stopped then .next { s with gen := { s.gen with pulseOut := true } } else .next s

/-- SYNC_PULSE_IN (02 R41): a follower detects a pulse. -/
def execSyncPulseIn (s : State) : Host.Outcome State Fault Refusal :=
  if syncMode s = 2 then .next { s with gen := { s.gen with pulseSeen := true } } else .next s

/-- SYNC_PULSE_CHECK (02 R43): after three boundaries in a row with a missing or misplaced pulse, lock is lost. -/
def execSyncPulseCheck (ok : Bool) (s : State) : Host.Outcome State Fault Refusal :=
  if syncMode s ≠ 2 ∨ !s.gen.run ∨ !bitOf (foreState s).chn.status 2 then .next s
  else if ok then .next { s with gen := { s.gen with badPulses := 0 } }
  else if s.gen.badPulses < 2 then .next { s with gen := { s.gen with badPulses := s.gen.badPulses + 1 } }
  else
    let s := { s with gen := { s.gen with badPulses := 0 } }
    let s := if isOff s then modBoth s (fun x => applySync x false) else issueSvc s none (.sync false)
    .next (raiseFree s 0x003 (foreState s).ucc)

end Sys2Proof.Machine
end

