-- ==== Sys2Proof/Machine/Cipher.lean ====
section
/-! DEFINITION. The cipher commands, the key bus and completion (14 R405 to R424). -/
namespace Sys2Proof.Machine

/-- KCV, mode 0 (14 R422). -/
def execKcv (u : UnitId) (page : Fin 1024) (s : State) : Host.Outcome State Fault Refusal := .next (cphMode s u page 0)

/-- AES_CBC_ENC, mode 1 (14 R405). -/
def execAesCbcEnc (u : UnitId) (page : Fin 1024) (s : State) : Host.Outcome State Fault Refusal := .next (cphMode s u page 1)

/-- AES_CBC_DEC, mode 2 (14 R405). -/
def execAesCbcDec (u : UnitId) (page : Fin 1024) (s : State) : Host.Outcome State Fault Refusal := .next (cphMode s u page 2)

/-- AES_CTR, mode 3 (14 R405). -/
def execAesCtr (u : UnitId) (page : Fin 1024) (s : State) : Host.Outcome State Fault Refusal := .next (cphMode s u page 3)

/-- AES_GCM_ENC, mode 4 (14 R405). -/
def execAesGcmEnc (u : UnitId) (page : Fin 1024) (s : State) : Host.Outcome State Fault Refusal := .next (cphMode s u page 4)

/-- AES_GCM_DEC, mode 5 (14 R420). -/
def execAesGcmDec (u : UnitId) (page : Fin 1024) (s : State) : Host.Outcome State Fault Refusal := .next (cphMode s u page 5)

/-- AES_CMAC, mode 6 (14 R405). -/
def execAesCmac (u : UnitId) (page : Fin 1024) (s : State) : Host.Outcome State Fault Refusal := .next (cphMode s u page 6)

/-- AES_KDF, mode 7 (14 R421). -/
def execAesKdf (u : UnitId) (page : Fin 1024) (s : State) : Host.Outcome State Fault Refusal := .next (cphMode s u page 7)

/-- TDES_ECB_ENC, mode 8 (14 R405). -/
def execTdesEcbEnc (u : UnitId) (page : Fin 1024) (s : State) : Host.Outcome State Fault Refusal := .next (cphMode s u page 8)

/-- TDES_ECB_DEC, mode 9 (14 R405). -/
def execTdesEcbDec (u : UnitId) (page : Fin 1024) (s : State) : Host.Outcome State Fault Refusal := .next (cphMode s u page 9)

/-- TDES_CBC_ENC, mode 10 (14 R405). -/
def execTdesCbcEnc (u : UnitId) (page : Fin 1024) (s : State) : Host.Outcome State Fault Refusal := .next (cphMode s u page 10)

/-- TDES_CBC_DEC, mode 11 (14 R405). -/
def execTdesCbcDec (u : UnitId) (page : Fin 1024) (s : State) : Host.Outcome State Fault Refusal := .next (cphMode s u page 11)

/-- TDES_MAC3, mode 12 (14 R422). -/
def execTdesMac3 (u : UnitId) (page : Fin 1024) (s : State) : Host.Outcome State Fault Refusal := .next (cphMode s u page 12)

/-- A page takes the answer of its key-bus transaction (14 R408, R411): a refusal ends the command, a key error ends it as
KEY_ERR, which is a local error indication; else it goes on. -/
def pageKey (s : State) (u : UnitId) (t : KeyTxn) (p : Nat) (keyErr : Bool) : State :=
  let g := pageOf (getUnit s u) p
  let c := cphCmd g.cmd
  let par := match g.owner with | none => 64 | some (q, _) => q.toNat
  let (s, a) := keyBus s u t.slot t.load t.draw (cphPermit par c)
  if a.code ≠ 0 then modUnit s u (fun x => cphFail x p c a.code)
  else
    let s := modUnit s u (fun x => modPage x p (fun g =>
      { g with waitKey := false, keyDone := true, drawn := a.ctr
               key := if t.load then some (hiddenOf a) else g.key }))
    if keyErr then raiseUnitFree (modUnit s u (fun x => cphFail x p c 0x0D)) u 0x209
    else modUnit s u (fun x => cphRun x p)

/-- KEY_BUS_COMPLETE (14 R408): the unit's oldest key-bus transaction ends. -/
def execKeyBusComplete (u : UnitId) (keyErr : Bool) (s : State) : Host.Outcome State Fault Refusal :=
  match (getUnit s u).cph.keyQ with
  | [] => .next s
  | t :: r =>
    let s := modUnit s u (fun x => { x with cph := { x.cph with keyQ := r } })
    .next (pageKey s u t t.page keyErr)

/-- The completion record of a page written: words 1 to 3 then word 0, or word 0 alone (14 R423). None while the write
waits; a failed tag check writes nothing. -/
def cphRecord (x : UnitState) (par : Nat) (d : CphDone) : Option UnitState :=
  let w0 := BitVec.ofNat 64 (1 + 2 ^ 8 * d.code.toNat + 2 ^ 16 * bit d.trust + 2 ^ 17 * bit d.ivDev)
  let ws := if d.full then [w0, BitVec.ofNat 64 d.doneLen, d.w2, d.w3] else [w0]
  match dmaWrite x 72 par (alignDown d.cpl 32) (wordsBytes ws) with
  | (_, .wait) => none
  | (x, _) => some x

/-- CIPHER_COMPLETE (14 R423): the record, BUSY cleared with the code, then the vector. -/
def execCipherComplete (u : UnitId) (page : Fin 1024) (s : State) : Host.Outcome State Fault Refusal :=
  let g := pageOf (getUnit s u) page
  match g.done, g.owner with
  | some d, some (par, _) =>
    match cphRecord (getUnit s u) par.toNat d with
    | none => .next s
    | some x =>
      let s := setUnit s u (modPage x page (fun g => { g with busy := false, done := none, code := d.code }))
      .next (if d.irq then raiseVector s u par.toNat d.vec.toNat else s)
  | some d, none => .next (modUnit s u (fun x => modPage x page (fun g => { g with busy := false, done := none, code := d.code })))
  | none, _ => .next s

end Sys2Proof.Machine
end

