-- ==== Sys2Proof/Machine/VerdictOps.lean ====
section
/-! DEFINITION. Comparators, the referee, mismatches and their decision, the matched chain (04 R99 to R109, 03 R78, R79). -/
namespace Sys2Proof.Machine

/-- CLO_STATUS of the dies: UNCHECKED, DOWN, RETIRED (04 R128). -/
def cloDies (s : State) : BitVec 4 × BitVec 4 × BitVec 8 :=
  let ds := List.finRange 4
  let un := (ds.map (fun d => let x := dieOf s d; bit (x.retA != x.retB && !x.lanesDown) * 2 ^ d.val)).sum
  let dn := (ds.map (fun d => bit (dieOf s d).lanesDown * 2 ^ d.val)).sum
  let rt := (ds.map (fun d => let x := dieOf s d; bit x.retA * 4 ^ d.val + bit x.retB * 2 * 4 ^ d.val)).sum
  (BitVec.ofNat 4 un, BitVec.ofNat 4 dn, BitVec.ofNat 8 rt)

/-- The hub records the dies' comparators in the units (04 R102, R128). -/
def showClo (s : State) : State :=
  let (un, dn, rt) := cloDies s
  hubCfg s (.cloStatus un dn rt)

/-- One of the hub's counts up by one, and shown: 0 MISMATCH, 1 REFEREE, 3 RETIRE (04 R128). -/
def bumpClo (s : State) (k : Nat) : State :=
  let c := bumpField s.hub.count (16 * k) 16
  let f := fun (n : Nat) => BitVec.ofNat 16 (bitsOf c (16 * n) 16)
  hubCfg { s with hub := { s.hub with count := c } } (.cloCount (f 0) (f 1) (f 2) (f 3))

/-- The ports of a die that are up. -/
def diePortsUp (s : State) (d : DieId) : List PortId :=
  ((s.ports.filter (fun e => e.2.up && decide (e.1 / 256 = d.val))).map (fun e => Fin.ofNat 1024 e.1))

/-- A die takes its lanes down (04 R102): its held outputs are discarded, its ports go down. -/
def takeLanesDown (s : State) (d : DieId) : State :=
  if (dieOf s d).lanesDown then s else
  let s := modDie s d (fun x => { x with lanesDown := true, side0 := [], side1 := [], held := [], waitOut := [] })
  (diePortsUp s d).foldl goDown s

/-- A comparator of a die is retired (04 R102). -/
def retireCmp (s : State) (d : DieId) (isB : Bool) : State :=
  let x := dieOf s d
  if (if isB then x.retB else x.retA) then s else
  let s := modDie s d (fun x => if isB then { x with retB := true } else { x with retA := true })
  let s := raiseFree s (dieSrcNum d 2) (foreState s).ucc
  let x := dieOf s d
  let s := if (x.retA && x.retB) || bitOf (foreState s).clo.cfg 0 then takeLanesDown s d else s
  showClo (bumpClo s 3)

/-- The first chain that opens at a boundary stamp (03 R86). -/
def boundaryChain (s : State) : Nat :=
  let x := foreState s
  if x.ucc + 1024 ≤ nextUb s x then x.cn + 1 else x.cn + 2

/-- A test with RESTORE has ended at a die (04 R102, 18 R519): a retired comparator that passed is restored; a die whose lanes are
down takes them up when one was restored, or when it has an unretired one that its policy lets compare alone or none is
retired, and compares from the first chain after the STAMP that shows it. -/
def restoreCmp (s : State) (d : DieId) (a b : Bool) : State :=
  let x := dieOf s d
  let ra := x.retA && !a
  let rb := x.retB && !b
  let changed := ra != x.retA || rb != x.retB
  let up := x.lanesDown && !(ra && rb) && (changed || !bitOf (foreState s).clo.cfg 0 || (!ra && !rb))
  if !changed && !up then s else
  let n := boundaryChain s
  showClo (modDie s d (fun x =>
    let x := { x with retA := ra, retB := rb }
    if up then { x with lanesDown := false, noCompareBefore := n } else x))

/-- A decision is pending that holds chain `n` back (04 R106). -/
def decisionHolds (s : State) (n : Nat) : Bool :=
  match s.hub.decision with
  | some d => decide (d.cn ≤ n)
  | none => false

/-- Chain `n` mismatches (04 R106): the hub counts it once and decides on the earliest. -/
def chainMismatch (s : State) (n : Nat) : State :=
  match s.hub.decision with
  | none => bumpClo { s with hub := { s.hub with decision := some { cn := n } } } 0
  | some d => if d.cn = n then s else bumpClo { s with hub := { s.hub with decision := some { cn := min d.cn n } } } 0

/-- STATE becomes LEVELLED: chain e has matched (04 R120, R121 phase 6). -/
def levelAgain (s : State) (r : Relevel) : State :=
  let s := { s with hub := { s.hub with relevel := some { r with phase := 7 } } }
  let s := hubCfg s (.relevelPhase 0 r.full (BitVec.ofNat 8 r.passes))
  let s := hubCfg s (.levelState 1 (if r.join = .u1 then 0 else 1))
  let s := raisePlain s 0x0F0 (foreState s).ucc (foreState s).clo.drop
  relevelEvent s r 0x80 [BitVec.ofNat 64 r.e, BitVec.ofNat 64 (r.passes + 256 * bit r.full), BitVec.ofNat 64 r.nres]

/-- The closure of chain `n` has matched in outputs and benchmarks (03 R79, 04 R121). -/
def chainGood (s : State) (n : Nat) : State :=
  let s := { s with hub := { s.hub with matched := s.hub.matched.filter (fun e => decide (n < e.1)) } }
  let s := issueSvc s none (.bench n)
  match s.hub.relevel with
  | some r => if r.phase = 6 ∧ r.e = n then levelAgain s r else s
  | none => s

/-- The places that need no match of their own: dies whose lanes are down, or that have stopped, and dies that do not compare the
chain yet (04 R102). -/
def idleDies (s : State) (n : Nat) : Nat :=
  ((List.finRange 4).map (fun d =>
    let x := dieOf s d
    bit (x.lanesDown || x.stopped || decide (n < x.noCompareBefore)) * 2 ^ d.val)).sum

/-- A place of closure has matched chain `n`: bits 0 to 3 the dies, 4 the hub on service outputs, 5 on benchmarks. -/
def markMatched (s : State) (n place : Nat) : State :=
  let old := match s.hub.matched.find? (fun e => e.1 == n) with | some e => e.2 | none => 0
  let m := old ||| 2 ^ place
  let s := { s with hub := { s.hub with matched := (n, m) :: s.hub.matched.filter (fun e => decide (e.1 ≠ n)) } }
  if m ||| idleDies s n = 63 then chainGood s n else s

/-- A matched chain at a die: released, unless a referee or a decision holds it (04 R97, R101, R106). -/
def dieMatch (s : State) (d : DieId) (n : Nat) : State := markMatched (dieRelease s d (foreUnit s) n) n d.val

/-- A disagreement goes to the referee, behind one that runs (04 R100, R101). -/
def startReferee (s : State) (d : DieId) (h : HeldChain) : State :=
  let s := raiseFree s (dieSrcNum d 3) (foreState s).ucc
  let s := bumpClo s 1
  modDie s d (fun x => { x with referee := some h })

/-- A compared chain decided on agreeing verdicts. -/
def dieVerdict (s : State) (d : DieId) (n : Nat) : Verdict → State
  | .isMatch => if decisionHolds s n then s else dieMatch s d n
  | .mismatch => chainMismatch s n
  | .missing => s

/-- Held chains follow once the referee has ended, in chain order, up to the next disagreement (04 R101). -/
def followHeld : Nat → State → DieId → State
  | 0, s, _ => s
  | n + 1, s, d =>
    match (dieOf s d).held with
    | [] => s
    | h :: r =>
      let s := modDie s d (fun x => { x with held := r })
      if h.va = h.vb ∧ h.va ≠ .missing then followHeld n (dieVerdict s d h.cn h.va) d else startReferee s d h

/-- A die whose only comparator gives no verdict (04 R99, R127): it is retired without a referee and the lanes go down. -/
def soleMissing (s : State) (d : DieId) : State := takeLanesDown (retireCmp (retireCmp s d false) d true) d

/-- The verdicts of a die's comparators on a chain (04 R99 to R101). -/
def dieCompared (s : State) (d : DieId) (h : HeldChain) : State :=
  let x := dieOf s d
  if x.retA != x.retB then
    let v := if x.retA then h.vb else h.va
    if v = .missing then soleMissing s d
    else if x.referee.isSome then modDie s d (fun x => { x with held := x.held ++ [{ h with va := v, vb := v }] })
    else dieVerdict s d h.cn v
  else if x.referee.isSome then modDie s d (fun x => { x with held := x.held ++ [h] })
  else if h.va = h.vb ∧ h.va ≠ .missing then dieVerdict s d h.cn h.va
  else startReferee s d h

/-- The next chain that a die compares: not compared yet, from the levelled start, the end of the last freeze or the return of its
lanes on. -/
def nextCompare (s : State) (d : DieId) : Nat :=
  let x := dieOf s d
  let n := match x.compared with | some c => c + 1 | none => (foreState s).lvl.start.toNat
  later n x.noCompareBefore

/-- Both units have ended chain `n`: the compare begins at the Backsight's edge (04 R99). -/
def chainEnded (s : State) (n : Nat) : Bool :=
  match backUnit s with
  | some b => decide (n < (getUnit s b).cn) && decide (n < (foreState s).cn) && !s.bench.checkstop
  | none => false

/-- A rotating vector is due at a chain (04 R105). -/
def rotAt (s : State) (n : Nat) : Bool :=
  let k := bitsOf (foreState s).clo.cfg 16 16
  decide (k ≠ 0) && decide (n % (k * 1024) = 0)

/-- What a comparison of two streams finds (04 R95). -/
def streamTruth (a b : List OutEntry) : Verdict := if streamBytes a = streamBytes b then .isMatch else .mismatch

/-- The compare of the next chain ends at a die. A verdict that the comparator gets wrong is given by the row. -/
def dieCompareEnd (s : State) (d : DieId) (wrongA wrongB : Option Verdict) : State :=
  let x := dieOf s d
  let n := nextCompare s d
  if x.stopped || x.lanesDown || (x.retA && x.retB) || !chainEnded s n then s else
  let t := streamTruth (chainEntries x.side0 n) (chainEntries x.side1 n)
  let h : HeldChain := { cn := n, va := wrongA.getD t, vb := wrongB.getD t, truth := t }
  let s := modDie s d (fun x => { x with compared := some n, slotOpen := true, rotDue := x.rotDue || rotAt s n })
  dieCompared s d h

/-- The next chain whose service outputs the hub compares. -/
def nextService (s : State) : Nat :=
  let n := match s.hub.released with | some c => c + 1 | none => (foreState s).lvl.start.toNat
  later n s.hub.first

/-- The hub's compare of service outputs ends (04 R97, R106). -/
def serviceCompareEnd (s : State) : State :=
  let n := nextService s
  if !chainEnded s n || decisionHolds s n then s else
  match streamTruth (chainEntries s.hub.side0 n) (chainEntries s.hub.side1 n) with
  | .isMatch => markMatched (hubRelease s (foreUnit s) n) n 4
  | _ => chainMismatch s n

/-- The compared slots of two records are equal (03 R77): all but slot 1. -/
def recsEqual (a b : BenchRec) : Bool := decide (a.eraseIdx 1 = b.eraseIdx 1)

/-- The hub's compare of benchmark records ends (03 R78, R79): the pair is kept, the newest 16. -/
def benchCompareEnd (s : State) : State :=
  match s.hub.recs0, s.hub.recs1 with
  | (n, a) :: r0, (m, b) :: r1 =>
    if n ≠ m ∨ !chainEnded s n then s else
    let s := { s with hub := { s.hub with recs0 := r0, recs1 := r1, pairs := ((n, a, b) :: s.hub.pairs).take 16 } }
    if recsEqual a b then markMatched s n 5 else chainMismatch s n
  | _, _ => s

/-- The referee's verdict retires the comparators that differ from it (04 R100). -/
def refereeRetires (s : State) (d : DieId) (h : HeldChain) : State :=
  let s := if h.va = h.truth then s else retireCmp s d false
  if h.vb = h.truth then s else retireCmp s d true

/-- The referee ends at a die (04 R100, R101, R127): after a drop, or while a decision holds the chain, only to retire. Its verdict of
mismatch goes to the decision even where the retirement took the lanes down. -/
def refereeDone (s : State) (d : DieId) (h : HeldChain) : State :=
  let s := modDie s d (fun x => { x with referee := none })
  let s := refereeRetires s d h
  if (backUnit s).isNone then s
  else if (dieOf s d).lanesDown then (if h.truth = .mismatch then chainMismatch s h.cn else s) else
  let s := dieVerdict s d h.cn h.truth
  followHeld ((dieOf s d).held.length) s d

/-- The UB of a recent chain. -/
def ubOf (s : State) (n : Nat) : Option Nat := (s.hub.ubs.find? (fun e => e.1 == n)).map (fun e => e.2)

/-- A unit has a local error indication in chains n - 1 and n (04 R107). -/
def indicated (s : State) (u : UnitId) (n : Nat) : Bool :=
  let lo := (ubOf s (n - 1)).getD ((ubOf s n).getD 0)
  s.hub.indic.any (fun e => decide (e.1 = u) && decide (lo ≤ e.2) && (match ubOf s (n + 1) with | some hi => decide (e.2 < hi) | none => true))

/-- The hub decides on a mismatch (04 R108, R125). -/
def decideMismatch (s : State) (n : Nat) : State :=
  let s := { s with hub := { s.hub with decision := none } }
  match backUnit s with
  | none => s
  | some b =>
    if relevelPhase s = 6 then dropUnit s b 0x0A else
    let f := foreUnit s
    match indicated s f n, indicated s b n with
    | true, false => dropUnit s f 0x01
    | false, true => dropUnit s b 0x01
    | _, _ =>
      if bitsOf (foreState s).lvl.cfg 8 2 = 1 then dropUnit s b 0x02 else raisePlainFree s 0x008

end Sys2Proof.Machine
end

