-- ==== Sys2Proof/Machine/Closure.lean ====
section
/-! DEFINITION. Closure's commands: compares, the referee, injection tests, decisions, the watchdog, the re-level's phases (04 R97 to R127). -/
namespace Sys2Proof.Machine

/-- COMPARE_END (04 R97, R99): a die, or the hub on service outputs or on benchmark records, ends its next compare. `wrongA` and
`wrongB` are verdicts that a die's comparator gives in place of the right one. -/
def execCompareEnd (p : CmpPlace) (wrongA wrongB : Option Verdict) (s : State) : Host.Outcome State Fault Refusal :=
  match p with
  | .die d => .next (dieCompareEnd s d wrongA wrongB)
  | .service => .next (serviceCompareEnd s)
  | .bench => .next (benchCompareEnd s)

/-- VERDICT_TIMEOUT (04 R99): a comparator gives no verdict on the die's next chain within T_close: A, or B where A is retired. -/
def execVerdictTimeout (d : DieId) (s : State) : Host.Outcome State Fault Refusal :=
  if (dieOf s d).retA then .next (dieCompareEnd s d none (some .missing)) else .next (dieCompareEnd s d (some .missing) none)

/-- REFEREE_END (04 R100, R101). -/
def execRefereeEnd (d : DieId) (s : State) : Host.Outcome State Fault Refusal :=
  match (dieOf s d).referee with
  | none => .next s
  | some h => .next (refereeDone s d h)

/-- QUEUE_ROOM_RELEASE (06 R180): a port's transmit queue has room again. -/
def execQueueRoomRelease (p : PortId) (s : State) : Host.Outcome State Fault Refusal :=
  let d := portDie p
  .next (endSpace (drainWaitOut ((dieOf s d).waitOut.length) s d) d)

/-- A `CLOSURE.INJECT` run ends at a die; the command completes with its last die (04 R105). -/
def injectEnds (s : State) (d : DieId) : State :=
  match s.sahya.injTag with
  | none => s
  | some (h, m) =>
    let m := m &&& ~~~(BitVec.ofNat 4 (2 ^ d.val))
    if m = 0 then postReply { s with sahya := { s.sahya with injTag := none } } h 0x02 0x02 ccOk 0 []
    else { s with sahya := { s.sahya with injTag := some (h, m) } }

/-- One vector of a `CLOSURE.INJECT` run (04 R103, R105): a comparator that fails is retired; the 74th ends the run, and with RESTORE
restores the retired ones that passed. -/
def injectVector (s : State) (d : DieId) (r : InjRun) (passA passB : Bool) : State :=
  let r := { r with vector := r.vector + 1, failA := r.failA || !passA, failB := r.failB || !passB }
  let s := if passA then s else retireCmp s d false
  let s := if passB then s else retireCmp s d true
  if r.vector < 74 then modDie s d (fun x => { x with inj := some r })
  else
    let s := modDie s d (fun x => { x with inj := none })
    let s := if r.restore then restoreCmp s d (!r.failA) (!r.failB) else s
    injectEnds s d

/-- The rotating vector (04 R105). -/
def rotateVector (s : State) (d : DieId) (passA passB : Bool) : State :=
  let s := modDie s d (fun x => { x with rot := (x.rot + 1) % 74, rotDue := false })
  let s := if passA || (dieOf s d).retA then s else retireCmp s d false
  if passB || (dieOf s d).retB then s else retireCmp s d true

/-- INJECTION_TEST_SLOT (04 R105): one vector on each comparator, in a slot that has opened with 250 ns left before the next Backsight
edge. A `CLOSURE.INJECT` vector goes before a rotating one, and waits while a referee runs (R127). -/
def execInjectionTestSlot (d : DieId) (nsLeft : Nat) (passA passB : Bool) (s : State) : Host.Outcome State Fault Refusal :=
  let x := dieOf s d
  if x.stopped || !x.slotOpen || (nsLeft < 250 && !x.lanesDown) then .next s else
  let s := modDie s d (fun x => { x with slotOpen := false })
  match x.inj, x.referee with
  | some r, none => .next (injectVector s d r passA passB)
  | _, _ => if x.rotDue then .next (rotateVector s d passA passB) else .next s

/-- DIVERGENCE_DECISION (04 R106 to R108, R125). -/
def execDivergenceDecision (s : State) : Host.Outcome State Fault Refusal :=
  match s.hub.decision with
  | none => .next s
  | some d => .next (decideMismatch s d.cn)

/-- BENCH_LATE (04 R109): a late record drops its unit; both late at one boundary stop the module. -/
def execBenchLate (late0 late1 : Bool) (s : State) : Host.Outcome State Fault Refusal :=
  if (backUnit s).isNone || s.bench.checkstop then .next s else
  let mark := fun (s : State) (u : UnitId) (b : Bool) => if b then raiseUnitFree s u 0x202 else s
  let t := mark (mark s .u0 late0) .u1 late1
  match late0, late1 with
  | true, true => .next (lastUnit t)
  | true, false => .next (dropUnit t .u0 0x04)
  | false, true => .next (dropUnit t .u1 0x04)
  | false, false => .next s

/-- AUTO_RELEVEL (04 R117): what firmware does after a drop, with the start image's values. -/
def execAutoRelevel (s : State) : Host.Outcome State Fault Refusal :=
  let a := foreState s
  let set := bitsOf a.clo.cfg 1 2
  let cause := bitsOf a.clo.drop 0 8
  if !s.sahya.auto || !sahyaUp s || isOff s || decide (lvlState a ≠ 2) || decide (set = 0 ∨ set = 3) then .next s else
  let s := { s with sahya := { s.sahya with auto := false } }
  let join := (foreUnit s).other
  let i := s.boot.startImg
  let kind := if set = 1 then 0 else 2
  if cause = 8 ∨ (set = 1 ∧ (cause = 3 ∨ !bitOf a.clo.drop 11)) ∨ relevelCode s join kind ≠ ccOk then .next s
  else .next (relevelStart s (relevelOf s join kind i.rate i.maxres i.maxpass i.force true s.sahya.route false 0))

/-- MAP_SWEEP_END (04 R119): the background sweep of a map and of its fieldbook twin has ended. -/
def execMapSweepEnd (u : UnitId) (mapB : Bool) (s : State) : Host.Outcome State Fault Refusal :=
  .next (modUnit s u (fun x =>
    if mapB then { x with mem := { x.mem with
      mapB := { x.mem.mapB with sweeping := false }, fbMapB := { x.mem.fbMapB with sweeping := false } } }
    else { x with mem := { x.mem with
      mapA := { x.mem.mapA with sweeping := false }, fbMapA := { x.mem.fbMapA with sweeping := false } } }))

/-- A power domain of the joining unit takes the state of the active unit's (18 R518). -/
def adoptDom (s : State) (join : UnitId) (k : Nat) : State :=
  let a := domOf s (domNum join.other k)
  let j := domOf s (domNum join k)
  let n := if a.st = j.st then j.changes else BitVec.ofNat 32 (saturate 32 (j.changes.toNat + 1))
  setDom s (domNum join k) { a with changes := n }

/-- The end of phase 1 of a re-level: the joining unit prepared, with the active unit's domain states (04 R121, 18 R518). -/
def prepared (s : State) (r : Relevel) : State :=
  (List.range 24).foldl (fun s k => adoptDom s r.join k)
    (modUnit s r.join (fun j => prepareJoin (getUnit s r.join.other) j))

/-- PREPARE_END (04 R121 phase 1, R126). -/
def execPrepareEnd (ok : Bool) (s : State) : Host.Outcome State Fault Refusal :=
  match s.hub.relevel with
  | none => .next s
  | some r =>
    if r.phase ≠ 1 then .next s
    else if !ok then .next (relevelAbort s 0x20)
    else .next (relevelTo (prepared s r) r 2)

/-- UNION_END (04 R121 phase 2): the copy map stands, and the first pass begins. -/
def execUnionEnd (s : State) : Host.Outcome State Fault Refusal :=
  match s.hub.relevel with
  | none => .next s
  | some r =>
    if r.phase ≠ 2 then .next s else
    let j := getUnit s r.join
    let s := modUnit s r.join.other (fun a => formCopyMap a j r.full r.useB)
    .next (relevelTo (passBegin s r) r 3)

/-- The freeze is set for a boundary (04 R121 phase 5). -/
def setFreeze (s : State) (r : Relevel) : State :=
  hubCfg { s with hub := { s.hub with relevel := some { r with freezeAt := some (boundaryStamp s) } } }
    (.relevelPhase 5 r.full (BitVec.ofNat 8 r.passes))

/-- COPY_PASS_END (04 R121 phases 3 and 4). -/
def execCopyPassEnd (s : State) : Host.Outcome State Fault Refusal :=
  match s.hub.relevel with
  | none => .next s
  | some r =>
    if (r.phase ≠ 3 ∧ r.phase ≠ 4) ∨ r.freezeAt.isSome then .next s else
    let r := { r with passes := r.passes + 1 }
    let s := { s with hub := { s.hub with relevel := some r } }
    let (d, f) := copyRes s r
    if r.phase = 4 ∧ d ≤ r.maxres ∧ f ≤ 512 then .next (setFreeze s r)
    else if r.maxpass ≤ r.passes then (if r.force then .next (setFreeze s r) else .next (noConverge s r))
    else if r.phase = 3 ∧ d ≤ 4 * r.maxres then
      .next (relevelTo (passBegin (modUnit s r.join.other (fun a => setWt a true)) r) r 4)
    else .next (relevelTo (passBegin s r) r r.phase)

/-- FREEZE_STEP_END (04 R122, R550): the next step of the freeze ends; after an abort the step in progress is the last. -/
def execFreezeStepEnd (s : State) : Host.Outcome State Fault Refusal :=
  if !s.hub.frozen then .next s
  else if s.hub.resume then .next { s with hub := { s.hub with frozen := false } }
  else match s.hub.relevel with
  | none => .next s
  | some r =>
    if r.phase ≠ 5 ∨ 7 ≤ r.step then .next s
    else .next { s with hub := { s.hub with relevel := some { r with step := r.step + 1 } } }

end Sys2Proof.Machine
end

