-- ==== Sys2Proof/Machine/Coherence.lean ====
section
/-! DEFINITION. The coherence commands: requests at their homes, forwards at agents, replies, evictions, walks and sweeps (11 R334 to
R354). A message command whose message is not in flight leaves the state as it is (log 2). -/
namespace Sys2Proof.Machine

/-- The level bridge may read: CLO_RELEVEL.PHASE is 2 to 5 (15 R453). -/
def bridgeOpen (s : State) : Bool := decide (2 ≤ relevelPhase s) && decide (relevelPhase s ≤ 5)

/-- The fabric of a unit is at work: the unit executes and no invalidation runs (11 R353). -/
def fabricRuns (x : UnitState) : Bool := x.executing && !x.dropped && !x.mem.coh.invBusy

/-- A request command (11 R334, R339, R340): from a position that has an agent, alive, with no eviction of the line under way and a
credit of the tracker; the bridge issues RDO alone. -/
def requestRow (s : State) (u : UnitId) (j : CohJob) : State :=
  let x := getUnit s u
  let a := j.req.agent.val
  let line := j.req.line.toNat
  let known := decide (a < 74) || (decide (a = 74) && decide (j.kind = .rdo))
  if !fabricRuns x || !known || isDead x a || evicting x a line || trackerFull x line || (fbLine line && (j.kind == .rdx || j.kind == .upg)) then s
  else modUnit s u (fun x => arriveJob (bridgeOpen s) (retryParked (bridgeOpen s) x) j)

/-- RDS (11 R341, R344). -/
def execRds (u : UnitId) (q : CohReq) (s : State) : Host.Outcome State Fault Refusal := .next (requestRow s u { kind := .rds, req := q })

/-- RDX (11 R341). -/
def execRdx (u : UnitId) (q : CohReq) (s : State) : Host.Outcome State Fault Refusal :=
  .next (requestRow s u { kind := .rdx, req := { q with pin := false } })

/-- UPG (11 R341). -/
def execUpg (u : UnitId) (q : CohReq) (s : State) : Host.Outcome State Fault Refusal :=
  .next (requestRow s u { kind := .upg, req := { q with pin := false } })

/-- RDO (11 R341). -/
def execRdo (u : UnitId) (q : CohReq) (s : State) : Host.Outcome State Fault Refusal :=
  .next (requestRow s u { kind := .rdo, req := { q with pin := false } })

/-- WRL (11 R341): a whole line. -/
def execWrl (u : UnitId) (q : CohReq) (data : List Byte) (s : State) : Host.Outcome State Fault Refusal :=
  .next (if data.length = 64 && !fbLine q.line.toNat then requestRow s u { kind := .wrl, req := { q with pin := false }, data := data } else s)

/-- WRT (11 R342): bytes of one fieldbook line. -/
def execWrt (u : UnitId) (q : CohReq) (off : BitVec 6) (data : List Byte) (s : State) : Host.Outcome State Fault Refusal :=
  .next (if decide (off.toNat + data.length ≤ 64) && fbLine q.line.toNat then
    requestRow s u { kind := .wrt, req := { q with pin := false }, off := off.toNat, data := data } else s)

/-- STC (11 R341, R344): a doubleword of the line. -/
def execStc (u : UnitId) (q : CohReq) (off : BitVec 3) (data : Word) (s : State) : Host.Outcome State Fault Refusal :=
  .next (requestRow s u { kind := .stc, req := { q with pin := false }, off := 8 * off.toNat, data := leBytes 8 data.toNat })

/-- CLN (11 R341). -/
def execCln (u : UnitId) (q : CohReq) (s : State) : Host.Outcome State Fault Refusal :=
  .next (requestRow s u { kind := .cln, req := { q with pin := false } })

/-- FLS (11 R341). -/
def execFls (u : UnitId) (q : CohReq) (s : State) : Host.Outcome State Fault Refusal :=
  .next (requestRow s u { kind := .fls, req := { q with pin := false } })

/-- The walker of the core at an agent keeps the line, which its L2 never evicts (15 R448). -/
def keepsLine (x : UnitState) (agent line : Nat) : Bool :=
  match coreAt x agent with
  | some l => decide ((unitCore x l).ctxLine = some line)
  | none => false

/-- An agent may evict a line: it has no request for it outstanding (11 R334), and its walker does not keep it. -/
def mayEvict (x : UnitState) (agent line : Nat) : Bool :=
  !isDead x agent && !evicting x agent line && !keepsLine x agent line &&
  (match svcOf x line with | some v => decide (v.job.req.agent.val ≠ agent) && v.waiting.all (fun j => decide (j.req.agent.val ≠ agent)) | none => true) &&
  x.mem.coh.parked.all (fun j => decide (j.req.agent.val ≠ agent) || decide (j.req.line.toNat ≠ line))

/-- An eviction by an agent (11 R334, R341): its copy becomes I, the eviction entry stays until EACK. -/
def evictRow (s : State) (u : UnitId) (agent line : Nat) (dirty : Bool) : State :=
  modUnit s u (fun x =>
    let x := modCoh (setAg x agent line .i) (fun c => { c with ev := c.ev ++ [(agent, line)] })
    evictArrives (bridgeOpen s) x line agent dirty)

/-- EVC (11 R341): a clean eviction. -/
def execEvc (u : UnitId) (agent : Fin 80) (line : BitVec 46) (s : State) : Host.Outcome State Fault Refusal :=
  let x := getUnit s u
  let st := agOf x agent line.toNat
  .next (if fabricRuns x && mayEvict x agent line.toNat && (st == .s || st == .w || st == .e) then evictRow s u agent line.toNat false else s)

/-- A line marked LOST (11 R351, R352): a dirty line in L3 with the mark, and an entry of the log. -/
def markLost (x : UnitState) (cause : BitVec 2) (line pos : Nat) : UnitState :=
  let x := l3Dirty { x with mem := { x.mem with mark := tabSet markDef x.mem.mark line 0x02 } } line
  modCoh x (fun c => if c.lostLog.length < 64 then { c with lostLog := c.lostLog ++ [{ cause := cause, line := line, pos := pos }] }
    else { c with lostOvf := true })

/-- A line marked LOST in a unit, with fault source LOST (11 R351, 17 R489). -/
def loseLine (s : State) (u : UnitId) (cause : BitVec 2) (line pos : Nat) : State :=
  raiseUnitFree (modUnit s u (fun x => markLost x cause line pos)) u 0x211

/-- EVD (11 R341, R330, R350): a dirty eviction, poisoned where the cache read it with an uncorrectable error. Of a dead position, the
side port's poisoned line is LOST. -/
def execEvd (u : UnitId) (agent : Fin 80) (line : BitVec 46) (poison : Bool) (s : State) : Host.Outcome State Fault Refusal :=
  let x := getUnit s u
  let n := line.toNat
  if !fabricRuns x then .next s
  else if poison && x.mem.coh.salv.contains (agent.val, n) then
    .next (loseLine (modUnit s u (fun x => modCoh x (fun c => { c with salv := c.salv.erase (agent.val, n) }))) u 0 n agent)
  else if mayEvict x agent n && agOf x agent n == .d then
    let s := if poison then modUnit s u (fun x => { x with mem := { x.mem with mark := tabSet markDef x.mem.mark n 0x01 } }) else s
    .next (evictRow s u agent n true)
  else .next s

/-- EVW (11 R348): in write-through mode a dirty line goes to the home and stays in E. -/
def execEvw (u : UnitId) (agent : Fin 80) (line : BitVec 46) (s : State) : Host.Outcome State Fault Refusal :=
  let x := getUnit s u
  let n := line.toNat
  .next (if fabricRuns x && x.mem.coh.wt && !isDead x agent && agOf x agent n == .d then
    modUnit s u (fun x => l3Dirty (setAg x agent n .e) n) else s)

/-- The requester of the service of a line. -/
def svcRequester (x : UnitState) (line : Nat) : Nat := match svcOf x line with | some v => v.job.req.agent.val | none => 0

/-- GONE to the home. -/
def replyGone (x : UnitState) (agent line : Nat) : UnitState := sendMsg x { kind := .gone, line := line, agent := agent }

/-- DAT to the requester, with the state that it grants. -/
def replyData (x : UnitState) (line : Nat) (st : AgSt) : UnitState :=
  sendMsg x { kind := .dat, line := line, agent := svcRequester x line, st := st }

/-- DAT of an owner's dirty line to the home. -/
def dataHome (x : UnitState) (agent line : Nat) : UnitState := sendMsg x { kind := .dat, line := line, agent := agent, home := true, flag := true }

/-- A forward or invalidation arrives at an agent (11 R334): what it does is `f` of its state. -/
def forwardRow (s : State) (u : UnitId) (k : MsgKind) (agent line : Nat) (f : UnitState → CohMsg → AgSt → UnitState) : State :=
  let x := getUnit s u
  match takeMsg x (isMsg k agent line) with
  | none => s
  | some (m, x) =>
    if isDead x agent || evicting x agent line then setUnit s u (replyGone x agent line)
    else setUnit s u (f x m (agOf x agent line))

/-- FWS (11 R334). -/
def execFws (u : UnitId) (agent : Fin 80) (line : BitVec 46) (s : State) : Host.Outcome State Fault Refusal :=
  let n := line.toNat
  .next (forwardRow s u .fws agent n (fun x _ st =>
    match st with
    | .w => replyData x n .s
    | .e => setAg (replyData x n .s) agent n .w
    | .d => setAg (dataHome (replyData x n .s) agent n) agent n .w
    | .s | .i => replyGone x agent n))

/-- FWX (11 R334). -/
def execFwx (u : UnitId) (agent : Fin 80) (line : BitVec 46) (s : State) : Host.Outcome State Fault Refusal :=
  let n := line.toNat
  .next (forwardRow s u .fwx agent n (fun x _ st =>
    match st with
    | .w | .e => setAg (replyData x n .e) agent n .i
    | .d => setAg (replyData x n .d) agent n .i
    | .s | .i => replyGone x agent n))

/-- FWO (11 R334). -/
def execFwo (u : UnitId) (agent : Fin 80) (line : BitVec 46) (s : State) : Host.Outcome State Fault Refusal :=
  let n := line.toNat
  .next (forwardRow s u .fwo agent n (fun x _ st =>
    match st with
    | .w | .e | .d => replyData x n .i
    | .s | .i => replyGone x agent n))

/-- INV (11 R334): a dirty line goes home unless DROP; every other copy answers ACK. -/
def execInv (u : UnitId) (agent : Fin 80) (line : BitVec 46) (drop : Bool) (s : State) : Host.Outcome State Fault Refusal :=
  let n := line.toNat
  let x := getUnit s u
  match takeMsg x (fun m => isMsg .inv agent n m && m.flag == drop) with
  | none => .next s
  | some (_, x) =>
    let ack := fun (x : UnitState) => sendMsg x { kind := .ack, line := n, agent := agent, home := true }
    if isDead x agent || evicting x agent n then .next (setUnit s u (replyGone x agent n))
    else if agOf x agent n = .d ∧ !drop then .next (setUnit s u (setAg (dataHome x agent n) agent n .i))
    else .next (setUnit s u (setAg (ack x) agent n .i))

/-- CLNF (11 R334). -/
def execClnf (u : UnitId) (agent : Fin 80) (line : BitVec 46) (s : State) : Host.Outcome State Fault Refusal :=
  let n := line.toNat
  .next (forwardRow s u .clnf agent n (fun x _ st =>
    match st with
    | .e => sendMsg x { kind := .ack, line := n, agent := agent, home := true }
    | .d => setAg (dataHome x agent n) agent n .e
    | .w | .s | .i => replyGone x agent n))

/-- The requester's data has arrived (11 R341): the state it grants. -/
def dataArrives (x : UnitState) (line : Nat) (m : CohMsg) : UnitState :=
  match svcOf x line with
  | none => x
  | some v =>
    let a := v.job.req.agent.val
    let x := if m.st = .i then x else writeThrough (setAg x a line m.st) a line
    cmpIfDone (setSvc x line (some { v with needData := false })) line

/-- DAT (11 R338): at an agent it grants a state; at the home it is a dirty line for L3, and a reply. -/
def execDat (u : UnitId) (agent : Option (Fin 80)) (line : BitVec 46) (s : State) : Host.Outcome State Fault Refusal :=
  let n := line.toNat
  let x := getUnit s u
  match agent with
  | some a =>
    (match takeMsg x (isMsg .dat a n) with
     | none => .next s
     | some (m, x) => .next (setUnit s u (dataArrives x n m)))
  | none =>
    match takeMsg x (fun m => decide (m.kind = .dat) && m.home && m.line == n) with
    | none => .next s
    | some (m, x) => .next (setUnit s u (replyArrives (bridgeOpen s) (l3Dirty x n) n m.agent))

/-- ACK (11 R341, R344): an agent's at the home, or the home's to the requester of a pin. -/
def execAck (u : UnitId) (agent : Fin 80) (line : BitVec 46) (s : State) : Host.Outcome State Fault Refusal :=
  let n := line.toNat
  let x := getUnit s u
  match takeMsg x (fun m => decide (m.kind = .ack) && m.agent == agent.val && m.line == n && m.home) with
  | some (_, x) => .next (setUnit s u (replyArrives (bridgeOpen s) x n agent))
  | none =>
    match takeMsg x (isMsg .ack agent n) with
    | some (_, x) =>
      .next (setUnit s u (match svcOf x n with
        | some v => cmpIfDone (setSvc x n (some { v with needData := false })) n
        | none => x))
    | none => .next s

/-- GONE (11 R349). -/
def execGone (u : UnitId) (agent : Fin 80) (line : BitVec 46) (s : State) : Host.Outcome State Fault Refusal :=
  match takeMsg (getUnit s u) (isMsg .gone agent line.toNat) with
  | none => .next s
  | some (_, x) => .next (setUnit s u (goneArrives (bridgeOpen s) x line.toNat agent))

/-- GNT (11 R341): the requester owns the line; after a UPG its copy is dirty. -/
def execGnt (u : UnitId) (agent : Fin 80) (line : BitVec 46) (s : State) : Host.Outcome State Fault Refusal :=
  let n := line.toNat
  match takeMsg (getUnit s u) (isMsg .gnt agent n) with
  | none => .next s
  | some (_, x) =>
    .next (setUnit s u (match svcOf x n with
      | none => x
      | some v =>
        let x := if v.job.kind = .upg ∧ (agOf x agent n = .s ∨ agOf x agent n = .w) then writeThrough (setAg x agent n .d) agent n else x
        cmpIfDone (setSvc x n (some { v with needGnt := false })) n))

/-- CMP (11 R340): the service ends and the next request of the line starts. -/
def execCmpResponse (u : UnitId) (agent : Fin 80) (line : BitVec 46) (s : State) : Host.Outcome State Fault Refusal :=
  let n := line.toNat
  match takeMsg (getUnit s u) (isMsg .cmp agent n) with
  | none => .next s
  | some (_, x) =>
    .next (setUnit s u (match svcOf x n with
      | none => x
      | some v => retryParked (bridgeOpen s) (endSvc (bridgeOpen s) x n v)))

/-- EACK (11 R334): the eviction entry is released. -/
def execEack (u : UnitId) (agent : Fin 80) (line : BitVec 46) (s : State) : Host.Outcome State Fault Refusal :=
  match takeMsg (getUnit s u) (isMsg .eack agent line.toNat) with
  | none => .next s
  | some (_, x) => .next (setUnit s u (modCoh x (fun c => { c with ev := c.ev.erase (agent.val, line.toNat) })))

/-- DONE (11 R341): the requester learns that its request has completed. -/
def execDone (u : UnitId) (agent : Fin 80) (line : BitVec 46) (s : State) : Host.Outcome State Fault Refusal :=
  match takeMsg (getUnit s u) (isMsg .done agent line.toNat) with
  | none => .next s
  | some (_, x) => .next (setUnit s u x)

/-- RSVL (11 R344): the holder of the pin sets RSV.VALID to 0, where its reservation is still of that granule. -/
def execRsvl (u : UnitId) (agent : Fin 80) (engine : Fin 16) (line : BitVec 46) (s : State) : Host.Outcome State Fault Refusal :=
  let n := line.toNat
  let lose := fun (c : Core) => if c.rsvGranule.toNat = n then { c with rsvValid := false } else c
  match takeMsg (getUnit s u) (fun m => isMsg .rsvl agent n m && m.engine == engine.val) with
  | none => .next s
  | some (_, x) =>
    .next (setUnit s u (match coreAt x agent with
      | some l => modUnitCore x l lose
      | none => if 56 ≤ agent.val ∧ agent.val < 72 then
          let e := 16 * (agent.val - 56) + engine.val
          setUnitEngine x e (lose (unitEngine x e)) else x))

/-- ERR (15 R454): a core's store that its home refuses raises TAG_LATE; any other requester only learns it. -/
def execErr (u : UnitId) (agent : Fin 80) (line : BitVec 46) (s : State) : Host.Outcome State Fault Refusal :=
  match takeMsg (getUnit s u) (isMsg .err agent line.toNat) with
  | none => .next s
  | some (m, x) =>
    let s := setUnit s u x
    .next (if m.flag && decide (agent.val < 56) then raiseUnitFree s u 0x20B else s)

/-- An entry that still names a dead position at the end of its walk (11 R350 step 3). -/
def walkEntry (agent : Nat) (x : UnitState) (line : Nat) : UnitState :=
  let x := setAg x agent line .i
  let x := if (dirOf x line).holders.getLsbD agent then dropHolder x line agent else x
  let e := dirOf x line
  let pin := match e.pin with | some (p, _) => decide (p = agent) | none => false
  setDir x line agent { e with pin := if pin then none else e.pin, tvec := if agent < 56 then e.tvec &&& ~~~(tvecBit agent) else e.tvec }

/-- DIRECTORY_WALK_END (11 R350): what still names the position loses it, and a line it owned is LOST. -/
def execDirectoryWalkEnd (u : UnitId) (agent : Fin 80) (s : State) : Host.Outcome State Fault Refusal :=
  let x := getUnit s u
  if !x.mem.coh.walks.contains agent.val then .next s else
  let lines := x.mem.coh.dir.map (fun e => e.1)
  let lost := (x.mem.coh.dir.filter (fun e => decide (e.2.st = .owned) && e.2.own == agent.val)).map (fun e => e.1)
  let s := modUnit s u (fun x => modCoh (lines.foldl (walkEntry agent) x) (fun c => { c with
    walks := c.walks.erase agent.val, salv := c.salv.filter (fun e => e.1 != agent.val) }))
  .next (lost.foldl (fun s line => loseLine s u 1 line agent) s)

/-- Every dirty copy of the unit's caches written through (11 R348). -/
def sweepDirty (x : UnitState) : UnitState :=
  let x := x.mem.coh.ag.foldl (fun x e => if e.2 = .d then l3Dirty (setAg x (e.1 % 128) (e.1 / 128) .e) (e.1 / 128) else x) x
  x.mem.coh.l3.foldl (fun x e => if e.2 = .dirty then l3Clean x e.1 else x) x

/-- WT_SWEEP_END (11 R348): the sweeps that setting WT started have ended. -/
def execWtSweepEnd (u : UnitId) (s : State) : Host.Outcome State Fault Refusal :=
  .next (if (getUnit s u).mem.coh.wtSweep then modUnit s u (fun x => modCoh (sweepDirty x) (fun c => { c with wtSweep := false })) else s)

/-- INVALIDATION_END (11 R353). -/
def execInvalidationEnd (u : UnitId) (s : State) : Host.Outcome State Fault Refusal :=
  .next (modUnit s u (fun x => modCoh x (fun c => { c with invBusy := false })))

end Sys2Proof.Machine
end

