-- ==== Sys2Proof/Machine/Decimal.lean ====
section
/-! DEFINITION. Packed-decimal instructions (07 R218, 08 R244 to R250). -/
namespace Sys2Proof.Machine

/-- Digit `n` of an accumulator, 0 the least significant of 31. -/
def bcdDigit (q : Quad) (n : Nat) : Nat := bitsOf q (4 * (n + 1)) 4

/-- The magnitude held by the low `n` digits. -/
def bcdMag (q : Quad) : Nat → Nat
  | 0 => 0
  | n + 1 => bcdMag q n + bcdDigit q n * 10 ^ n

/-- Every digit and the sign nibble are valid (08 R244). -/
def bcdValid (q : Quad) : Bool := (List.range 31).all (fun n => decide (bcdDigit q n ≤ 9)) && decide (10 ≤ bitsOf q 0 4)

/-- The sign nibble is minus. -/
def bcdMinus (q : Quad) : Bool := bitsOf q 0 4 == 0xB || bitsOf q 0 4 == 0xD

/-- The signed value (08 R246). -/
def bcdValue (q : Quad) : Int := if bcdMinus q then -(bcdMag q 31 : Int) else (bcdMag q 31 : Int)

/-- The low `n` decimal digits of a number as nibbles. -/
def bcdDigits : Nat → Nat → Nat
  | 0, _ => 0
  | n + 1, m => m % 10 + 16 * bcdDigits n (m / 10)

/-- A result: 31 low-order digits, and minus only with a non-zero digit (08 R245). -/
def bcdResult (neg : Bool) (mag : Nat) : Quad :=
  let low := mag % 10 ^ 31
  BitVec.ofNat 128 (16 * bcdDigits 31 low + (if neg && decide (low ≠ 0) then 0xD else 0xC))

/-- A decimal result written to an accumulator with N, Z and V (08 R239, R245, R246). -/
def bcdPut (c : Core) (k : Reg) (neg : Bool) (mag : Nat) (v : Bool) : Core × List (BitVec 8 × Quad) :=
  let q := bcdResult neg mag
  withFlags (putK c k q) (fun p => setNzv p (bcdMinus q) (decide (mag % 10 ^ 31 = 0)) v)

/-- A signed result of DADD or DSUB (08 R246). -/
def bcdSum (c : Core) (k : Reg) (r : Int) : Core × List (BitVec 8 × Quad) :=
  bcdPut c k (decide (r < 0)) r.natAbs (decide (10 ^ 31 ≤ r.natAbs))

/-- A decimal instruction whose accumulator operands are checked first: an invalid nibble is DECIMAL_DATA with nothing
changed (08 R250). -/
def runDec (s : State) (i : Issue) (e : Enc) (ks : List Reg) (f : Core → Core × List (BitVec 8 × Quad)) :
    Host.Outcome State Fault Refusal :=
  runInstr s i e (fun s =>
    if ks.all (fun k => bcdValid (rdK (getCore s i.proc) k)) then regBody i.proc f s else .exn s 0x0A 0)

/-- Two syllables, C profile only. -/
def encC2 (bad : Bool) : Enc := { len := 2, t := false, sv := false, bad := bad }

/-- DADD (08 R246). -/
def execDadd (i : Issue) (k rs : Reg) (s : State) : Host.Outcome State Fault Refusal :=
  runDec s i (encC2 (!wellFormed (.dadd i k rs))) [k, rs] (fun c => bcdSum c k (bcdValue (rdK c k) + bcdValue (rdK c rs)))

/-- DSUB (08 R246). -/
def execDsub (i : Issue) (k rs : Reg) (s : State) : Host.Outcome State Fault Refusal :=
  runDec s i (encC2 (!wellFormed (.dsub i k rs))) [k, rs] (fun c => bcdSum c k (bcdValue (rdK c k) - bcdValue (rdK c rs)))

/-- DCMP (08 R247). -/
def execDcmp (i : Issue) (k rs : Reg) (s : State) : Host.Outcome State Fault Refusal :=
  runDec s i (encC2 (!wellFormed (.dcmp i k rs))) [k, rs] (fun c =>
    let x := bcdValue (rdK c k)
    let y := bcdValue (rdK c rs)
    withFlags (c, []) (fun p => setNzv p (decide (x < y)) (decide (x = y)) false))

/-- CVBD: the decimal value of Ds as a signed integer (08 R249). -/
def execCvbd (i : Issue) (k rs : Reg) (s : State) : Host.Outcome State Fault Refusal :=
  runDec s i (encC2 (!wellFormed (.cvbd i k rs))) [] (fun c =>
    bcdPut c k (decide ((rdD c rs).toInt < 0)) (rdD c rs).toInt.natAbs false)

/-- CVDB: the binary value of Ks; V where it lies outside the signed range (08 R249). -/
def execCvdb (i : Issue) (d k : Reg) (s : State) : Host.Outcome State Fault Refusal :=
  runDec s i (encC2 (!wellFormed (.cvdb i d k))) [k] (fun c =>
    let v := bcdValue (rdK c k)
    let r := BitVec.ofInt 64 v
    withFlags (putD c d r) (fun p => setNzv p r.msb (decide (r = 0)) (decide (r.toInt ≠ v))))

/-- DSHL Kd, #n (08 R248). -/
def execDshl (i : Issue) (k : Reg) (n : BitVec 6) (s : State) : Host.Outcome State Fault Refusal :=
  runDec s i (encC2 (!wellFormed (.dshl i k n))) [k] (fun c =>
    let q := rdK c k
    let m := bcdMag q 31 * 10 ^ n.toNat
    bcdPut c k (bcdMinus q) m (decide (10 ^ 31 ≤ m)))

/-- DSHR Kd, #n (08 R248). -/
def execDshr (i : Issue) (k : Reg) (n : BitVec 6) (s : State) : Host.Outcome State Fault Refusal :=
  runDec s i (encC2 (!wellFormed (.dshr i k n))) [k] (fun c =>
    let q := rdK c k
    bcdPut c k (bcdMinus q) (bcdMag q 31 / 10 ^ n.toNat) false)

end Sys2Proof.Machine
end

