-- ==== Sys2Proof/Machine/Ecc.lean ====
section
/-! DEFINITION. The code of a DRAM line: sub-words, check symbols, syndromes and decoding (13 R384 to R389), and ECC_TEST (R392).
Symbols are numbers below 256. -/
namespace Sys2Proof.Machine

/-- Multiplication by α = 0x02 modulo x^8 + x^4 + x^3 + x^2 + 1 (13 R385). -/
def eccDouble (a : Nat) : Nat := (2 * a % 256) ^^^ (if 128 ≤ a then 0x1D else 0)

/-- Multiplication by the low `n` bits of the second factor. -/
def eccMulN : Nat → Nat → Nat → Nat
  | 0, _, _ => 0
  | n + 1, a, b => (if b % 2 = 1 then a else 0) ^^^ eccMulN n (eccDouble a) (b / 2)

/-- Multiplication in GF(2^8) (13 R385). -/
def eccMul (a b : Nat) : Nat := eccMulN 8 a b

/-- α^k. -/
def eccPow : Nat → Nat
  | 0 => 1
  | k + 1 => eccDouble (eccPow k)

/-- The inverse, as the 254th power: the product of the squares 2, 4 to 128. -/
def eccInvN : Nat → Nat → Nat
  | 0, _ => 1
  | n + 1, a => eccMul (eccMul a a) (eccInvN n (eccMul a a))

/-- The inverse in GF(2^8). -/
def eccInv (a : Nat) : Nat := eccInvN 7 a

/-- The devices of a line (13 R384): 10 on DDR5, 18 on DDR4. The last two hold check symbols. -/
def eccDevs (ddr4 : Bool) : Nat := if ddr4 then 18 else 10

/-- The sub-words of a line (13 R384): 8 on DDR5, 4 on DDR4. -/
def eccSubs (ddr4 : Bool) : Nat := if ddr4 then 4 else 8

/-- The address fold ad(j) of a line address (13 R384). -/
def eccFold (ddr4 : Bool) (a j : Nat) : Nat :=
  (if ddr4 then (a % 2 ^ 32) ^^^ (a / 2 ^ 32 % 2 ^ 14) else a % 2 ^ 46) / 256 ^ j % 256

/-- The symbol s(j,k) of a line's data bytes and check bytes (13 R384); check byte 2j is s(j, n − 2) (R392). -/
def eccSym (ddr4 : Bool) (bs chk : List Byte) (j k : Nat) : Nat :=
  let n := eccDevs ddr4
  (if k < n - 2 then bs.getD (j * (n - 2) + k) 0 else chk.getD (2 * j + (k - (n - 2))) 0).toNat

/-- The syndromes s0(j) and s1(j) of symbols (13 R385). -/
def eccSynd (ddr4 : Bool) (a : Nat) (sym : Nat → Nat → Nat) (j : Nat) : Nat × Nat :=
  (List.range (eccDevs ddr4)).foldl (fun s k => (s.1 ^^^ sym j k, s.2 ^^^ eccMul (sym j k) (eccPow k))) (eccFold ddr4 a j, 0)

/-- The check bytes that give every sub-word of the data syndromes of zero; sub-word 0 of a mark gives (0, M) (13 R385, R388). -/
def eccChecks (ddr4 : Bool) (a : Nat) (bs : List Byte) (m : BitVec 8) : List Byte :=
  let n := eccDevs ddr4
  let p := eccPow (n - 2)
  let inv := eccInv (p ^^^ eccPow (n - 1))
  (List.range (eccSubs ddr4)).flatMap (fun j =>
    let (s0, s1) := eccSynd ddr4 a (eccSym ddr4 bs []) j
    let c1 := eccMul (s1 ^^^ (if j = 0 then m.toNat else 0) ^^^ eccMul s0 p) inv
    [BitVec.ofNat 8 (s0 ^^^ c1), BitVec.ofNat 8 c1])

/-- A line's check bytes as the array holds them. -/
def lineChk (x : UnitState) (line : Nat) : List Byte :=
  match tabGet chkDef x.mem.dchk line with
  | [] => eccChecks (mcDdr4 x (lineChan line)) line (tabGetList byteDef x.mem.dram (64 * line) 64) (tabGet markDef x.mem.dmark line)
  | l => l

/-- A line's symbols as a read brings them, with the errors of its burst. -/
def readSym (x : UnitState) (line : Nat) (errs : List SymErr) (j k : Nat) : Nat :=
  errs.foldl (fun v e => if e.sub.val = j ∧ e.dev.val = k then v ^^^ e.flip.toNat else v)
    (eccSym (mcDdr4 x (lineChan line)) (tabGetList byteDef x.mem.dram (64 * line) 64) (lineChk x line) j k)

/-- The device that the syndromes of a sub-word name (13 R386). -/
def eccNames (ddr4 : Bool) (s : Nat × Nat) : Option Nat :=
  if s.1 = 0 then none else (List.range (eccDevs ddr4)).find? (fun k => s.2 == eccMul s.1 (eccPow k))

/-- Every sub-word that is not clean names one and the same device, here `k` (13 R386). -/
def eccOneDev (ddr4 : Bool) (k : Nat) (l : List (Nat × Nat)) : Bool := l.all (fun s => s == (0, 0) || eccNames ddr4 s == some k)

/-- S0, S1 and SWMASK of an entry of MC_ERRLOG (13 R390): of the lowest sub-word that is not clean, and which those are. -/
def eccWord (l : List (Nat × Nat)) : Nat :=
  let s := (l.find? (fun s => s != (0, 0))).getD (0, 0)
  let mask := ((List.range l.length).map (fun j => bit (l.getD j (0, 0) != (0, 0)) * 2 ^ j)).sum
  s.1 + 2 ^ 8 * s.2 + 2 ^ 16 * mask

/-- What a read of a line comes to, with the syndromes that its log entry holds. -/
inductive LineFound
  | clean
  | ce (dev synd : Nat)
  | ue (synd : Nat)
  | mark (m : BitVec 8) (synd : Nat)
  | late
  deriving DecidableEq, Repr

/-- The syndromes of a synthetic mark, logged as though the read had found its pattern (13 R388). -/
def markSynd (m : BitVec 8) : Nat := 2 ^ 8 * m.toNat + 2 ^ 16

/-- The decoding of a line from the syndromes of its sub-words (13 R386, R389). -/
def eccDecode (ddr4 : Bool) (l : List (Nat × Nat)) : LineFound :=
  match l.find? (fun s => s != (0, 0)) with
  | none => .clean
  | some s =>
    match eccNames ddr4 s with
    | some k => if eccOneDev ddr4 k l then .ce k (eccWord l) else .ue (eccWord l)
    | none =>
      let m := (l.getD 0 (0, 0)).2
      if (l.getD 0 (0, 0)).1 = 0 ∧ (m = 1 ∨ m = 2) then
        let rest := l.drop 1
        if rest.all (fun s => s == (0, 0)) || (List.range (eccDevs ddr4)).any (fun k => eccOneDev ddr4 k rest) then .mark (BitVec.ofNat 8 m) (eccWord l)
        else .ue (eccWord l)
      else .ue (eccWord l)

/-- The syndromes of a line as a read brings it. -/
def readSynds (x : UnitState) (line : Nat) (errs : List SymErr) : List (Nat × Nat) :=
  let d := mcDdr4 x (lineChan line)
  (List.range (eccSubs d)).map (eccSynd d line (readSym x line errs))

/-- The data of a line corrected in one device (13 R386). -/
def eccFixed (x : UnitState) (line : Nat) (errs : List SymErr) (dev : Nat) : List Byte :=
  let n := eccDevs (mcDdr4 x (lineChan line)) - 2
  let l := readSynds x line errs
  (List.range 64).map (fun b =>
    BitVec.ofNat 8 (readSym x line errs (b / n) (b % n) ^^^ (if b % n = dev then (l.getD (b / n) (0, 0)).1 else 0)))

/-- The home's clean copy of a line that ECC_TEST stored is the corrected data of its read. -/
def deliverFixed (x : UnitState) (line : Nat) (bs : List Byte) : UnitState :=
  if tabGet chkDef x.mem.dchk line = [] then x else { x with mem := { x.mem with data := tabSetList byteDef x.mem.data (64 * line) bs } }

/-- The array after the rewrite of a line that a scrub read corrected (13 R394). -/
def rewriteFixed (x : UnitState) (line : Nat) (bs : List Byte) : UnitState :=
  if tabGet chkDef x.mem.dchk line = [] then x else
  { x with mem := { x.mem with
      dram := tabSetList byteDef x.mem.dram (64 * line) bs, dmark := tabSet markDef x.mem.dmark line 0, dchk := tabSet chkDef x.mem.dchk line [] } }

/-- MC_ECCTEST.EN (13 R392). -/
def eccTesting (x : UnitState) (c : Fin 12) : Bool := bitOf (mcReg x c 0x800) 0

/-- A write of port P7 under ECC_TEST: the check bytes of MC_ECCTEST_CHK are stored verbatim (13 R392). -/
def eccTestWrite (x : UnitState) (c : Fin 12) (line : Nat) : UnitState :=
  let d := mcDdr4 x c
  let chk := ((leBytes 8 (mcReg x c 0x808).toNat) ++ (leBytes 8 (mcReg x c 0x810).toNat)).take (2 * eccSubs d)
  let bs := tabGetList byteDef x.mem.dram (64 * line) 64
  let x := { x with mem := { x.mem with
    dmark := tabSet markDef x.mem.dmark line 0
    dchk := tabSet chkDef x.mem.dchk line (if chk = eccChecks d line bs 0 then [] else chk) } }
  match eccDecode d (readSynds x line []) with
  | .mark m _ => { x with mem := { x.mem with dmark := tabSet markDef x.mem.dmark line m } }
  | _ => x

/-- A raw read of port P7: the stored check bytes and the syndromes are loaded into the registers (13 R392). -/
def eccTestRead (x : UnitState) (c : Fin 12) (line : Nat) (errs : List SymErr) : UnitState :=
  let d := mcDdr4 x c
  let n := eccDevs d
  let chk := (List.range (2 * eccSubs d)).map (fun i => BitVec.ofNat 8 (readSym x line errs (i / 2) (n - 2 + i % 2)))
  let syn := (readSynds x line errs).flatMap (fun s => [BitVec.ofNat 8 s.1, BitVec.ofNat 8 s.2])
  let put := fun (x : UnitState) (off : Nat) (l : List Byte) => setMcReg x c off (BitVec.ofNat 64 (leNat l))
  put (put (put (put x 0x808 (chk.take 8)) 0x810 (chk.drop 8)) 0x818 (syn.take 8)) 0x820 (syn.drop 8)

end Sys2Proof.Machine
end

