-- ==== Sys2Proof/Machine/Dram.lean ====
section
/-! DEFINITION. The commands of the DRAM controllers: scheduling, returns, refresh, power-down, frequency change, bring-up, scrub (12,
13 R386 to R395). -/
namespace Sys2Proof.Machine

/-- The physical rank slot of a bank: DIMM × 2 + RANK (12 R382). -/
def bankSlot (bank : Nat) : Nat := bank / 2 % 2 * 2 + bank / 4 % 2

/-- The row that is open in a bank. -/
def openRowOf (m : McState) (bank : Nat) : Option Nat := tabGet (fun _ => (none : Option Nat)) m.openRow bank

/-- A bank's row opened or closed. -/
def setRow (m : McState) (bank : Nat) (r : Option Nat) : McState :=
  { m with openRow := tabSet (fun _ => (none : Option Nat)) m.openRow bank r }

/-- Every queued request of a channel: reads, then writes. -/
def queued (m : McState) : List McReq := m.rq ++ m.wq

/-- An age at least at a fraction of a port's target, in fabric cycles (12 R364): `age * d ≥ T * n`, T rounded up. -/
def portTarget (s : State) (x : UnitState) (c : Fin 12) (port : Nat) : Nat :=
  let t := later 1 (bitsOf (mcReg x c (0x080 + 8 * port)) 0 16)
  (t * (clkMhz s / 2) + 999) / 1000

/-- The urgency of a request (12 R364). -/
def urgency (s : State) (x : UnitState) (c : Fin 12) (now : Nat) (r : McReq) : Nat :=
  let age := (now - r.since) / 2
  let t := portTarget s x c r.port
  if t ≤ age then 3 else if 3 * t ≤ 4 * age then 2 else if t ≤ 2 * age then 1 else 0

/-- Lines that a port may transfer in a window of 1,024 fabric cycles (12 R367); none without a limit. -/
def portLimit (s : State) (x : UnitState) (c : Fin 12) (port : Nat) : Option Nat :=
  let rate := bitsOf (mcReg x c (0x080 + 8 * port)) 16 16
  if rate = 0 then none else some (rate * 100 * 1024 / (clkMhz s / 2 * 64))

/-- A port may transfer a line in the window of `now`. -/
def rateLeft (s : State) (x : UnitState) (c : Fin 12) (now port : Nat) : Bool :=
  let m := mcOf x c
  match portLimit s x c port with
  | none => true
  | some n => decide (m.win ≠ now / 2048) || decide (tabGet (fun _ => 0) m.winCount port < n)

/-- A transfer counted in its window. -/
def countTransfer (m : McState) (now port : Nat) : McState :=
  let w := now / 2048
  let t := if m.win = w then m.winCount else []
  { m with win := w, winCount := tabSet (fun _ => 0) t port (tabGet (fun _ => 0) t port + 1) }

/-- A bank's queue is in in-order mode (12 R366): a read waits behind an earlier unissued write to its row. -/
def inOrder (m : McState) (bank : Nat) : Bool :=
  m.rq.any (fun r => r.bank == bank && m.wq.any (fun w => w.bank == bank && w.row == r.row && decide (w.num < r.num)))

/-- The oldest request of a bank. -/
def bankOldest (m : McState) (bank : Nat) : Option Nat :=
  ((queued m).filter (fun r => r.bank == bank)).foldl (fun a r => match a with | some n => some (min n r.num) | none => some r.num) none

/-- The urgency with which a request competes: in in-order mode the highest of its bank's queue (12 R366). -/
def rankUrgency (s : State) (x : UnitState) (c : Fin 12) (now : Nat) (r : McReq) : Nat :=
  let m := mcOf x c
  if inOrder m r.bank then
    ((queued m).filter (fun q => q.bank == r.bank)).foldl (fun a q => later a (urgency s x c now q)) 0
  else urgency s x c now r

/-- A named candidate is one: it agrees with the queues and the open rows, keeps the order of its line and bank, and its port has a
transfer left (12 R365 to R367, R380). The timings of JEDEC are the command's own claim. -/
def candidateOk (s : State) (x : UnitState) (c : Fin 12) (now : Nat) (r : McReq) (k : DramCmd) : Bool :=
  let m := mcOf x c
  let column := r.retired || openRowOf m r.bank == some r.row
  let first := (queued m).all (fun q => q.line != r.line || decide (r.num ≤ q.num))
  let turn := !inOrder m r.bank || bankOldest m r.bank == some r.num
  first && turn &&
  match k with
  | .read => r.write.isNone && column && rateLeft s x c now r.port
  | .write => r.write.isSome && column && rateLeft s x c now r.port
  | .activate => !r.retired && openRowOf m r.bank == none
  | .precharge =>
    match openRowOf m r.bank with
    | none => false
    | some row => decide (row ≠ r.row) && (queued m).all (fun q => q.bank != r.bank || q.row != row)

/-- A column command. -/
def isColumn : DramCmd → Bool
  | .read | .write => true
  | .activate | .precharge => false

/-- The first of two candidates by 12 R365. -/
def goesFirst (s : State) (x : UnitState) (c : Fin 12) (now : Nat) (a b : McReq × DramCmd) : Bool :=
  let m := mcOf x c
  let ua := rankUrgency s x c now a.1
  let ub := rankUrgency s x c now b.1
  let side := fun (r : McReq) => r.write.isSome == m.drain
  if ua ≠ ub then decide (ub < ua)
  else if isColumn a.2 ≠ isColumn b.2 then isColumn a.2
  else if side a.1 ≠ side b.1 then side a.1
  else if a.1.since ≠ b.1.since then decide (a.1.since < b.1.since)
  else decide (a.1.port ≤ b.1.port)

/-- The candidate that the scheduler issues. -/
def firstCandidate (s : State) (x : UnitState) (c : Fin 12) (now : Nat) : List (McReq × DramCmd) → Option (McReq × DramCmd)
  | [] => none
  | a :: r =>
    match firstCandidate s x c now r with
    | none => some a
    | some b => some (if goesFirst s x c now a b then a else b)

/-- A rank leaves power-down (12 R378). -/
def wakeRank (x : UnitState) (c : Fin 12) (slot : Nat) : UnitState :=
  let x := modMc x c (fun m => { m with pd := m.pd &&& ~~~(BitVec.ofNat 4 (2 ^ slot)) })
  setMcReg x c 0x018 (withBit (mcReg x c 0x018) 16 ((mcOf x c).pd != 0))

/-- A command issued for a request (12 R365, R368, R380): a column command takes it off its queue; a write of a retired bank is
discarded with MC_RETIRED_ACCESS. -/
def issueCmd (s : State) (u : UnitId) (c : Fin 12) (now : Nat) (r : McReq) (k : DramCmd) : State :=
  let s := modUnit s u (fun x => wakeRank x c (bankSlot r.bank))
  match k with
  | .activate => modUnit s u (fun x => modMc x c (fun m => setRow m r.bank (some r.row)))
  | .precharge => modUnit s u (fun x => modMc x c (fun m => setRow m r.bank none))
  | .read => modUnit s u (fun x => modMc x c (fun m =>
      admitReads x m.blocked.length (countTransfer { m with rq := m.rq.erase r, issued := m.issued ++ [{ r with since := now }] } now r.port)))
  | .write =>
    let s := modUnit s u (fun x =>
      let low := bitsOf (mcReg x c 0x060) 8 8
      let x := modMc x c (fun m =>
        let m := countTransfer { m with wq := m.wq.erase r } now r.port
        { m with drain := m.drain && decide (low < m.wq.length) })
      match r.write with
      | some (bs, mk) =>
        if r.retired then x
        else if r.port == 7 && eccTesting x c then eccTestWrite (dramArrayWrite x r.line bs mk) c r.line
        else dramArrayWrite x r.line bs mk
      | none => x)
    if r.retired then raiseUnitFree s u (0x150 + c) else s

/-- The channel takes request commands: READY, in no maintenance slot, in no frequency change (12 R376, R379). -/
def channelOpen (x : UnitState) (c : Fin 12) (now : Nat) : Bool :=
  bitsOf (mcReg x c 0x018) 0 3 == 2 && !(mcOf x c).fchgHold && decide ((mcOf x c).slotEnd ≤ now)

/-- DRAM_COMMAND_ISSUE (12 R365): the candidates are named by their place in the queues (reads, then writes) with their command. -/
def execDramCommandIssue (u : UnitId) (c : Fin 12) (now : Nat) (candidates : List (Nat × DramCmd)) (s : State) :
    Host.Outcome State Fault Refusal :=
  match timeTo s u now with
  | none => .next s
  | some s =>
    let x := getUnit s u
    if !channelOpen x c now then .next s else
    let cs := candidates.filterMap (fun e => ((queued (mcOf x c))[e.1]?).map (fun r => (r, e.2)))
    match firstCandidate s x c now (cs.filter (fun e => candidateOk s x c now e.1 e.2)) with
    | none => .next s
    | some e => .next (issueCmd s u c now e.1 e.2)

/-- WRITE_ACCEPT (12 R362): the first write at the head of its port takes a free entry of the write queue; reads behind it follow. -/
def execWriteAccept (u : UnitId) (c : Fin 12) (s : State) : Host.Outcome State Fault Refusal :=
  let m := mcOf (getUnit s u) c
  match portHead m true (fun _ => true) with
  | none => .next s
  | some r =>
    if 128 ≤ m.wq.length then .next s else
    .next (modUnit s u (fun x => modMc x c (fun m =>
      let m := admitReads x m.blocked.length { m with wq := m.wq ++ [accepted x m r], blocked := m.blocked.erase r, num := m.num + 1 }
      { m with drain := m.drain || decide (bitsOf (tabGet (mcReset c.val) m.regs 0x060) 0 8 ≤ m.wq.length) })))

/-- The KIND of an entry of MC_ERRLOG for a mark (13 R390). -/
def markKind (m : BitVec 8) : Nat := m.toNat + 1

/-- An entry of MC_ERRLOG (13 R390), the newest of the list: a full log gives up the place of its oldest CE; without one, OVF is set. -/
def mcLogPut (x : UnitState) (c : Fin 12) (e : McLog) : UnitState :=
  let m := mcOf x c
  if m.log.length < 16 then setMc x c { m with log := m.log ++ [{ e with slot := m.log.length }] } else
  match m.log.find? (fun o => decide (bitsOf o.w0 1 3 = 0)) with
  | some o => setMc x c { m with log := m.log.erase o ++ [{ e with slot := o.slot }] }
  | none => setMcReg x c 0x828 (withBit (mcReg x c 0x828) 48 true)

/-- A record of MC_ERRLOG (13 R390). `synd` is S0, S1 and SWMASK. -/
def mcLogWord (kind : Nat) (scrub : Bool) (dev : Nat) (synd : Nat) (cn line : Nat) : McLog :=
  { w0 := BitVec.ofNat 64 (1 + 2 * kind + 16 * bit scrub + 32 * (dev % 32) + 2 ^ 16 * (synd % 2 ^ 24) + 2 ^ 40 * (cn % 2 ^ 24))
    w1 := BitVec.ofNat 64 (line % 2 ^ 46) }

/-- The counts of MC_ERRCNT (13 R390): CE in [31:0], UE in [47:32], saturating. -/
def mcCount (x : UnitState) (c : Fin 12) (ue : Bool) : UnitState :=
  setMcReg x c 0x828 (if ue then bumpField (mcReg x c 0x828) 32 16 else bumpField (mcReg x c 0x828) 0 32)

/-- A CE found by a read (13 R386, R387, R390): counted, logged with the device, raised. -/
def foundCe (s : State) (u : UnitId) (c : Fin 12) (line dev synd : Nat) (scrub : Bool) : State :=
  let s := modUnit s u (fun x => mcLogPut (mcCount x c false) c (mcLogWord 0 scrub dev synd x.cn line))
  raiseUnitFree s u (0x100 + c)

/-- A UE or mark found by a read (13 R386 to R390): counted, logged with its kind, raised. -/
def foundUe (s : State) (u : UnitId) (c : Fin 12) (line : Nat) (mark : BitVec 8) (synd : Nat) (scrub : Bool) : State :=
  let s := modUnit s u (fun x => mcLogPut (mcCount x c true) c (mcLogWord (if mark = 0 then 1 else markKind mark) scrub 0 synd x.cn line))
  raiseUnitFree s u (0x110 + c)

/-- The delivered line is poisoned (13 R387): the copy that the home holds clean takes the mark; a newer dirty value stands. -/
def poisonLine (x : UnitState) (line : Nat) (mark : BitVec 8) : UnitState :=
  let e := dirOf x line
  if l3Of x line = .dirty ∨ (e.st = .owned ∧ agOf x e.own line = .d) then x else
  { x with mem := { x.mem with mark := tabSet markDef x.mem.mark line mark } }

/-- What a read of a line comes to (12 R370, R379, R380, 13 R386 to R389). A stored mark whose sub-word 0 is hit is a UE (R404). -/
def readOutcome (x : UnitState) (c : Fin 12) (line : Nat) (retired : Bool) (o : DramRead) : LineFound :=
  if retired then .mark 3 (markSynd 3)
  else if (mcOf x c).late then .mark 5 (markSynd 5)
  else
    match o with
    | .late => .late
    | .data errs =>
      match eccDecode (mcDdr4 x c) (readSynds x line errs) with
      | .ce dev w => if tabGet markDef x.mem.dmark line = 0 then .ce dev w else .ue w
      | k => k

/-- The errors that a burst brings. -/
def readErrs : DramRead → List SymErr
  | .data l => l
  | .late => []

/-- The corrected line delivered to its home, unless a newer value stands there or waits to be written (13 R386). -/
def deliverCe (x : UnitState) (c : Fin 12) (line dev : Nat) (o : DramRead) : UnitState :=
  let e := dirOf x line
  if l3Of x line = .dirty ∨ (e.st = .owned ∧ agOf x e.own line = .d) ∨ (mcOf x c).wq.any (fun q => q.line == line) then x
  else deliverFixed x line (eccFixed x line (readErrs o) dev)

/-- A UE, a mark or a late line found by a read: counted, logged and raised; a retired bank and late data have a source of their own
(12 R370, R380, 13 R387). -/
def foundBad (s : State) (u : UnitId) (c : Fin 12) (line : Nat) (mark : BitVec 8) (synd : Nat) (scrub : Bool) : State :=
  let s := foundUe s u c line mark synd scrub
  if mark = 3 then raiseUnitFree s u (0x150 + c) else if mark = 4 then raiseUnitFree s u (0x130 + c) else s

/-- READ_RETURN (12 R368, R370, 13 R386, R387, R392): the oldest issued read returns its line. -/
def execReadReturn (u : UnitId) (c : Fin 12) (o : DramRead) (margin : Bool) (s : State) : Host.Outcome State Fault Refusal :=
  let x := getUnit s u
  match (mcOf x c).issued with
  | [] => .next s
  | r :: rest =>
    let s := modUnit s u (fun x => modMc x c (fun m => { m with issued := rest }))
    let s := if margin then raiseUnitFree s u (0x120 + c) else s
    match (if r.port == 7 && eccTesting x c && bitOf (mcReg x c 0x800) 1 && !r.retired && !(mcOf x c).late then o else .late) with
    | .data errs => .next (modUnit s u (fun x => eccTestRead x c r.line errs))
    | .late =>
      match readOutcome x c r.line r.retired o with
      | .clean => .next s
      | .ce dev synd => .next (foundCe (modUnit s u (fun x => deliverCe x c r.line dev o)) u c r.line dev synd false)
      | .ue synd => .next (foundBad (modUnit s u (fun x => poisonLine x r.line 1)) u c r.line 0 synd false)
      | .mark m synd => .next (foundBad (modUnit s u (fun x => poisonLine x r.line m)) u c r.line m synd false)
      | .late => .next (foundBad (modUnit s u (fun x => poisonLine x r.line 4)) u c r.line 4 (markSynd 4) false)

/-- The refresh interval of a channel in fabric cycles (12 R375): FINE halves it. -/
def refInterval (x : UnitState) (c : Fin 12) : Nat :=
  let w := mcReg x c 0x0C0
  if bitOf w 17 then bitsOf w 0 16 / 2 else bitsOf w 0 16

/-- REFRESH_SLOT (12 R375, R377, R378, R381): at a multiple of 2 × INTERVAL every logical rank is refreshed: rows are closed and ranks
awake. A channel in a frequency change is covered by self-refresh. -/
def execRefreshSlot (u : UnitId) (ucc : Nat) (s : State) : Host.Outcome State Fault Refusal :=
  match timeTo s u ucc with
  | none => .next s
  | some s =>
    .next (modUnit s u (fun x => (List.finRange 12).foldl (fun x c =>
      let n := 2 * refInterval x c
      if n = 0 ∨ (ucc - (mcOf x c).refBase) % n ≠ 0 ∨ bitsOf (mcReg x c 0x018) 0 3 ≠ 2 ∨ (mcOf x c).fchgHold then x else
      let x := setMcReg x c 0x018 (withBit (mcReg x c 0x018) 16 false)
      modMc x c (fun m => { m with openRow := [], pd := 0 })) x))

/-- RANK_POWER_DOWN (12 R378): with PD = 1 a rank without a queued request enters power-down. -/
def execRankPowerDown (u : UnitId) (c : Fin 12) (rank : Fin 4) (s : State) : Host.Outcome State Fault Refusal :=
  let x := getUnit s u
  if !bitOf (mcReg x c 0x0D0) 0 || bitsOf (mcReg x c 0x018) 0 3 != 2 || (queued (mcOf x c)).any (fun r => bankSlot r.bank == rank.val) then .next s
  else .next (modUnit s u (fun x =>
    let x := modMc x c (fun m => { m with
      pd := m.pd ||| BitVec.ofNat 4 (2 ^ rank.val), openRow := tabDrop (fun b => bankSlot b == rank.val) m.openRow })
    setMcReg x c 0x018 (withBit (mcReg x c 0x018) 16 true)))

/-- A channel at the end of its hold (12 R379): ready it resumes; else it delivers poisoned data until it is. -/
def holdEnd (u : UnitId) (ready : BitVec 12) (s : State) (c : Fin 12) : State :=
  let m := mcOf (getUnit s u) c
  if !m.fchgHold && !m.late then s
  else if ready.getLsbD c then
    modUnit s u (fun x => setMcReg (modMc x c (fun m => { m with fchgHold := false, late := false })) c 0x018 (withBits (mcReg x c 0x018) 0 3 2))
  else if m.late then s
  else
    let s := modUnit s u (fun x => setMcReg (modMc x c (fun m => { m with fchgHold := false, late := true })) c 0x018 (withBits (mcReg x c 0x018) 0 3 2))
    raiseUnitFree s u (0x140 + c)

/-- FCHG_HOLD_END (12 R379); given again, it says which late channels have become ready. -/
def execFchgHoldEnd (u : UnitId) (ready : BitVec 12) (s : State) : Host.Outcome State Fault Refusal :=
  .next ((List.finRange 12).foldl (holdEnd u ready) s)

/-- The positions in q that a mask may hold besides its own bit (12 R360): SUB, H, RANK, DIMM and ROW. -/
def hashFree (x : UnitState) (c : Fin 12) : List Nat :=
  let oSub := wBg x c + 2
  let oH := oSub + wSub x c
  let oRank := oH + 1 + wCid x c
  let oDimm := oRank + wRank x c
  let oRow := oDimm + wDimm x c
  (if wSub x c = 1 then [oSub] else []) ++ [oH] ++ (if wRank x c = 1 then [oRank] else []) ++ (if wDimm x c = 1 then [oDimm] else [])
    ++ (List.range (wRow x c)).map (fun i => oRow + i)

/-- A mask meets 12 R360 for the positional bit `k`; the mask of an absent bit is zero. -/
def maskOk (x : UnitState) (c : Fin 12) (o : Nat) (k : Option Nat) : Bool :=
  let m := mcReg x c o
  match k with
  | none => m == 0
  | some k =>
    bitOf m (12 + k) && (bitList m 64).all (fun b => b == 12 + k || (hashFree x c).contains (b - 12) && decide (12 ≤ b))

/-- The masks of a channel meet 12 R360. -/
def masksOk (x : UnitState) (c : Fin 12) : Bool :=
  let oCid := wBg x c + 2 + wSub x c + 1
  (List.range 3).all (fun i => maskOk x c (0x048 + 8 * i) (if i < wBg x c then some i else none)) &&
  (List.range 2).all (fun i => maskOk x c (0x020 + 8 * i) (some (wBg x c + i))) &&
  (List.range 3).all (fun i => maskOk x c (0x030 + 8 * i) (if i < wCid x c then some (oCid + i) else none))

/-- MC_GEOM names a geometry of 12 R356, R357: 1 or 2 DIMMs, known rates, 16 to 256 GiB a DIMM. -/
def geomOk (x : UnitState) (c : Fin 12) : Bool :=
  let g := mcReg x c 8
  let rates := if mcDdr4 x c then 3 else 4
  let dimm := (if mcDdr4 x c then 16 else 32) * 2 ^ bitsOf g 5 1 * 2 ^ bitsOf g 2 1 * 2 ^ bitsOf g 3 2
  (bitsOf g 0 2 == 1 || bitsOf g 0 2 == 2) && decide (bitsOf g 8 3 < rates) && decide (bitsOf g 12 3 < rates) && decide (dimm ≤ 256)

/-- The code of 12 R373 with which a bring-up fails; 0 when it passes. -/
def bringupFail (x : UnitState) (c : Fin 12) (spdOk sweepOk eyeOk fchgOk : Bool) (rt : BitVec 8) : Nat :=
  let datum := bitOf (mcReg x c 0) 2
  if !spdOk || !geomOk x c then 1
  else if !masksOk x c then 2
  else if datum && !sweepOk then 3
  else if !datum && !eyeOk then 4
  else if bitsOf (mcReg x c 0x010) 0 8 < rt.toNat + bitsOf (mcReg x c 0) 8 4 then 5
  else if bitOf (mcReg x c 0x0D0) 1 && !fchgOk then 6 else 0

/-- The eye edges that a datum channel's sweep records for its rank slots (12 R371, R382): free values, with VALID set. -/
def sweepRegs (u : UnitId) (c : Fin 12) (s : State) : State :=
  let slots := (List.range 4).filter (fun r => decide (r / 2 ≤ wDimm (getUnit s u) c ∧ r % 2 ≤ wRank (getUnit s u) c))
  let lanes := if mcDdr4 (getUnit s u) c then 9 else 10
  slots.foldl (fun s r => (List.range lanes).foldl (fun s l =>
    let (w, s) := nextFree s
    modUnit s u (fun x => setMcReg x c (0x600 + 8 * (10 * r + l)) (w &&& 0x03FF03FF03FF03FF ||| 0x80000000))) s) s

/-- CHANNEL_BRINGUP (12 R369 to R373): the channel is READY, or FAILED with the code. -/
def execChannelBringup (u : UnitId) (c : Fin 12) (spdOk sweepOk eyeOk fchgOk : Bool) (rt : BitVec 8) (s : State) :
    Host.Outcome State Fault Refusal :=
  let x := getUnit s u
  if bitsOf (mcReg x c 0x018) 0 3 ≠ 1 then .next s else
  let code := bringupFail x c spdOk sweepOk eyeOk fchgOk rt
  let datum := bitOf (mcReg x c 0) 2
  let s := if datum && (code == 0 || decide (4 ≤ code)) then sweepRegs u c s else s
  let w := BitVec.ofNat 64 ((if code = 0 then 2 else 5) + 2 ^ 4 * code + 2 ^ 8 * (if code = 0 ∨ 5 ≤ code then rt.toNat else 0))
  .next (modUnit s u (fun x => setMcReg x c 0x018 w))

/-- A line counted by a scrub run, which ends with its last line (13 R394, R395). -/
def scrubNext (s : State) (u : UnitId) (r : ScrubRun) (ce ue : Bool) (addr : Nat) : State :=
  let r := { r with
    lines := r.lines + 1, ce := r.ce + bit ce, ue := r.ue + bit ue
    firstUe := if ue && r.firstUe.isNone then some addr else r.firstUe }
  let s := modUnit s u (fun x => { x with mem := { x.mem with scrub := some r } })
  if r.len ≤ 64 * r.lines then scrubFinish (modUnit s u endScrub) else s

/-- A scrub read of DRAM (13 R394): a CE is rewritten corrected, a UE or mark unchanged; the content is as it was. -/
def scrubDram (s : State) (u : UnitId) (r : ScrubRun) (addr : Nat) (o : DramRead) : State :=
  let x := getUnit s u
  let line := addr / 64
  let c := lineChan line
  if bankRetired x line then scrubNext s u r false false addr else
  match readOutcome x c line false o with
  | .clean => scrubNext s u r false false addr
  | .ce dev synd =>
    let s := modUnit s u (fun x => rewriteFixed (deliverCe x c line dev o) line (eccFixed x line (readErrs o) dev))
    scrubNext (foundCe s u c line dev synd true) u r true false addr
  | .ue synd => scrubNext (foundBad s u c line 0 synd true) u r false true addr
  | .mark m synd => scrubNext (foundBad s u c line m synd true) u r false true addr
  | .late => scrubNext (foundBad s u c line 4 (markSynd 4) true) u r false true addr

/-- A scrub read of the fieldbook (13 R394, R401, R403). -/
def scrubFb (s : State) (u : UnitId) (r : ScrubRun) (addr : Nat) (o : FbRead) : State :=
  let off := addr - fbFirst
  let bad := fbUnreadable (getUnit s u) off 64
  match (if bad then .ue else o) with
  | .clean => scrubNext s u r false false addr
  | .ce =>
    let s := modUnit s u (fun x => fbLog { x with fb := { x.fb with ce := satUp x.fb.ce true } } 0 off)
    scrubNext (raiseUnitFree s u 0x210) u r true false addr
  | .ue =>
    let s := modUnit s u (fun x => fbLog { x with fb := { x.fb with ue := satUp x.fb.ue true } } 1 off)
    scrubNext s u r false true addr

/-- SCRUB_LINE (13 R394): the next line of the run in address order; `o` is what a DRAM read brings, `f` what a fieldbook read finds. -/
def execScrubLine (u : UnitId) (o : DramRead) (f : FbRead) (s : State) : Host.Outcome State Fault Refusal :=
  let x := getUnit s u
  match x.mem.scrub with
  | none => .next s
  | some r =>
    if r.ended || !x.executing || x.dropped || x.held then .next s else
    let addr := r.base + 64 * r.lines
    .next (if isFbAddr addr then scrubFb s u r addr f else scrubDram s u r addr o)

/-- REFRESH_FINE_CHANGE (12 R375): the firmware changes FINE in every controller through the staked-write path. -/
def execRefreshFineChange (hot : Bool) (s : State) : Host.Outcome State Fault Refusal :=
  .next ((List.finRange 12).foldl (fun s c =>
    let w := mcReg (foreState s) c 0x0C0
    if bitOf w 17 = hot then s else
    let v := withBit w 17 hot
    if isOff s then applyBody (applyBody s .u0 0 0 (.rws (.mcRef c) v) .discard) .u1 0 0 (.rws (.mcRef c) v) .discard
    else issueFw s none (.rws (.mcRef c) v)) s)

end Sys2Proof.Machine
end

