-- ==== Sys2Proof/Machine/KeyOps.lean ====
section
/-! DEFINITION. The key store's commands: attributes, AES Key Wrap, the root, zeroisation (14 R407 to R411, 16 R482). -/
namespace Sys2Proof.Machine

/-- The root as the key store finds it (16 R482): one copy serves where the other has failed. -/
def rootOf (s : State) : Option (BitVec 256) := match s.keys.root0 with | some k => some k | none => s.keys.root1

/-- The bytes of a key on the bus of AES Key Wrap: 32 for AES-256, else 24, a shorter key filled with zeros. -/
def wrapLen (alg : Nat) : Nat := if alg = 3 then 32 else 24

/-- A list of bytes in words of 8. -/
def eights : Nat → List Byte → List (List Byte)
  | 0, _ => []
  | n + 1, bs => bs.take 8 :: eights n (bs.drop 8)

/-- One pass of AES Key Wrap over the semiblocks: `t` counts the steps (NIST SP 800-38F). -/
def kwPass (ks : List (List Byte)) : Nat → List Byte → List (List Byte) → List Byte × List (List Byte)
  | _, a, [] => (a, [])
  | t, a, r :: rs =>
    let b := aesEncK ks (a ++ r)
    let (a', rs') := kwPass ks (t + 1) (xorBytes (b.take 8) (beBytes 8 t)) rs
    (a', b.drop 8 :: rs')

/-- AES Key Wrap of semiblocks: six passes. -/
def kwRun (ks : List (List Byte)) (n : Nat) : Nat → Nat → List Byte → List (List Byte) → List Byte × List (List Byte)
  | 0, _, a, rs => (a, rs)
  | k + 1, t, a, rs => let (a, rs) := kwPass ks t a rs; kwRun ks n k (t + n) a rs

/-- A key wrapped under a 256-bit key (16 R482). -/
def keyWrap (kek : BitVec 256) (bs : List Byte) : List Byte :=
  let rs := eights (bs.length / 8) bs
  let (a, rs) := kwRun (aesKeys (beBytes 32 kek.toNat)) rs.length 6 1 (List.replicate 8 0xA6) rs
  a ++ rs.flatten

/-- One pass of AES Key Unwrap over the semiblocks, the last one first. -/
def kuPass (ks : List (List Byte)) : Nat → List Byte → List (List Byte) → List Byte × List (List Byte)
  | _, a, [] => (a, [])
  | t, a, r :: rs =>
    let b := aesDecK ks (xorBytes a (beBytes 8 t) ++ r)
    let (a', rs') := kuPass ks (t - 1) (b.take 8) rs
    (a', b.drop 8 :: rs')

/-- AES Key Unwrap: six passes over the reversed semiblocks. -/
def kuRun (ks : List (List Byte)) (n : Nat) : Nat → Nat → List Byte → List (List Byte) → List Byte × List (List Byte)
  | 0, _, a, rs => (a, rs)
  | k + 1, t, a, rs => let (a, rs) := kuPass ks t a rs; kuRun ks n k (t - n) a rs

/-- A wrapped key opened; none where the integrity check fails. -/
def keyUnwrap (kek : BitVec 256) (bs : List Byte) : Option (List Byte) :=
  let n := bs.length / 8 - 1
  let (a, rs) := kuRun (aesKeys (beBytes 32 kek.toNat)) n 6 (6 * n) (bs.take 8) (eights n (bs.drop 8)).reverse
  if a = List.replicate 8 0xA6 then some rs.reverse.flatten else none

/-- A key left-aligned in 256 bits from its bytes. -/
def keyOf (bs : List Byte) : BitVec 256 := BitVec.ofNat 256 (beNat (bs ++ List.replicate (32 - bs.length) 0))

/-- A key drawn from TRNG words, cut to its algorithm's length (16 R482). -/
def drawnKey (alg : Nat) (trng : List Word) : BitVec 256 := keyOf (keyBytes alg (keyOf ((trng.take 4).flatMap (fun w => beBytes 8 w.toNat))))

/-- A slot filled with a new key (16 R482): CTR starts at 0; a slot with PERSIST is stored in flash. -/
def fillSlot (s : State) (n : Nat) (attrs : Word) (key : BitVec 256) : State :=
  let k : KeySlot := { attrs := attrs, key := key }
  let s := setSlot s n k
  { s with keys := { s.keys with
    marks := tabSet (fun _ => 0) s.keys.marks n 0
    flash := tabSet (fun _ => ({} : KeySlot)) s.keys.flash n (if bitOf attrs 21 then k else {}) } }

/-- A slot cleared with its flash copy. -/
def clearSlot (s : State) (n : Nat) : State :=
  let s := setSlot s n {}
  { s with keys := { s.keys with
    marks := tabSet (fun _ => 0) s.keys.marks n 0, flash := tabSet (fun _ => ({} : KeySlot)) s.keys.flash n {} } }

/-- Zeroisation (16 R482, 14 R411): the roots, every slot, the key-bus log, the flash copy of the root, and every hidden key; the
module checkstops by ZEROISE. The slot copies in flash go with the command; after the hardwired path Sahya erases them at its next
start (17 R502). -/
def zeroise (s : State) (command : Bool) : State :=
  let s := { s with keys := { flash := if command then [] else s.keys.flash, marks := if command then [] else s.keys.marks } }
  raiseFree (modBoth s cipherDown) 0x00C (foreState s).ucc

end Sys2Proof.Machine
end

