-- ==== Sys2Proof/Machine/MailRows.lean ====
section
/-! DEFINITION. The mailbox rows: accesses that reach a channel at the service die, its binding, the lock, function level reset (16 R461
to R465, R475). -/
namespace Sys2Proof.Machine

/-- A MID reaches the channels: a PCIe function through BAR0, which needs the service die and so phase 2 or recovery (17 R501, 18
R511). -/
def mbxReaches (s : State) (mid : Nat) : Bool :=
  !(decide (0x10 ≤ mid ∧ mid ≤ 0x13)) || (s.boot.recovery || decide (2 ≤ s.pow.phase)) && !s.sahya.lockStop

/-- A write by a MID to an offset of a channel's page as a row: a reserved bit has no given effect (00 R15). -/
def mbxRow (s : State) (n : Fin 64) (mid : BitVec 16) (off : Nat) (w : Word) : Host.Outcome State Fault Refusal :=
  if !mbxReaches s mid.toNat then .next s
  else if ctlBadBits (.mbx n off) w then .fault .reservedWrite
  else .next (mbxWrite s n mid.toNat off w)

/-- MBX_DATA_WRITE (16 R461). -/
def execMbxDataWrite (n : Fin 64) (mid : BitVec 16) (i : Fin 16) (w : Word) (s : State) : Host.Outcome State Fault Refusal :=
  mbxRow s n mid (8 * i.val) w

/-- MBX_SEND (16 R461). -/
def execMbxSend (n : Fin 64) (mid : BitVec 16) (w : Word) (s : State) : Host.Outcome State Fault Refusal := mbxRow s n mid 0x80 w

/-- MBX_TAKE (16 R461): TAKE alone. -/
def execMbxTake (n : Fin 64) (mid : BitVec 16) (s : State) : Host.Outcome State Fault Refusal := mbxRow s n mid 0x88 1

/-- MBX_RECALL (16 R461): RECALL alone. -/
def execMbxRecall (n : Fin 64) (mid : BitVec 16) (s : State) : Host.Outcome State Fault Refusal := mbxRow s n mid 0x88 2

/-- MBX_STATUS_CLEAR (16 R464). -/
def execMbxStatusClear (n : Fin 64) (mid : BitVec 16) (w : Word) (s : State) : Host.Outcome State Fault Refusal := mbxRow s n mid 0x90 w

/-- The fields of MBX_BIND that may be bound (16 R465): with EN = 1, two different MIDs, both known. -/
def bindTaken (w : Word) : Bool :=
  !bindEn w || (decide (bindMid w .a ≠ bindMid w .b) && midKnown (bindMid w .a) && midKnown (bindMid w .b))

/-- A write of MBX_BIND (16 R465): through the staked-write path to both units and the authoritative binding; at once to all three while no
unit executes. -/
def bindWrite (s : State) (n : Fin 64) (w : Word) : State :=
  if s.mail.lock || !bindTaken w then s
  else if isOff s then cfgBind (cfgBind s .u0 n w) .u1 n w
  else issueSvc s (some (boundaryStamp s)) (.cfg (.mbxBind n w))

/-- MBX_BIND_WRITE (16 R465). -/
def execMbxBindWrite (n : Fin 64) (w : Word) (s : State) : Host.Outcome State Fault Refusal :=
  if bitsOf w 49 15 ≠ 0 then .fault .reservedWrite else .next (bindWrite s n w)

/-- A write of MBX_LOCK (16 R465, 00 R14): the first since reset takes effect. -/
def lockWrite (s : State) (w : Word) : State :=
  if s.mail.lockWritten then s else { s with mail := { s.mail with lock := bitOf w 0, lockWritten := true } }

/-- MBX_LOCK_WRITE (16 R465). -/
def execMbxLockWrite (w : Word) (s : State) : Host.Outcome State Fault Refusal :=
  if bitsOf w 1 63 ≠ 0 then .fault .reservedWrite else .next (lockWrite s w)

/-- A message that a MID is composing, or has sent and that is not taken, is recalled (16 R475). -/
def recallOf (mid : Nat) (s : State) (n : Fin 64) : State :=
  let m := mbxOf s n
  match midSide m mid with
  | none => s
  | some sd => if m.st = .composing sd ∨ m.st = .full sd then mbxAccess s n mid mbxRecallState else s

/-- FUNCTION_LEVEL_RESET (16 R475): bindings are unchanged. -/
def execFunctionLevelReset (fn : Fin 4) (s : State) : Host.Outcome State Fault Refusal :=
  .next ((List.finRange 64).foldl (recallOf (0x10 + fn.val)) s)

end Sys2Proof.Machine
end

