-- ==== Sys2Proof/Machine/ReconOps.lean ====
section
/-! DEFINITION. Reconciliation of the two fieldbook stacks (05 R164) and its report (16 R548). -/
namespace Sys2Proof.Machine

/-- A stack can be read, and has FORMAT 1 (05 R164). It is unreadable where its superblock is. -/
def stackGood (x : UnitState) : Bool := !fbUnreadable x 0 32 && bitsOf (fbWord x 0) 0 16 == 1

/-- Bytes put into a stack by firmware, outside a unit's own writes. -/
def stackPut (x : UnitState) (off : Nat) (ws : List Word) : UnitState :=
  let v := tabSetList byteDef x.fb.view off (wordsBytes ws)
  { x with fb := { x.fb with view := v, mem := v } }

/-- EPOCH and LSTATE as FBK_STATUS shows them follow the superblock (05 R151). -/
def stackShown (x : UnitState) : UnitState :=
  { x with fb := { x.fb with epoch := BitVec.ofNat 32 (bitsOf (fbWord x 8) 0 32), lstate := BitVec.ofNat 2 (bitsOf (fbWord x 8) 32 2) } }

/-- One stack's contents written over another's. -/
def stackCopy (a x : UnitState) : UnitState :=
  stackShown { x with fb := { x.fb with mem := a.fb.view, view := a.fb.view, bad := [], poison := a.fb.poison } }

/-- Both stacks take a stack's contents. -/
def stacksTo (s : State) (a : UnitState) : State := modBoth s (stackCopy a)

/-- The word of a report: CASE, PENDING, FROM, BOOKS (16 R548). -/
def reconHead (case_ : Nat) (pending from1 : Bool) (books : Nat) : Word :=
  BitVec.ofNat 64 (case_ + 8 * bit pending + 16 * bit from1 + 2 ^ 8 * books)

/-- The report of a reconciliation recorded, with FB_CONFLICT. -/
def reconDone (s : State) (conflict : Bool) (ws : List Word) : State :=
  { s with sahya := { s.sahya with recon := ws, fbConflict := conflict } }

/-- A fresh format of a stack (05 R164). -/
def stackFresh (x : UnitState) : UnitState :=
  let keep := tabDrop (fun n => decide (n < 0x4100000)) x.fb.view
  let x := { x with fb := { x.fb with view := keep, mem := keep, bad := [], poison := [] } }
  stackShown (stackPut x 0 [1, 0, 0, 0])

/-- The books whose table entries differ between the stacks (05 R164 case 3). -/
def tableConflicts (a b : UnitState) : List Nat :=
  (List.range 256).filter (fun k => bookWord a k 0 != bookWord b k 0 || bookWord a k 1 != bookWord b k 1)

/-- Two copies of a record meet the tests of a kept record (05 R164). -/
def sameRecord (a b : UnitState) (off : Nat) : Bool :=
  fbWords a off 4 == fbWords b off 4 && recPayload a off == recPayload b off && recOk a off && recOk b off

/-- The records of a book that both stacks keep, from the higher of the two tails on. -/
def keptRecs (a b : UnitState) : List (Nat × Nat) → List (Nat × Nat) → List (Nat × Nat)
  | (n, o) :: r, (m, p) :: q => if n = m ∧ o = p ∧ sameRecord a b o then (n, o) :: keptRecs a b r q else []
  | _, _ => []

/-- What the walk of one book finds: the kept records, and the records of each stack that are voided. -/
structure BookWalk where
  book : Nat
  tail : Nat
  tailOff : Nat
  kept : List (Nat × Nat)
  void0 : List (Nat × Nat)
  void1 : List (Nat × Nat)
  deriving DecidableEq, Repr

/-- A book walked from the higher of the two TAIL_BSN values (05 R164 case 3). -/
def walkBook (a b : UnitState) (k : Nat) : BookWalk :=
  let t := if tailBsn a k < tailBsn b k then tailBsn b k else tailBsn a k
  let off := if tailBsn a k < tailBsn b k then bookTail b k else bookTail a k
  let ra := (liveRecs a k).filter (fun e => decide (t ≤ e.1))
  let rb := (liveRecs b k).filter (fun e => decide (t ≤ e.1))
  let kept := keptRecs a b ra rb
  { book := k, tail := t, tailOff := off, kept := kept, void0 := ra.drop kept.length, void1 := rb.drop kept.length }

/-- The record numbers that a walk voids in either stack. -/
def walkVoids (w : BookWalk) : List Nat := (w.void1.map (fun e => e.1)).foldl (fun l n => if n ∈ l then l else l ++ [n]) (w.void0.map (fun e => e.1))

/-- Those voided for a difference of content: both stacks hold the record (05 R164). -/
def walkDiverged (w : BookWalk) : Nat := (w.void0.filter (fun e => w.void1.any (fun f => f.1 == e.1))).length

/-- The word of a report for a walked book (16 R548). -/
def walkWord (w : BookWalk) : Word := BitVec.ofNat 64 (w.book + 2 ^ 8 * (walkVoids w).length + 2 ^ 32 * walkDiverged w)

/-- The lower of two words. -/
def minWord (a b : Word) : Word := if a.toNat ≤ b.toNat then a else b

/-- Bytes 32 to 63 of the kept records from the stack whose STATE is lower. -/
def keepRecs (a b : UnitState) (l : List (Nat × Nat)) (y : UnitState) : UnitState :=
  l.foldl (fun y e => stackPut y (e.2 + 32) (fbWords (if recState b e.2 < recState a e.2 then b else a) (e.2 + 32) 4)) y

/-- A kept OUT record settles the kept IN record that it links to, where that is still OPEN (05 R164). -/
def settleLinked (l : List (Nat × Nat)) (y : UnitState) : UnitState :=
  l.foldl (fun y e =>
    match (if recKind y e.2 = 2 then recLink y e.2 else none) with
    | none => y
    | some i =>
      if l.any (fun f => f.2 == i) && recKind y i == 1 && recState y i == 0 then
        stackPut y (i + 32) [recWord y i 4, recWord y i 5, BitVec.ofNat 64 (1 + 2 ^ 8 * bitsOf (recWord y e.2 3) 0 56), BitVec.ofNat 64 e.2]
      else y) y

/-- The records of a stack that are voided: STATE VOID (05 R152, R164). -/
def voidRecs (l : List (Nat × Nat)) (y : UnitState) : UnitState :=
  l.foldl (fun y e => stackPut y (e.2 + 32) [recWord y e.2 4, recWord y e.2 5, 2, recWord y e.2 7]) y

/-- A book reconciled in the stack that both take, `a`'s or `b`'s (05 R164 case 3). -/
def reconBook (a b : UnitState) (fromB : Bool) (y : UnitState) (w : BookWalk) : UnitState :=
  let k := w.book
  let y := settleLinked w.kept (keepRecs a b w.kept (voidRecs (if fromB then w.void1 else w.void0) y))
  let head := w.kept.foldl (fun _ e => ringStep y k e.2 (recSize (recLen y e.2))) w.tailOff
  let seq := if bookMirrored y k then 0 else minWord (bookWord a k 7) (bookWord b k 7)
  stackPut y (0x1000 + 64 * k + 16) [withBits (bookWord y k 2) 0 33 head, withBits (bookWord y k 3) 0 33 w.tailOff,
    BitVec.ofNat 64 (w.tail + w.kept.length), BitVec.ofNat 64 w.tail, minWord (bookWord a k 6) (bookWord b k 6), seq]

/-- The stations whose mark is listed in a stack. -/
def markedStns (x : UnitState) : List Nat :=
  (x.fb.view.filter (fun e => decide (0x100000 ≤ e.1 ∧ e.1 < 0x4100000))).foldl (fun l e =>
    let n := (e.1 - 0x100000) / 64
    if n ∈ l then l else l ++ [n]) []

/-- One above the highest SEQ of a station's kept records of a kind; 0 where there is none. -/
def keptNext (y : UnitState) (l : List (Nat × Nat)) (n kind : Nat) : Nat :=
  (l.filter (fun e => recKind y e.2 == kind && recStation y e.2 == n)).foldl (fun m e => if m ≤ recSeq y e.2 then recSeq y e.2 + 1 else m) 0

/-- A station's mark reconciled: each field the lower value, IN_NEXT and OUT_NEXT raised past the kept records (05 R164). -/
def reconMark (a b : UnitState) (kept : List (Nat × Nat)) (y : UnitState) (n : Nat) : UnitState :=
  let w := fun (i : Nat) => minWord (markWord a n i) (markWord b n i)
  let f := fun (p len : Nat) => if bitsOf (markWord a n 0) p len ≤ bitsOf (markWord b n 0) p len then bitsOf (markWord a n 0) p len
    else bitsOf (markWord b n 0) p len
  let w0 := BitVec.ofNat 64 (f 0 20 + 2 ^ 20 * f 20 6 + 2 ^ 26 * f 26 1 + 2 ^ 27 * f 27 8)
  let up := fun (v : Word) (m : Nat) => if v.toNat < m then BitVec.ofNat 64 m else v
  stackPut y (0x100000 + 64 * n) [w0, up (w 1) (keptNext y kept n 1), up (w 2) (keptNext y kept n 2), w 3]

/-- Case 3 of 05 R164. What the two stacks hold outside the books' records, the book table and the marks is taken from one of them. -/
def reconEqual (a b : UnitState) (fromB : Bool) : UnitState × List Word :=
  let books := (List.range 256).filter (fun k => bookKind a k == 1 || bookKind a k == 2)
  let ws := books.map (walkBook a b)
  let y := ws.foldl (reconBook a b fromB) (if fromB then b else a)
  let kept := ws.flatMap (fun w => w.kept)
  let stns := (markedStns b).foldl (fun l n => if n ∈ l then l else l ++ [n]) (markedStns a)
  let y := stns.foldl (reconMark a b kept) y
  (y, (ws.filter (fun w => !(walkVoids w).isEmpty)).map walkWord)

/-- A mirrored book's next mirror message carries RESTART (05 R157, R164). -/
def restartBooks (x : UnitState) : UnitState :=
  (List.range 256).foldl (fun x b => if bookMirrored x b then modMirror x b (fun k => { k with restart := true }) else x) x

/-- The reconciliation of a module start, by the first case that applies (05 R164). What case 3 leaves open is taken from the stack
that a free value names (log 8). -/
def reconcile (s : State) : State :=
  let a := s.u0
  let b := s.u1
  let cn := tableConflicts a b
  let ep := fun (x : UnitState) => bitsOf (fbWord x 8) 0 32
  let ls := fun (x : UnitState) => bitsOf (fbWord x 8) 32 2
  match stackGood a, stackGood b with
  | true, false => reconDone (stacksTo s a) false [reconHead 1 false false 0]
  | false, true => reconDone (stacksTo s b) false [reconHead 1 false true 0]
  | false, false => reconDone s true [reconHead 4 true false 0]
  | true, true =>
    if ep b < ep a then reconDone (stacksTo s a) false [reconHead 2 false false 0]
    else if ep a < ep b then reconDone (stacksTo s b) false [reconHead 2 false true 0]
    else if ls a = 1 ∧ ls b = 1 ∧ cn = [] then
      let (w, s) := nextFree s
      let (y, ws) := reconEqual a b (bitOf w 0)
      reconDone (modBoth (stacksTo s y) restartBooks) false (reconHead 3 false false ws.length :: ws)
    else if ls a = 1 ∧ ls b = 1 then
      reconDone s true (reconHead 4 true false (cn.length % 256) :: cn.map (fun k => BitVec.ofNat 64 (k + 2 ^ 56)))
    else reconDone s true [reconHead 4 true false 0]

/-- `STATION.RECONCILE` (05 R164): STACK 0 or 1 is copied over the other, 3 formats both; 2 reports only. -/
def reconcileBy (s : State) (stack : Nat) : State :=
  if stack = 0 then reconDone (stacksTo s s.u0) false [reconHead 4 false false 0]
  else if stack = 1 then reconDone (stacksTo s s.u1) false [reconHead 4 false true 0]
  else if stack = 3 then reconDone (modBoth s stackFresh) false [reconHead 5 false false 0]
  else s

end Sys2Proof.Machine
end

