-- ==== Sys2Proof/Machine/ImageOps.lean ====
section
/-! DEFINITION. Flash, images and their verification, the calibration set (16 R458, R476 to R478, R483, R486). -/
namespace Sys2Proof.Machine

/-- The bytes of an image slot: 0 A and 1 B in flash, 2 the staging buffer (16 R458, R472). -/
def slotByte (s : State) (slot off : Nat) : Byte :=
  if slot = 2 then tabGet byteDef s.boot.staging off else tabGet byteDef s.boot.flash (slot * 0x3000000 + off)

/-- The size of an image slot: 48 MiB, or 8 MiB of staging (16 R458). -/
def slotSize (slot : Nat) : Nat := if slot = 2 then 0x800000 else 0x3000000

/-- The owner certificate's bytes in flash (16 R458). -/
def ownerByte (s : State) (off : Nat) : Byte := tabGet byteDef s.boot.flash (0x6000000 + off)

/-- `n` bytes of an image from an offset. -/
def imgBytes (rd : Nat → Byte) (off n : Nat) : List Byte := (List.range n).map (fun k => rd (off + k))

/-- A little-endian field of an image's header. -/
def imgNum (rd : Nat → Byte) (off n : Nat) : Nat := leNat (imgBytes rd off n)

/-- KIND of an image (16 R476). -/
def imgKind (rd : Nat → Byte) : Nat := imgNum rd 6 1
/-- GEN. -/
def imgGen (rd : Nat → Byte) : Nat := imgNum rd 7 1
/-- SVN. -/
def imgSvn (rd : Nat → Byte) : Nat := imgNum rd 8 8
/-- BODYLEN. -/
def imgLen (rd : Nat → Byte) : Nat := imgNum rd 16 8
/-- The body, which begins at byte 32,768. -/
def imgBody (rd : Nat → Byte) : List Byte := imgBytes rd 32768 (imgLen rd)

/-- The key digest that GEN selects, and the generation whose revocation bit counts (16 R476 checks 2 and 3): the OTP's for kinds 0
to 2; the owner certificate's entry, when its mask permits the KIND, for kinds 3 to 5. -/
def imgKey (s : State) (rd : Nat → Byte) : Option (List Byte) × Nat :=
  let g := imgGen rd
  if imgKind rd ≤ 2 then (s.boot.digests[g]?, g)
  else
    let o := ownerByte s
    let mask := imgNum o (32768 + 56 * g + 48) 8
    (if mask / 2 ^ imgKind rd % 2 = 1 then some (imgBytes o (32768 + 56 * g) 48) else none, imgGen o)

/-- The checks of an image in their order (16 R476): OK, BAD_ARG, BAD_SIG 0x32, REVOKED 0x34, ROLLBACK 0x35. -/
def imageCode (s : State) (rd : Nat → Byte) (cap : Nat) : Nat :=
  let head := imgNum rd 0 4 = 0x56425645 ∧ imgNum rd 4 2 = 1 ∧ imgKind rd ≤ 5 ∧ imgGen rd ≤ 3
    ∧ (imgBytes rd 652 372).all (fun b => b == 0) ∧ 32768 + imgLen rd ≤ cap
    ∧ (imgKind rd = 0 → imgSvn rd ≤ 64) ∧ (2 ≤ imgKind rd → imgSvn rd = 0)
  if ¬ head then ccBadArg
  else
    let (dig, gen) := imgKey s rd
    if dig ≠ some (Config.sha384 (imgBytes rd 72 580)) then 0x32
    else if s.boot.revoked.getLsbD gen then 0x34
    else if imgKind rd = 0 ∧ imgSvn rd < s.boot.counter then 0x35
    else if Config.sha384 (imgBody rd) = imgBytes rd 24 48 ∧
        Config.rsaPssOk (imgBytes rd 72 512) (imgBytes rd 1024 512) (imgBytes rd 0 1024) ∧
        Config.slhDsaOk (imgBytes rd 588 64) (imgBytes rd 1536 29792) (imgBytes rd 0 1024) then ccOk
    else 0x32

/-- The check of a slot. -/
def slotCode (s : State) (slot : Nat) : Nat := imageCode s (slotByte s slot) (slotSize slot)

/-- A slot holds a valid firmware image (16 R477). -/
def slotBoots (s : State) (slot : Nat) : Bool := slotCode s slot == ccOk && imgKind (slotByte s slot) == 0

/-- The firmware of a slot runs (16 R477). -/
def runSlot (s : State) (slot : Fin 3) : State :=
  let rd := slotByte s slot.val
  { s with
    boot := { s.boot with running := some slot, runningSvn := imgSvn rd, runningGen := imgGen rd, recovery := false }
    sahya := { s.sahya with running := true } }

/-- Recovery (16 R477): channel 0 between PF0 and Sahya, EXP_CTL.EN set, the ROM serving three commands. -/
def enterRecovery (s : State) : State :=
  let s := setMbx s 0 { bind := BitVec.ofNat 64 (0x10 + 2 ^ 48) }
  { s with
    boot := { s.boot with running := none, recovery := true, staging := [] }
    sahya := { s.sahya with expEn := true, inbox := [], replies := [], batch := [] } }

/-- The boot ROM's choice (16 R477): the slot of the boot selector, then the other one, else recovery. -/
def romBoot (s : State) : State :=
  let a := s.boot.selector.val
  if slotBoots s a then runSlot s (Fin.ofNat 3 a)
  else if slotBoots s (1 - a) then runSlot s (Fin.ofNat 3 (1 - a))
  else enterRecovery s

/-- Bytes stored from words, little-endian. -/
def putWords (t : Tab Byte) (off : Nat) (ws : List Word) : Tab Byte := tabSetList byteDef t off (ws.flatMap (fun w => leBytes 8 w.toNat))

/-- `IMAGE.WRITE` (16 R478). -/
def writeSlot (s : State) (slot off : Nat) (ws : List Word) : State :=
  if slot = 2 then { s with boot := { s.boot with staging := putWords s.boot.staging off ws } }
  else { s with boot := { s.boot with flash := putWords s.boot.flash (slot * 0x3000000 + off) ws } }

/-- CRC-32 of bytes (IEEE 802.3), reflected. -/
def crc32Bit (c : BitVec 32) : BitVec 32 := if c.getLsbD 0 then (c >>> 1) ^^^ 0xEDB88320 else c >>> 1

/-- One byte into a CRC-32. -/
def crc32Byte (c : BitVec 32) (b : Byte) : BitVec 32 := (List.range 8).foldl (fun c _ => crc32Bit c) (c ^^^ b.setWidth 32)

/-- The CRC-32 of a list of bytes. -/
def crc32 (bs : List Byte) : BitVec 32 := ~~~(bs.foldl crc32Byte (BitVec.allOnes 32))

/-- A calibration set's last four bytes hold its CRC-32 (16 R483). -/
def calOk (t : Tab Byte) : Bool :=
  decide (leNat (tabGetList byteDef t 65532 4) = (crc32 (tabGetList byteDef t 0 65532)).toNat)

/-- The staging copy of the calibration set, loaded from flash at its first use after reset (16 R486). -/
def calStaged (s : State) : Tab Byte := s.boot.calStage.getD s.boot.cal

/-- A word of the calibration set in flash. -/
def calWord (s : State) (off : Nat) : Word := BitVec.ofNat 64 (leNat (tabGetList byteDef s.boot.cal off 8))

end Sys2Proof.Machine
end

