-- ==== Sys2Proof/Machine/SahyaArgs.lean ====
section
/-! DEFINITION. Sahya's checks of the arguments and conditions of each command (16 R469, R470 steps 5 and 6, R472 to R474, and the
owning rules). A check answers a completion code; OK lets the command act. Its arguments: the state, the parcel of an issuer without
SYSTEM, the argument words from word 1. Tables are checked as they stand in the active unit as the command executes (log 46). -/
namespace Sys2Proof.Machine

/-- Argument word `k`, counted from 1; a missing one reads zero (log 47). -/
def arg (a : List Word) (k : Nat) : Word := a.getD (k - 1) 0

/-- Argument word `k` as a number. -/
def num (a : List Word) (k : Nat) : Nat := (arg a k).toNat

/-- The code of the first condition that holds; OK where none does. -/
def firstCode : List (Bool × Nat) → Nat
  | [] => ccOk
  | (b, c) :: r => if b then c else firstCode r

/-- BAD_ARG unless a test holds. -/
def need (b : Bool) : Bool × Nat := (!b, ccBadArg)

/-- Argument `k` lies below a bound. -/
def below (a : List Word) (k n : Nat) : Bool × Nat := need (decide (num a k < n))

/-- A parcel argument with a revoke bit: [5:0] the parcel, [6] revokes (16 R472). -/
def grantee (a : List Word) (k : Nat) : Option (BitVec 6) :=
  if bitOf (arg a k) 6 then none else some (BitVec.ofNat 6 (bitsOf (arg a k) 0 6))

/-- The parcel exists. -/
def exists_ (s : State) (p : Nat) : Bool := (parcelOf (foreState s) p).isSome

/-- A unit's index names Unit 0 or Unit 1. -/
def unitNo (n : Nat) : UnitId := if n = 0 then .u0 else .u1

/-- A test on every book that is in use. -/
def anyBook (x : UnitState) (p : Nat → Bool) : Bool := (List.range 256).any (fun b => decide (bookKind x b ≠ 0) && p b)

/-- `LEVEL.CONFIG` (03 R54, R93). -/
def chkLevelConfig (_ : State) (_ : Option Nat) (a : List Word) : Nat :=
  firstCode [need (decide (2 ≤ num a 1 ∧ num a 1 ≤ 64)), below a 2 2]

/-- The units that a MODE of `LEVEL.START` names are initialised. -/
def startReady (s : State) (m : Nat) : Bool :=
  (m == 3 || s.u0.initialised) && (m == 2 || s.u1.initialised)

/-- `LEVEL.START` (03 R55, 16 R473). -/
def chkLevelStart (s : State) (_ : Option Nat) (a : List Word) : Nat :=
  firstCode [below a 1 4, (!isOff s, ccBusy), (!s.gen.run, 0x22), (!bitOf (foreState s).clo.status 16, 0x23),
    (!startReady s (num a 1), 0x24), (s.sahya.fbConflict, 0x25)]

/-- `LEVEL.RELEVEL` (04 R120, 16 R473). -/
def chkLevelRelevel (s : State) (_ : Option Nat) (a : List Word) : Nat :=
  firstCode [below a 1 16, need (decide (bitsOf (arg a 1) 1 2 ≠ 3)), need (decide (1 ≤ num a 2 ∧ num a 2 ≤ 400)),
    below a 3 (2 ^ 32), need (decide (1 ≤ num a 4 ∧ num a 4 ≤ 255)),
    need (isOff s || decide (unitNo (bitsOf (arg a 1) 0 1) ≠ foreUnit s)),
    (true, relevelCode s (unitNo (bitsOf (arg a 1) 0 1)) (bitsOf (arg a 1) 1 2))]

/-- `LEVEL.CANCEL` (04 R120): LATE once the freeze has begun. -/
def chkLevelCancel (s : State) (_ : Option Nat) (_ : List Word) : Nat := firstCode [(decide (5 ≤ relevelPhase s), 0x2B)]

/-- `LEVEL.BENCH` (16 R472). -/
def chkLevelBench (_ : State) (_ : Option Nat) (a : List Word) : Nat :=
  firstCode [below a 1 16, need (decide (1 ≤ num a 2 ∧ num a 2 ≤ 16)), below a 3 3]

/-- A command without arguments or conditions. -/
def chkNone (_ : State) (_ : Option Nat) (_ : List Word) : Nat := ccOk

/-- `LEVEL.DEBUG` (16 R472). -/
def chkLevelDebug (_ : State) (_ : Option Nat) (a : List Word) : Nat := firstCode [below a 1 2, below a 2 (2 ^ 48)]

/-- `CLOSURE.CONFIG` (04 R128). -/
def chkClosureConfig (_ : State) (_ : Option Nat) (a : List Word) : Nat :=
  firstCode [below a 1 2, below a 2 3, below a 3 256, below a 4 65536]

/-- `CLOSURE.INJECT` (04 R105). -/
def chkClosureInject (_ : State) (_ : Option Nat) (a : List Word) : Nat := firstCode [below a 1 16, below a 2 2]

/-- `CHAIN.START` (16 R473, 02 R45, R50): a running follower without SYNC_LOCK re-locks. -/
def chkChainStart (s : State) (_ : Option Nat) (_ : List Word) : Nat :=
  let x := foreState s
  let fol := syncMode s == 2
  let lead := later (bitsOf x.chn.sync 4 4) 1
  if s.gen.run then (if fol && !bitOf x.chn.status 2 then ccOk else ccBusy)
  else firstCode [(syncMode s == 3 || (fol && decide (lead ≤ bitsOf x.chn.sync 8 4)), 0x21)]

/-- `PARCEL.CREATE` (15 R444, R445). -/
def chkParcelCreate (s : State) (_ : Option Nat) (a : List Word) : Nat :=
  firstCode [below a 1 64, below a 2 2, below a 3 (2 ^ 52), need (decide (num a 3 % 4096 = 0)), (exists_ s (num a 1), ccExists)]

/-- The parcel holds a core, a station grant, a cipher page, a compression channel, a book or a map entry (15 R444). -/
def parcelHolds (x : UnitState) (p : Nat) : Bool :=
  let mine := fun (o : Option (BitVec 6 × BitVec 16)) => match o with | some (q, _) => q.toNat == p | none => false
  (List.range 48).any (fun l => (unitCore x l).parcel.toNat == p)
    || x.trv.grants.any (fun e => match e.2 with | some q => q.toNat == p | none => false)
    || x.cph.pages.any (fun e => mine e.2.owner)
    || (x.cph.cmp.get 0).chans.any (fun e => mine e.2.owner) || (x.cph.cmp.get 1).chans.any (fun e => mine e.2.owner)
    || anyBook x (fun b => bookParcel x b == p)
    || (match parcelOf x p with | some q => !q.map.isEmpty | none => false)

/-- `PARCEL.DESTROY` (15 R444). A parcel that does not exist is BAD_ARG (log 48). -/
def chkParcelDestroy (s : State) (_ : Option Nat) (a : List Word) : Nat :=
  firstCode [below a 1 64, need (exists_ s (num a 1)), (parcelHolds (foreState s) (num a 1), ccBusy)]

/-- `PARCEL.CORES` (15 R444). -/
def chkParcelCores (s : State) (_ : Option Nat) (a : List Word) : Nat :=
  firstCode [below a 1 64, below a 2 (2 ^ 48), below a 3 (2 ^ 48), need (exists_ s (num a 1)),
    ((foreState s).exe.spareRun.isSome || relevelPhase s == 5, ccBusy)]

/-- The flags of a map entry agree with its module segment (15 R441, R442). -/
def mapFits (x : UnitState) (w : Word) : Bool :=
  let m := bitsOf w 16 16
  let code := bitOf w 33
  let fb := bitOf w 34
  let dev := bitOf w 35
  if m < installed x / 2 ^ 36 then !fb && !dev && code == (segOf x m).code
  else if m = 0x0800 then fb && !code && !dev && !bitOf w 36
  else if m = 0x0C00 ∨ m = 0x0C01 then dev && !code && !fb && !bitOf w 36
  else false

/-- `PARCEL.MAP` (15 R439 to R441, R444). -/
def chkParcelMap (s : State) (_ : Option Nat) (a : List Word) : Nat :=
  let x := foreState s
  let w := arg a 3
  let m := bitsOf w 16 16
  let map := match parcelOf x (num a 1) with | some q => q.map | none => []
  firstCode [below a 1 64, below a 2 2, below a 3 (2 ^ 37), need (exists_ s (num a 1)),
    (num a 2 == 0 && !(bitOf w 32 && mapFits x w), ccBadArg), (num a 2 == 1, ccOk),
    (decide (m < installed x / 2 ^ 36) && !(segOf x m).acl.getLsbD (num a 1), ccNotPermitted),
    (map.any (fun e => e.pseg.toNat == bitsOf w 0 16), ccConflict), (decide (128 ≤ map.length), ccFull)]

/-- `PARCEL.SEGMENT` (15 R442). -/
def chkParcelSegment (s : State) (_ : Option Nat) (a : List Word) : Nat :=
  let x := foreState s
  let m := num a 1
  let names := fun (p : Nat) => match parcelOf x p with
    | some q => q.map.any (fun e => !e.fieldbook && !e.device && e.mseg.toNat == m)
    | none => false
  let cleared := (List.range 64).any (fun p => (segOf x m).acl.getLsbD p && !(arg a 2).getLsbD p && names p)
  let recoded := (segOf x m).code != (num a 3 == 1) && (List.range 64).any names
  firstCode [need (decide (m < installed x / 2 ^ 36)), below a 3 2, (cleared || recoded, ccBusy)]

/-- `PARCEL.RETIRE` (15 R443, R444). -/
def chkParcelRetire (s : State) (_ : Option Nat) (a : List Word) : Nat :=
  let x := foreState s
  let l := x.mem.retired
  firstCode [below a 1 2, need (decide (num a 2 < installed x / 4096)), need (num a 1 == 0 || l.contains (num a 2)),
    (num a 1 == 0 && decide (4096 ≤ l.length) && !l.contains (num a 2), ccFull)]

/-- `PARCEL.VECTOR` (10 R304, 16 R469): one logical core of the parcel. -/
def chkParcelVector (s : State) (plain : Option Nat) (a : List Word) : Nat :=
  firstCode [(match plain with | some p => decide (p ≠ num a 1) | none => false, ccNotPermitted), below a 1 64, below a 2 256,
    below a 3 48, need (exists_ s (num a 1) && (unitCore (foreState s) (num a 3)).parcel.toNat == num a 1)]

/-- The pages of a code image's body, 16 KiB each. -/
def codePages (s : State) : Nat := (imgLen (slotByte s 2) + 16383) / 16384

/-- `CODE.LOAD` (16 R481, R469): the image in the staging buffer, of KIND 3 or 4, and every frame in a code segment whose ACL holds the
parcel. -/
def chkCodeLoad (s : State) (plain : Option Nat) (a : List Word) : Nat :=
  let x := foreState s
  let k := imgKind (slotByte s 2)
  let frames := (List.range (codePages s)).all (fun i =>
    let m := (num a 2 + 16384 * i) / 2 ^ 36
    decide (m < installed x / 2 ^ 36) && (segOf x m).code && (segOf x m).acl.getLsbD (num a 1))
  firstCode [(match plain with | some p => decide (p ≠ num a 1) | none => false, ccNotPermitted), below a 1 64, below a 2 (2 ^ 52),
    need (decide (num a 2 % 16384 = 0)), (decide (slotCode s 2 ≠ ccOk), slotCode s 2), need (k == 3 || k == 4), need frames]

/-- `CODE.MPATCH` (10 R325). -/
def chkCodeMpatch (s : State) (_ : Option Nat) (_ : List Word) : Nat :=
  firstCode [(s.sahya.mcodePend, ccBusy), (decide (slotCode s 2 ≠ ccOk), slotCode s 2), need (imgKind (slotByte s 2) == 2),
    (true, match Config.patchImage (imgBody (slotByte s 2)) with
      | none => ccBadArg
      | some i => firstCode [need (decide (i.words.length ≤ 1024 ∧ i.entries.length ≤ 32)), (decide (i.romRev ≠ Config.romRev), 0x33)])]

/-- `STATION.GRANT` (05 R130). -/
def chkStationGrant (s : State) (_ : Option Nat) (a : List Word) : Nat :=
  let x := foreState s
  let inRange := fun (n : Nat) => decide (num a 1 ≤ n ∧ n < num a 1 + num a 2)
  let g := grantee a 3
  let busy := x.trv.stations.any (fun e => inRange e.1 && decide (e.2.st ≠ .closed))
  let owned := g.isSome && x.trv.grants.any (fun e => inRange e.1 && decide (e.2 ≠ none ∧ e.2 ≠ g))
  let quota := match g with
    | none => false
    | some p => decide (262144 < ((x.trv.quotas.filter (fun e => decide (e.1 ≠ p.toNat))).map (fun e => e.2)).sum + num a 4)
  firstCode [need (decide (num a 1 + num a 2 ≤ 2 ^ 20)), below a 3 128, below a 4 262145,
    need (match g with | some p => exists_ s p.toNat | none => true), (busy, ccBusy), (owned, 0x2C), (quota, 0x2D)]

/-- The station is granted to a parcel. -/
def grantedTo (x : UnitState) (n p : Nat) : Bool :=
  match tabGet (fun _ => (none : Grant)) x.trv.grants n with | some q => q.toNat == p | none => false

/-- `STATION.QUERY` (16 R469, R548). -/
def chkStationQuery (s : State) (plain : Option Nat) (a : List Word) : Nat :=
  firstCode [(match plain with | some p => !grantedTo (foreState s) (num a 1) p | none => false, ccNotPermitted), below a 1 (2 ^ 20)]

/-- A book's range lies in book space: 4 KiB aligned, of at least one page (05 R148, R553). -/
def bookRange (base pages : Nat) : Bool :=
  decide (base % 4096 = 0 ∧ 1 ≤ pages ∧ 0x04100000 ≤ base ∧ base + 4096 * pages ≤ 0x1E0000000)

/-- A range meets another book's range. -/
def bookClash (x : UnitState) (b base pages : Nat) : Bool :=
  anyBook x (fun k => decide (k ≠ b ∧ base < bookBase x k + bookSize x k ∧ bookBase x k < base + 4096 * pages))

/-- A book holds a live record, or the mark of a station that is not CLOSED names it (05 R553). -/
def bookBusy (x : UnitState) (b : Nat) : Bool :=
  (decide (bookKind x b ≠ 3) && !(liveRecs x b).isEmpty)
    || x.trv.stations.any (fun e => decide (e.2.st ≠ .closed) && stnBook e.2 == b && (stnJournal e.2 || stnMsink e.2))

/-- `STATION.BOOK` (05 R553, 16 R469). -/
def chkStationBook (s : State) (plain : Option Nat) (a : List Word) : Nat :=
  let x := foreState s
  let op := num a 1
  let b := num a 2
  let w0 := arg a 3
  let w1 := arg a 4
  let own := match plain with
    | none => true
    | some p => if op = 0 then bitsOf w0 2 6 == p else decide (bookKind x b ≠ 0) && bookParcel x b == p
  let pages := bitsOf w1 40 24
  let base := if op = 0 then bitsOf w1 0 33 else bookBase x b
  firstCode [(!own, ccNotPermitted), below a 1 3, below a 2 256,
    need (op != 0 || (decide (bitsOf w0 0 2 ≠ 0) && bitsOf w0 10 6 == 0 && bitsOf w0 60 4 == 0)),
    need (op == 2 || bitsOf w1 33 7 == 0),
    (op == 0 && decide (bookKind x b ≠ 0), ccExists), need (op == 0 || decide (bookKind x b ≠ 0)),
    need (op == 2 || bookRange base pages), (op != 2 && bookClash x b base pages, ccConflict), (op != 0 && bookBusy x b, ccBusy)]

/-- `STATION.MIRROR` (05 R160, 16 R469): a mirrored book. -/
def chkStationMirror (s : State) (plain : Option Nat) (a : List Word) : Nat :=
  let x := foreState s
  firstCode [(match plain with | some p => !(decide (bookKind x (num a 1) ≠ 0) && bookParcel x (num a 1) == p) | none => false,
    ccNotPermitted), below a 1 256, below a 2 2, need (bookMirrored x (num a 1))]

/-- A station pair of `STATION.TAKEOVER`: origin and local station (16 R472). -/
def pairOf (w : Word) : BitVec 20 × BitVec 20 := (BitVec.ofNat 20 (bitsOf w 0 20), BitVec.ofNat 20 (bitsOf w 20 20))

/-- A mirror message from the origin of a book has arrived within the last 1,024 chains (05 R162). -/
def originLive (x : UnitState) (b : Nat) : Bool :=
  match (mirrorOf x b).lastSeen with | some n => decide (x.cn ≤ n + 1024) | none => false

/-- `STATION.TAKEOVER` (05 R162, 16 R472). -/
def chkStationTakeover (s : State) (_ : Option Nat) (a : List Word) : Nat :=
  let x := foreState s
  let m := num a 1
  let j := num a 2
  let ps := a.drop 3
  let locals := ps.map (fun w => (pairOf w).2.toNat)
  firstCode [below a 1 256, below a 2 256, below a 3 2, need (ps.all (fun w => decide (w.toNat < 2 ^ 40))),
    need (bookKind x m == 2 && bookKind x j == 1 && bookParcel x m == bookParcel x j && (liveRecs x j).isEmpty),
    (locals.any (fun n => !grantedTo x n (bookParcel x j)), 0x2C), (locals.any (fun n => decide ((stnOf x n).st ≠ .closed)), ccBusy),
    (originLive x m, 0x2E)]

/-- `STATION.RECONCILE` (05 R164): it acts while no unit executes (log 49). -/
def chkStationReconcile (s : State) (_ : Option Nat) (a : List Word) : Nat :=
  firstCode [below a 1 4, need (decide (2 ≤ num a 1) || stackGood (getUnit s (unitNo (num a 1)))), (num a 1 != 2 && !isOff s, ccBusy)]

/-- `PATH.MODID` (01 R22): BUSY_LINKS while a native link is up. -/
def chkPathModid (s : State) (_ : Option Nat) (a : List Word) : Nat :=
  firstCode [below a 1 65536, (s.ports.any (fun e => e.2.conf && e.2.up && portNative e.2), 0x20)]

/-- A CFG word of `PATH.PORT` meets 06 R170 and R174 for a first lane. -/
def portCfgOk (p : Nat) (w : Word) : Bool :=
  let mode := bitsOf w 0 4
  let width := bitsOf w 4 2
  let fec := bitsOf w 6 2
  let mtu := bitsOf w 16 16
  let fits :=
    if mode = 0 then width == 0 && (fec == 0 || fec == 1)
    else if mode = 1 ∨ mode = 2 then width == 0 && decide (fec ≤ 2)
    else if mode = 3 ∨ mode = 4 then width == 1 && fec == 2
    else if mode = 5 then width == 2 && fec == 2
    else mode == 6 && decide (width ≤ 2) && fec == 0
  fits && decide (p % widthLanes width = 0) && decide (1500 ≤ mtu ∧ mtu ≤ 9000) && bitsOf w 12 4 == 0 && bitsOf w 32 32 == 0

/-- Two ports share a lane (06 R173). -/
def lanesMeet (p n q m : Nat) : Bool := decide (p < q + m ∧ q < p + n)

/-- A station's current path uses a port that a test names (06 R173). -/
def pathUses (x : UnitState) (f : Nat → Bool) : Bool :=
  anyStn x (fun _ t => match t.path with | some k => f (groupPath x (stnGroup t) k).port.val | none => false)

/-- `PATH.PORT` (06 R173, R174): with MCHI the port number and the multicast words alone are checked. -/
def chkPathPort (s : State) (_ : Option Nat) (a : List Word) : Nat :=
  let x := foreState s
  let p := num a 1
  let w := arg a 2
  let n := widthLanes (bitsOf w 4 2)
  let macs := (a.drop 4).all (fun w => decide (w.toNat < 2 ^ 48))
  let replaced := fun (q : Nat) => q == p || ((uPort x q).conf && lanesMeet p n q (widthLanes (bitsOf (uPort x q).cfg 4 2)))
  if bitOf w 11 then firstCode [below a 1 1024, need macs]
  else firstCode [below a 1 1024, need (portCfgOk p w), below a 3 (2 ^ 48), below a 4 (2 ^ 20), need macs,
    (pathUses x replaced, ccBusy)]

/-- `PATH.STATUS` (16 R548). -/
def chkPathStatus (_ : State) (_ : Option Nat) (a : List Word) : Nat := firstCode [below a 1 1024]

/-- `PATH.ADDR` (06 R177): IPV 0 for IPv4 and 1 for IPv6, as in R182. -/
def chkPathAddr (_ : State) (_ : Option Nat) (a : List Word) : Nat := firstCode [below a 1 256, below a 2 2]

/-- The path of two words of `PATH.GROUP` (06 R204). -/
def pathOfWords (w v : Word) : PathEntry :=
  pathWord1 { port := 0, valid := false, vlanp := false, vid := 0, nhmac := BitVec.ofNat 48 v.toNat } w

/-- The four paths of `PATH.GROUP`. -/
def groupPaths (a : List Word) : List PathEntry :=
  (List.range 4).map (fun k => pathOfWords (arg a (4 + 2 * k)) (arg a (5 + 2 * k)))

/-- `PATH.GROUP` (06 R204): every valid path of the group is of one transport. -/
def chkPathGroup (s : State) (_ : Option Nat) (a : List Word) : Nat :=
  let x := foreState s
  let other := (List.range 4).map (fun k => groupPath x (num a 1) (if num a 3 = 0 then 4 + k else k))
  let kinds := (((groupPaths a) ++ other).filter (fun e => e.valid)).map (fun e => bitsOf (uPort x e.port.val).cfg 0 4 == 6)
  let words := (List.range 4).all (fun k => decide (num a (4 + 2 * k) < 2 ^ 24 ∧ num a (5 + 2 * k) < 2 ^ 48))
  firstCode [need (decide (1 ≤ num a 1 ∧ num a 1 < 4096)), below a 2 2, below a 3 2, need words,
    need (kinds.all (fun b => b) || kinds.all (fun b => !b))]

/-- `PATH.LINK` (06 R203). -/
def chkPathLink (s : State) (_ : Option Nat) (a : List Word) : Nat :=
  let x := foreState s
  firstCode [need (decide (1 ≤ num a 1 ∧ num a 1 < 65536)), below a 2 (2 ^ 20),
    (decide (num a 1 ≠ x.trv.tvtPort.toNat) && anyStn x (fun _ t => stnTransport t == 0), ccBusy)]

/-- `KEY.INIT` (16 R482). -/
def chkKeyInit (s : State) (_ : Option Nat) (_ : List Word) : Nat := firstCode [((rootOf s).isSome, ccBusy)]

/-- The attributes of a new key: ALG 1 to 5, reserved bits zero, and with WRAP no use (16 R482). -/
def attrsOk (w : Word) : Bool :=
  decide (1 ≤ attrAlg w ∧ attrAlg w ≤ 5) && bitsOf w 22 10 == 0 && (!bitOf w 19 || (attrUse w == 0 && attrDuse w == 0))

/-- A key-encrypting slot for a parcel: AES-256, WRAP (16 R482). -/
def kekOk (s : State) (k par : Nat) : Bool :=
  let w := (slotOf s k).attrs
  attrAlg w == 3 && bitOf w 19 && attrParcel w == par

/-- `KEY.GENERATE`: words 1 and 3, here arguments 1 and 3. -/
def chkKeyGenerate (s : State) (_ : Option Nat) (a : List Word) : Nat :=
  firstCode [below a 1 16384, need (attrsOk (arg a 3)), (decide (attrAlg (slotOf s (num a 1)).attrs ≠ 0), 0x36), ((rootOf s).isNone, 0x3A)]

/-- The wrapped bytes of `KEY.IMPORT`: 40 for AES-256, else 32 (log 50); missing words read zero (log 47). -/
def importBlob (a : List Word) : List Byte :=
  ((a.drop 3).flatMap (fun (w : Word) => leBytes 8 w.toNat) ++ List.replicate 40 0).take (wrapLen (attrAlg (arg a 3)) + 8)

/-- `KEY.IMPORT`. -/
def chkKeyImport (s : State) (_ : Option Nat) (a : List Word) : Nat :=
  firstCode [below a 1 16384, below a 2 16384, need (attrsOk (arg a 3)), need (kekOk s (num a 2) (attrParcel (arg a 3))),
    (decide (attrAlg (slotOf s (num a 1)).attrs ≠ 0), 0x36), ((rootOf s).isNone, 0x3A),
    ((keyUnwrap (slotOf s (num a 2)).key (importBlob a)).isNone, 0x38)]

/-- `KEY.EXPORT`. -/
def chkKeyExport (s : State) (_ : Option Nat) (a : List Word) : Nat :=
  let w := (slotOf s (num a 1)).attrs
  firstCode [below a 1 16384, below a 2 16384, (attrAlg w == 0, 0x37), (!bitOf w 20, 0x39), need (kekOk s (num a 2) (attrParcel w))]

/-- `KEY.ATTR` and `KEY.DELETE`. -/
def chkKeySlot (s : State) (_ : Option Nat) (a : List Word) : Nat :=
  firstCode [below a 1 16384, (attrAlg (slotOf s (num a 1)).attrs == 0, 0x37)]

/-- `KEY.ZEROISE`, and `CAL.COMMIT`: the word 0x5A5A. -/
def chkMagic (_ : State) (_ : Option Nat) (a : List Word) : Nat := firstCode [need (num a 1 == 0x5A5A)]

/-- `CIPHER.PAGE` (14 R412). -/
def chkCipherPage (s : State) (_ : Option Nat) (a : List Word) : Nat :=
  firstCode [below a 1 1024, below a 2 128, below a 3 65536,
    need (match grantee a 2 with | some p => exists_ s p.toNat | none => true), ((pageOf (foreState s) (num a 1)).busy, ccBusy)]

/-- `CIPHER.CHANNEL` (14 R429, R412). -/
def chkCipherChannel (s : State) (_ : Option Nat) (a : List Word) : Nat :=
  firstCode [below a 1 2, below a 2 16, below a 3 128, below a 4 65536,
    need (match grantee a 3 with | some p => exists_ s p.toNat | none => true),
    ((cmpChan (foreState s) (Fin.ofNat 2 (num a 1)) (num a 2)).busy, ccBusy)]

/-- `CIPHER.LOCK` (14 R425). -/
def chkCipherLock (_ : State) (_ : Option Nat) (a : List Word) : Nat := firstCode [below a 1 2, below a 2 1024]

/-- `CIPHER.TEST` (14 R425): NOT_LOCKED. -/
def chkCipherTest (s : State) (_ : Option Nat) (_ : List Word) : Nat := firstCode [(!(foreState s).cph.lockEn, 0x31)]

/-- A controller of either unit is enabled. -/
def anyMcEn (s : State) : Bool := (List.finRange 12).any (fun c => mcEn s.u0 c || mcEn s.u1 c)

/-- The registers that `MEM.CONFIG` writes, in word order (16 R472). -/
def memConfigRegs : List Nat := [0x008, 0x010, 0x020, 0x028, 0x030, 0x038, 0x040, 0x048, 0x050, 0x058, 0x060, 0x0C0, 0x0C8, 0x0D0]

/-- A controller that is enabled holds another value in an RW register that `MEM.CONFIG` names (12 R383). -/
def memDiffers (x : UnitState) (a : List Word) : Bool :=
  (List.finRange 12).any (fun c => mcEn x c && (List.range 10).any (fun i => mcReg x c (memConfigRegs.getD i 0) != arg a (i + 1)))

/-- `MEM.CONFIG` (12 R360, R382, R383). -/
def chkMemConfig (s : State) (_ : Option Nat) (a : List Word) : Nat :=
  let bits := (List.range 14).all (fun i => (arg a (i + 1) &&& ~~~(BitVec.ofNat 64 (mcMask (memConfigRegs.getD i 0)))) == 0)
  let dpc := bitsOf (arg a 1) 0 2
  firstCode [need bits, need (dpc == 1 || dpc == 2), need (decide (32 ≤ bitsOf (arg a 2) 0 8)),
    need (!anyMcEn s || decide (bitsOf (arg a 12) 0 16 ≠ 0)), (memDiffers s.u0 a || memDiffers s.u1 a, ccBusy)]

/-- `MEM.BOARD` (12 R372): 160 bits of flight times. -/
def chkMemBoard (_ : State) (_ : Option Nat) (a : List Word) : Nat := firstCode [below a 1 12, below a 2 4, below a 5 (2 ^ 32)]

/-- `MEM.FREQ` (12 R379), and the commands with one flag. -/
def chkFlag (_ : State) (_ : Option Nat) (a : List Word) : Nat := firstCode [below a 1 2]

/-- `MEM.LOST` and `MEM.LOG` (16 R469): no clear for a parcel without SYSTEM. -/
def chkMemClear (_ : State) (plain : Option Nat) (a : List Word) : Nat :=
  firstCode [(plain.isSome && decide (num a 1 ≠ 0), ccNotPermitted), below a 1 2]

/-- A unit executes nothing, as MC_ECCTEST.EN asks (13 R391): not started, or dropped and not in a re-level. -/
def unitIdle (s : State) (u : UnitId) : Bool :=
  !(getUnit s u).executing && (match s.hub.relevel with | some r => decide (r.join ≠ u) | none => true)

/-- `MEM.ECCTEST` (13 R391). -/
def chkMemEcctest (s : State) (_ : Option Nat) (a : List Word) : Nat :=
  firstCode [below a 1 2, below a 2 12, below a 3 2, below a 4 2, (num a 3 == 1 && !unitIdle s (unitNo (num a 1)), ccBusy)]

/-- The lowest entry of MC_BANKRETIRE that is not VALID. -/
def retireSlot (x : UnitState) (c : Fin 12) : Option (Fin 8) :=
  (List.finRange 8).find? (fun i => !bitOf (mcReg x c (0x200 + 8 * i.val)) 0)

/-- `MEM.RETIRE` (13 R398). -/
def chkMemRetire (s : State) (_ : Option Nat) (a : List Word) : Nat :=
  firstCode [below a 1 12, need (bitOf (arg a 2) 0 && (arg a 2 &&& ~~~(BitVec.ofNat 64 (mcMask 0x200))) == 0),
    ((retireSlot (foreState s) (Fin.ofNat 12 (num a 1))).isNone, ccFull)]

/-- `MEM.CTL` (12 R383). -/
def chkMemCtl (s : State) (_ : Option Nat) (a : List Word) : Nat :=
  firstCode [need ((arg a 1 &&& ~~~(0xF01 : Word)) == 0), below a 2 65536, (anyMcEn s, ccBusy)]

/-- `MEM.TIMING` (12 R383). -/
def chkMemTiming (s : State) (_ : Option Nat) (a : List Word) : Nat :=
  let n := bitsOf (arg a 1) 16 5
  let vals := (a.drop 1).take n
  firstCode [need ((arg a 1 &&& ~~~(0x1F0F01 : Word)) == 0), need (decide (1 ≤ n ∧ n ≤ 13 ∧ bitsOf (arg a 1) 8 4 + n ≤ 16)),
    need (decide (vals.length = n) && vals.all (fun w => decide (1 ≤ w.toNat ∧ w.toNat < 65536))), (anyMcEn s, ccBusy)]

/-- `MEM.QOS` (12 R383). -/
def chkMemQos (_ : State) (_ : Option Nat) (a : List Word) : Nat := firstCode [below a 1 8, below a 2 65536, below a 3 65536]

/-- A scrub range (13 R393): 4 KiB multiples, within DRAM or within fieldbook memory. -/
def scrubRange (x : UnitState) (base len : Nat) : Bool :=
  decide (base % 4096 = 0 ∧ len % 4096 = 0 ∧ 0 < len)
    && (decide (base + len ≤ installed x) || decide (fbFirst ≤ base ∧ base + len ≤ fbFirst + 2 ^ 33))

/-- `SCRUB.RUN` (13 R393). -/
def chkScrubRun (s : State) (_ : Option Nat) (a : List Word) : Nat :=
  let x := foreState s
  firstCode [below a 1 (2 ^ 52), below a 2 (2 ^ 52), need (scrubRange x (num a 1) (num a 2)),
    (s.sahya.scrubTag.isSome || relevelPhase s == 5 || bitOf x.lvl.status 6, ccBusy)]

/-- The reactions of a `FAULT.CONFIG` are allowed for a source (17 R493). -/
def reactOk (n : Nat) (r : Nat) : Bool :=
  (r / 4 % 2 == 0 || (srcBlock n).isSome) && (r / 8 % 2 == 0 || (srcUnit n).isSome)

/-- `FAULT.CONFIG` (17 R503). -/
def chkFaultConfig (_ : State) (_ : Option Nat) (a : List Word) : Nat :=
  let first := bitsOf (arg a 1) 0 12
  let n := bitsOf (arg a 1) 12 13
  let w2 := arg a 2
  let one := fun (k : Nat) => match srcInfo k with | some i => !i.fixed && reactOk k (bitsOf w2 32 6) | none => false
  firstCode [below a 1 (2 ^ 25), need (decide (1 ≤ n ∧ first + n ≤ 4096)), need (bitsOf w2 8 8 == 0 && bitsOf w2 38 26 == 0),
    need (decide (bitsOf w2 0 8 ≠ 0)), below a 3 (2 ^ 48), need ((List.range n).all (fun k => one (first + k)))]

/-- `FAULT.READ` (17 R503). -/
def chkFaultRead (_ : State) (_ : Option Nat) (a : List Word) : Nat := firstCode [below a 1 4096, need (srcInfo (num a 1)).isSome]

/-- `FAULT.ROUTE` (17 R503): an enabled Sahya channel. -/
def chkFaultRoute (s : State) (_ : Option Nat) (a : List Word) : Nat :=
  let m := mbxOf s (Fin.ofNat 64 (num a 1))
  firstCode [below a 1 64, need (bindEn m.bind && (sahyaSide m).isSome)]

/-- `FAULT.INJECT` (17 R503). -/
def chkFaultInject (_ : State) (_ : Option Nat) (a : List Word) : Nat :=
  firstCode [below a 1 4096, need (match srcInfo (num a 1) with | some i => !i.fixed | none => false)]

/-- `FAULT.BBOX` (17 R503): records of the ring of 1,024. -/
def chkFaultBbox (_ : State) (_ : Option Nat) (a : List Word) : Nat :=
  firstCode [below a 1 3, below a 2 1024, below a 3 1025]

/-- A unit is in service (18 R514): LVL_STATUS.ROLE names it, outside OFF. -/
def inServiceUnit (s : State) (u : UnitId) : Bool := !isOff s && (decide (u = foreUnit s) || isLevelled s)

/-- The unit and the domain of a unit domain's number (18 R517). -/
def domainOf (d : Nat) : UnitId × Nat := (unitNo (d / 24), d % 24)

/-- The Traverse die of a domain's number. -/
def domainDie (d : Nat) : DieId := Fin.ofNat 4 (d - 48)

/-- `POWER.DOMAIN` (18 R518): the conditions that do not wait for a STAMP. -/
def chkPowerDomain (s : State) (_ : Option Nat) (a : List Word) : Nat :=
  let d := num a 1
  let (u, k) := domainOf d
  firstCode [below a 1 52, below a 2 2,
    (decide (d < 48) && lvlState (foreState s) == 3, ccBusy),
    (decide (48 ≤ d) && num a 2 == 0 && pathUses (foreState s) (fun p => p / 256 == d - 48), ccBusy),
    (decide (d < 48) && num a 2 == 0 && !inServiceUnit s u && decide (k ≠ 14 ∧ k < 21) && decide (powerRefused (getUnit s u) k ≠ ccOk),
      powerRefused (getUnit s u) k)]

/-- `POWER.THROTTLE` (18 R528). -/
def chkPowerThrottle (_ : State) (_ : Option Nat) (a : List Word) : Nat := firstCode [below a 1 2, below a 2 8]

/-- `POWER.RESET` (18 R514, R516). -/
def chkPowerReset (s : State) (_ : Option Nat) (a : List Word) : Nat :=
  let u := unitNo (num a 2)
  let joins := match s.hub.relevel with | some r => decide (r.join = u) | none => false
  firstCode [below a 1 3, below a 2 2, (decide (num a 1 < 2) && (inServiceUnit s u || joins), ccBusy)]

/-- `CAL.READ` (16 R486). -/
def chkCalRead (_ : State) (_ : Option Nat) (a : List Word) : Nat :=
  firstCode [need (decide (num a 1 % 8 = 0)), below a 2 15, need (decide (num a 1 + 8 * num a 2 ≤ 65536))]

/-- `CAL.WRITE` (16 R486). -/
def chkCalWrite (_ : State) (_ : Option Nat) (a : List Word) : Nat :=
  firstCode [need (decide (num a 1 % 8 = 0)), need (decide (num a 1 + 8 * (a.length - 1) ≤ 65536))]

/-- `CAL.COMMIT` (16 R486): BAD_CAL. -/
def chkCalCommit (s : State) (_ : Option Nat) (a : List Word) : Nat := firstCode [need (num a 1 == 0x5A5A), (!calOk (calStaged s), 0x3B)]

/-- `IMAGE.WRITE` (16 R478). -/
def chkImageWrite (s : State) (_ : Option Nat) (a : List Word) : Nat :=
  firstCode [below a 1 3, need (decide (num a 2 % 8 = 0)), need (decide (num a 2 + 8 * (a.length - 2) ≤ slotSize (num a 1))),
    (s.boot.recovery && decide (num a 1 ≠ 2), ccNotPermitted), (decide (s.boot.running.map (fun k => k.val) = some (num a 1)), ccBusy)]

/-- `IMAGE.VERIFY` (16 R476): its code is the image's. -/
def chkImageVerify (s : State) (_ : Option Nat) (a : List Word) : Nat :=
  firstCode [below a 1 3, (s.boot.recovery && decide (num a 1 ≠ 2), ccNotPermitted), (true, slotCode s (num a 1))]

/-- `IMAGE.ACTIVATE` (16 R477): a firmware image in slot A or B, or an owner certificate in the staging buffer with a higher serial
number (R478, log 51). -/
def chkImageActivate (s : State) (_ : Option Nat) (a : List Word) : Nat :=
  let k := num a 1
  let rd := slotByte s k
  firstCode [below a 1 3, (decide (slotCode s k ≠ ccOk), slotCode s k), need (imgKind rd == (if k = 2 then 1 else 0)),
    (k == 2 && decide (imgSvn rd ≤ imgSvn (ownerByte s)), 0x35)]

/-- `IMAGE.REVOKE` (16 R478). -/
def chkImageRevoke (s : State) (_ : Option Nat) (a : List Word) : Nat :=
  firstCode [below a 1 4, (decide (s.boot.runningGen ≤ num a 1), ccNotPermitted)]

/-- The check of a command by its GROUP and VERB (16 R472). -/
def cmdCheck (g v : Nat) : State → Option Nat → List Word → Nat :=
  match g, v with
  | 1, 1 => chkLevelConfig
  | 1, 2 => chkLevelStart
  | 1, 3 => chkLevelRelevel
  | 1, 4 => chkLevelCancel
  | 1, 7 => chkLevelDebug
  | 2, 1 => chkClosureConfig
  | 2, 2 => chkClosureInject
  | 3, 1 => chkChainStart
  | 4, 1 => chkParcelCreate
  | 4, 2 => chkParcelDestroy
  | 4, 3 => chkParcelCores
  | 4, 4 => chkParcelMap
  | 4, 5 => chkParcelSegment
  | 4, 6 => chkParcelRetire
  | 4, 7 => chkParcelVector
  | 5, 1 => chkCodeLoad
  | 6, 1 => chkStationGrant
  | 6, 3 => chkStationBook
  | 6, 4 => chkStationMirror
  | 6, 5 => chkStationTakeover
  | 7, 1 => chkPathModid
  | 7, 2 => chkPathPort
  | 7, 4 => chkPathAddr
  | 7, 5 => chkPathGroup
  | 7, 6 => chkPathLink
  | 8, 1 => chkKeyInit
  | 8, 2 => chkKeyGenerate
  | 8, 3 => chkKeyImport
  | 8, 6 => chkKeySlot
  | 8, 7 => chkMagic
  | 9, 1 => chkCipherPage
  | 9, 2 => chkCipherChannel
  | 9, 3 => chkCipherLock
  | 10, 1 => chkMemConfig
  | 10, 2 => chkMemBoard
  | 10, 4 => chkFlag
  | 10, 7 => chkMemEcctest
  | 10, 8 => chkMemRetire
  | 10, 9 => chkMemCtl
  | 10, 10 => chkMemTiming
  | 10, 11 => chkMemQos
  | 11, 1 => chkScrubRun
  | 12, 1 => chkFaultConfig
  | 12, 3 => chkFaultRoute
  | 12, 4 => chkFaultInject
  | 13, 1 => chkPowerDomain
  | 13, 3 => chkPowerThrottle
  | 13, 4 => chkPowerReset
  | 14, 2 => chkCalWrite
  | 14, 3 => chkCalCommit
  | 15, 1 => chkImageWrite
  | 15, 2 => chkImageVerify
  | 15, 3 => chkImageActivate
  | 15, 5 => chkImageRevoke
  | _, _ => chkNone

end Sys2Proof.Machine
end

