-- ==== Sys2Proof/Machine/SahyaOps.lean ====
section
/-! DEFINITION. How Sahya executes a command (16 R466 to R470, 17 R495): its place in the queue of accepted frames, the checks, the effect,
and the reply. Each command row names its check and its effect. -/
namespace Sys2Proof.Machine

/-- The channel of a command lies between its issuer and Sahya (16 R460, R466). -/
def sahyaChannel (s : State) (h : CmdHdr) : Bool :=
  bindEn (mbxOf s h.chan).bind && decide (sahyaSide (mbxOf s h.chan) = some h.side.other)

/-- The commands that are served in a module checkstop (17 R495): `FAULT.*`, `IMAGE.STATUS`, `CAL.READ`. -/
def checkstopServes (g v : Nat) : Bool := g == 0x0C || (g == 0x0F && v == 6) || (g == 0x0E && v == 1)

/-- The parcel of an issuer without SYSTEM (16 R469). -/
def plainIssuer (s : State) (h : CmdHdr) : Option Nat :=
  match midParcel (bindMid (mbxOf s h.chan).bind h.side) with
  | some p => if parcelSystem s p then none else some p
  | none => none

/-- An accepted frame is that of a command row. -/
def isFrame (h : CmdHdr) (g v : Nat) (f : CmdFrame) : Bool :=
  decide (f.chan = h.chan ∧ f.side = h.side) && frameGroup f.words == g && frameVerb f.words == v
    && decide (frameTag f.words = h.tag) && decide (frameVer f.words = 2) == h.v2

/-- The arguments that a frame carries. -/
def frameArgs (ws : List Word) : List Word := (List.range (frameLen ws)).map (fun k => frameArg ws (k + 1))

/-- The first command of a batch whose arguments or conditions fail, and its code (16 R468). -/
def firstFailing (s : State) (plain : Option Nat) : Nat → List (List Word) → Option (Nat × Nat)
  | _, [] => none
  | k, ws :: r =>
    let c := cmdCheck (frameGroup ws) (frameVerb ws) s plain (frameArgs ws)
    if c = ccOk then firstFailing s plain (k + 1) r else some (k, c)

/-- The place of a command: on its own, or in a batch with the batch's STAMP and whether it is the last one (16 R468). -/
inductive CmdPlace
  | alone
  | batch (stamp : Nat) (last : Bool)
  deriving DecidableEq, Repr

/-- The STAMP that the batch of a command has. -/
def placeStamp : CmdPlace → Option Nat
  | .alone => none
  | .batch st _ => some st

/-- The queue of accepted commands without a frame. -/
def dropFrame (s : State) (f : CmdFrame) : State := { s with sahya := { s.sahya with inbox := s.sahya.inbox.erase f } }

/-- A command's turn (16 R468): its frame leaves the queue. The first command of a batch has the whole batch checked; a failing one ends
the batch with its one reply. -/
def takeTurn (s : State) (h : CmdHdr) (g v : Nat) : State × Option CmdPlace :=
  match s.sahya.inbox.find? (isFrame h g v) with
  | none => (s, some .alone)
  | some f =>
    let rest := dropFrame s f
    match f.batch with
    | none => (rest, some .alone)
    | some st =>
      let all := f.words :: f.rest
      let last := all.getLastD []
      match (if st.isNone then firstFailing s (plainIssuer s h) 0 all else none) with
      | some (k, c) => (postReply rest { h with tag := frameTag last } (frameGroup last) (frameVerb last) c k [], none)
      | none =>
        let stamp := st.getD (boundaryStamp s)
        match f.rest with
        | [] => (rest, some (.batch stamp true))
        | ws :: r =>
          let f' := { f with words := ws, rest := r, batch := some (some stamp) }
          ({ s with sahya := { s.sahya with inbox := s.sahya.inbox.map (fun x => if x = f then f' else x) } }, some (.batch stamp false))

/-- The reply to a command at its place: a batch has one, after its last command, with INDEX 0x1F (16 R468). -/
def placeReply (s : State) (h : CmdHdr) (g v : Nat) (pl : CmdPlace) (code : Nat) (rs : List Word) : State :=
  match pl with
  | .alone => postReply s h g v code 0 rs
  | .batch _ false => s
  | .batch _ true => postReply s h g v code 0x1F rs

/-- A command's effect: what it makes of the state, with its result words; none where the reply comes later. -/
abbrev CmdEffect := State → Option Nat → State × Option (List Word)

/-- A command is served: Sahya runs, its channel exists, and no module checkstop keeps it out. -/
def cmdServed (s : State) (h : CmdHdr) (g v : Nat) : Bool :=
  sahyaUp s && sahyaChannel s h && (!s.bench.checkstop || checkstopServes g v)

/-- The code of a command before its effect (16 R470 steps 4 to 6, R477). -/
def cmdCode (s : State) (h : CmdHdr) (g v : Nat) (args : List Word) (chk : State → Option Nat → List Word → Nat) : Nat :=
  if !(issuerOk s (bindMid (mbxOf s h.chan).bind h.side) g v && (!s.boot.recovery || recoveryAllows g v)) then ccNotPermitted
  else chk s (plainIssuer s h) args

/-- Sahya executes a command (16 R470): a command that fails changes nothing but its reply. `after` follows the reply. -/
def sahyaRun (s : State) (h : CmdHdr) (g v : Nat) (args : List Word) (chk : State → Option Nat → List Word → Nat) (act : CmdEffect)
    (after : State → State := id) : State :=
  if !cmdServed s h g v then s else
  match takeTurn s h g v with
  | (s, none) => s
  | (s, some pl) =>
    let code := cmdCode s h g v args chk
    if code ≠ ccOk then placeReply s h g v pl code [] else
    match act s (placeStamp pl) with
    | (s, none) => after s
    | (s, some rs) => after (placeReply s h g v pl ccOk rs)

/-- A staked effect on levelled state: through the staked-write path at a boundary (16 R485); at once in both units while none
executes (log 16). -/
def cfgFw (s : State) (st : Option Nat) (e : CfgEffect) : State :=
  if isOff s then applyCfg (applyCfg s .u0 e) .u1 e else issueFw s (some (st.getD (boundaryStamp s))) (.cfg e)

/-- Another staked command at a boundary; at once in both units while none executes (03 R86, log 16). -/
def bodyFw (s : State) (st : Option Nat) (b : StakeBody) : State :=
  if isOff s then applyBody (applyBody s .u0 0 (foreState s).ucc b .discard) .u1 0 (foreState s).ucc b .discard
  else issueFw s (some (st.getD (boundaryStamp s))) b

/-- An effect without results. -/
def plainAct (f : State → Option Nat → State) : CmdEffect := fun s st => (f s st, some [])

/-- An effect that only reads. -/
def readAct (f : State → List Word) : CmdEffect := fun s _ => (s, some (f s))

/-- A flag as a bit of a result word. -/
def atBit (b : Bool) (k : Nat) : Nat := 2 ^ k * bit b

/-- A unit can be read: it has its power (03 R75). -/
def unitPres (s : State) (u : UnitId) : Bool := (getUnit s u).powered

/-- PRES0 and PRES1. -/
def presBits (s : State) : Nat := atBit (unitPres s .u0) 0 + atBit (unitPres s .u1) 1

/-- A quadword as two result words, bits [63:0] first. -/
def quadWords (q : Quad) : List Word := [q.setWidth 64, (q >>> 64).setWidth 64]

end Sys2Proof.Machine
end

