-- ==== Sys2Proof/Machine/SahyaMem.lean ====
section
/-! DEFINITION. The Sahya commands of groups MEM and SCRUB (12 R372, R373, R379, R383, 11 R352, 13 R390 to R398). -/
namespace Sys2Proof.Machine

/-- Every controller of a unit changed. -/
def allMcs (f : UnitState → Fin 12 → UnitState) (x : UnitState) : UnitState := (List.finRange 12).foldl f x

/-- The same RWS value staked for all controllers (12 R383). -/
def rwsAll (r : Fin 12 → RwsReg) (w : Word) (s : State) (st : Option Nat) : State :=
  let stamp := some (st.getD (boundaryStamp s))
  (List.finRange 12).foldl (fun s c => bodyFw s stamp (.rws (r c) w)) s

/-- The effect of `MEM.CONFIG` (12 R383): RW registers directly where EN is 0, RWS registers through the staked-write path. -/
def doMemConfig (ws : List Word) (s : State) (st : Option Nat) : State :=
  let put := fun (x : UnitState) (c : Fin 12) => (List.range 10).foldl (fun x i => mcWrite x c (memConfigRegs.getD i 0) (arg ws (i + 1))) x
  let s := modBoth s (allMcs put)
  let s := rwsAll .mcSched (arg ws 11) s st
  let s := rwsAll .mcRef (arg ws 12) s st
  let s := rwsAll .mcMaint (arg ws 13) s st
  rwsAll .mcPwrmode (arg ws 14) s st

/-- MEM.CONFIG (12 R383, 16 R472). -/
def execMemConfig (h : CmdHdr) (ws : List Word) (s : State) : Host.Outcome State Fault Refusal :=
  .next (sahyaRun s h 10 1 ws chkMemConfig (plainAct (doMemConfig ws)))

/-- The effect of `MEM.BOARD` (12 R372): the flight times of a channel's rank slot. -/
def doMemBoard (ch rankSlot : Word) (fs : List Word) (s : State) : State :=
  { s with sahya := { s.sahya with
    flight := tabSetList (fun _ => (0 : Word)) s.sahya.flight ((ch.toNat * 4 + rankSlot.toNat) * 3) fs } }

/-- MEM.BOARD (12 R372). -/
def execMemBoard (h : CmdHdr) (ch rankSlot f0 f1 f2 : Word) (s : State) : Host.Outcome State Fault Refusal :=
  .next (sahyaRun s h 10 2 [ch, rankSlot, f0, f1, f2] chkMemBoard (plainAct (fun s _ => doMemBoard ch rankSlot [f0, f1, f2] s)))

/-- The FAIL codes of a unit's channels, four bits each from channel 0 up (12 R373; log 53). -/
def failWord (s : State) (u : UnitId) : Word :=
  if unitPres s u then
    BitVec.ofNat 64 (((List.finRange 12).map (fun c => 2 ^ (4 * c.val) * bitsOf (mcReg (getUnit s u) c 0x018) 4 4)).sum)
  else 0

/-- MEM.TRAIN (12 R373): the codes of every channel of both units. -/
def execMemTrain (h : CmdHdr) (s : State) : Host.Outcome State Fault Refusal :=
  .next (sahyaRun s h 10 3 [] chkNone (readAct (fun s => [BitVec.ofNat 64 (presBits s), failWord s .u0, failWord s .u1])))

/-- The effect of `MEM.FREQ` (12 R379): GO for every controller where SET is not the active timing set. -/
def doMemFreq (set : Word) (s : State) (st : Option Nat) : State :=
  if bitOf (mcReg (foreState s) 0 0x018) 3 = decide (set = 1) then s else rwsAll .mcFchg 1 s st

/-- MEM.FREQ (12 R379). -/
def execMemFreq (h : CmdHdr) (set : Word) (s : State) : Host.Outcome State Fault Refusal :=
  .next (sahyaRun s h 10 4 [set] chkFlag (plainAct (doMemFreq set)))

/-- An entry of COH_LOSTLOG (11 R354). -/
def lostWord (e : LostEnt) : Word := BitVec.ofNat 64 (1 + 2 * e.cause.toNat + 2 ^ 6 * e.line + 2 ^ 52 * e.pos)

/-- The lists of `MEM.LOST` (11 R352, 03 R75; log 53): presence, both counts, Unit 0's entries, Unit 1's entries. -/
def lostWords (s : State) : List Word :=
  let l := fun (u : UnitId) => if unitPres s u then ((getUnit s u).mem.coh.lostLog).map lostWord else []
  BitVec.ofNat 64 (presBits s + 2 ^ 8 * (l .u0).length + 2 ^ 16 * (l .u1).length) :: (l .u0 ++ l .u1)

/-- The effect of `MEM.LOST`: the clear option empties the logs (11 R354). -/
def doMemLost (clear : Word) : CmdEffect := fun s _ =>
  let ws := lostWords s
  (if clear = 1 then modBoth s (fun x => { x with mem := { x.mem with coh := { x.mem.coh with lostLog := [] } } }) else s, some ws)

/-- MEM.LOST (11 R352). -/
def execMemLost (h : CmdHdr) (clear : Word) (s : State) : Host.Outcome State Fault Refusal :=
  .next (sahyaRun s h 10 5 [clear] chkMemClear (doMemLost clear))

/-- A controller's counts and 16 log entries (13 R390; log 53). -/
def mcLogWords (x : UnitState) (c : Fin 12) : List Word :=
  let l := (x.mem.mc.get c).log
  mcReg x c 0x828 :: ((List.range 16).flatMap (fun i => match l.find? (fun e => e.slot == i) with | some e => [e.w0, e.w1] | none => [0, 0]))

/-- The FBM_ block of a stack (13 R403; log 53): FBM_STATUS, FBM_ERRCNT and the eight entries of FBM_ERRLOG. -/
def fbmWords (x : UnitState) : List Word :=
  let n := x.fb.sparesUsed
  BitVec.ofNat 64 (n % 2 ^ 15 + 2 ^ 15 * bit (decide (n = 16384))) ::
  BitVec.ofNat 64 (x.fb.ce.toNat + 2 ^ 16 * x.fb.ue.toNat + 2 ^ 32 * x.fb.wretry.toNat + 2 ^ 48 * x.fb.wfail.toNat) ::
  (List.range 8).map (fun i => x.fb.log.getD i 0)

/-- The results of `MEM.LOG` (13 R390, R403, 03 R75): the controllers of each unit, then its stack. -/
def memLogWords (s : State) : List Word :=
  let one := fun (u : UnitId) =>
    if unitPres s u then (List.finRange 12).flatMap (mcLogWords (getUnit s u)) ++ fbmWords (getUnit s u) else List.replicate 406 0
  BitVec.ofNat 64 (presBits s) :: (one .u0 ++ one .u1)

/-- The effect of `MEM.LOG`: the clear option empties the logs and zeroes the counts (13 R390), those of the stacks too (log 53). -/
def doMemLog (clear : Word) : CmdEffect := fun s _ =>
  let ws := memLogWords s
  let wipe := fun (x : UnitState) (c : Fin 12) => modMc (setMcReg x c 0x828 0) c (fun m => { m with log := [] })
  let wipeFb := fun (x : UnitState) => { x with fb := { x.fb with log := [], ce := 0, ue := 0, wretry := 0, wfail := 0 } }
  (if clear = 1 then modBoth s (fun x => wipeFb (allMcs wipe x)) else s, some ws)

/-- MEM.LOG (13 R390). -/
def execMemLog (h : CmdHdr) (clear : Word) (s : State) : Host.Outcome State Fault Refusal :=
  .next (sahyaRun s h 10 6 [clear] chkMemClear (doMemLog clear))

/-- MEM.ECCTEST (13 R391). -/
def execMemEcctest (h : CmdHdr) (unit ch en raw : Word) (s : State) : Host.Outcome State Fault Refusal :=
  .next (sahyaRun s h 10 7 [unit, ch, en, raw] chkMemEcctest
    (plainAct (fun s _ => modUnit s (unitNo unit.toNat) (fun x =>
      setMcReg x (Fin.ofNat 12 ch.toNat) 0x800 (BitVec.ofNat 64 (en.toNat + 2 * raw.toNat))))))

/-- The effect of `MEM.RETIRE` (13 R398): the lowest free entry of the controller. -/
def doMemRetire (ch entry : Word) (s : State) (st : Option Nat) : State :=
  let c := Fin.ofNat 12 ch.toNat
  match retireSlot (foreState s) c with
  | some i => bodyFw s st (.rws (.mcBankRetire c i) entry)
  | none => s

/-- MEM.RETIRE (13 R398). -/
def execMemRetire (h : CmdHdr) (ch entry : Word) (s : State) : Host.Outcome State Fault Refusal :=
  .next (sahyaRun s h 10 8 [ch, entry] chkMemRetire (plainAct (doMemRetire ch entry)))

/-- The effect of `MEM.CTL` (12 R383). -/
def doMemCtl (w1 hold : Word) (s : State) : State :=
  modBoth s (allMcs (fun x c =>
    let x := mcCtlWrite x c (BitVec.ofNat 64 (2 * bitsOf w1 0 1 + 2 ^ 8 * bitsOf w1 8 4))
    setMcReg x c 0x0D8 (withBits (mcReg x c 0x0D8) 16 16 hold.toNat)))

/-- MEM.CTL (12 R383). -/
def execMemCtl (h : CmdHdr) (w1 hold : Word) (s : State) : Host.Outcome State Fault Refusal :=
  .next (sahyaRun s h 10 9 [w1, hold] chkMemCtl (plainAct (fun s _ => doMemCtl w1 hold s)))

/-- The effect of `MEM.TIMING` (12 R383). -/
def doMemTiming (w1 : Word) (vals : List Word) (s : State) : State :=
  let n := bitsOf w1 16 5
  let base := 0x100 + 0x80 * bitsOf w1 0 1 + 8 * bitsOf w1 8 4
  modBoth s (allMcs (fun x c => (List.range n).foldl (fun x i => mcWrite x c (base + 8 * i) (vals.getD i 0)) x))

/-- MEM.TIMING (12 R383). -/
def execMemTiming (h : CmdHdr) (w1 : Word) (vals : List Word) (s : State) : Host.Outcome State Fault Refusal :=
  .next (sahyaRun s h 10 10 (w1 :: vals) chkMemTiming (plainAct (fun s _ => doMemTiming w1 vals s)))

/-- MEM.QOS (12 R383). -/
def execMemQos (h : CmdHdr) (port target rate : Word) (s : State) : Host.Outcome State Fault Refusal :=
  .next (sahyaRun s h 10 11 [port, target, rate] chkMemQos
    (plainAct (rwsAll (fun c => .mcQos c (Fin.ofNat 8 port.toNat)) (BitVec.ofNat 64 (target.toNat + 2 ^ 16 * rate.toNat)))))

/-- The effect of `SCRUB.RUN` (13 R393). -/
def doScrubRun (h : CmdHdr) (base len : Word) (s : State) (st : Option Nat) : State :=
  bodyFw { s with sahya := { s.sahya with scrubTag := some h, scrubAborted := false, scrubCancelled := false } } st
    (.scrub base.toNat len.toNat)

/-- SCRUB.RUN (13 R393). -/
def execScrubRun (h : CmdHdr) (base len : Word) (s : State) : Host.Outcome State Fault Refusal :=
  .next (sahyaRun s h 11 1 [base, len] chkScrubRun (plainAct (doScrubRun h base len)))

/-- SCRUB.CANCEL (13 R393): at the next boundary. -/
def execScrubCancel (h : CmdHdr) (s : State) : Host.Outcome State Fault Refusal :=
  .next (sahyaRun s h 11 2 [] chkNone (plainAct (fun s st => cfgFw s st .scrubCancel)))

end Sys2Proof.Machine
end

