-- ==== Sys2Proof/Machine/SahyaParcel.lean ====
section
/-! DEFINITION. The Sahya commands of groups PARCEL and CODE (15 R436 to R445, 10 R304, R325, 16 R481). -/
namespace Sys2Proof.Machine

/-- PARCEL.CREATE (15 R436, R445). -/
def execParcelCreate (h : CmdHdr) (parcel system ctxBase : Word) (s : State) : Host.Outcome State Fault Refusal :=
  .next (sahyaRun s h 4 1 [parcel, system, ctxBase] chkParcelCreate
    (plainAct (fun s st => cfgFw s st (.parcelCreate (parcel.setWidth 6) (decide (system = 1)) (ctxBase.setWidth 52)))))

/-- PARCEL.DESTROY (15 R444). -/
def execParcelDestroy (h : CmdHdr) (parcel : Word) (s : State) : Host.Outcome State Fault Refusal :=
  .next (sahyaRun s h 4 2 [parcel] chkParcelDestroy (plainAct (fun s st => cfgFw s st (.parcelDestroy (parcel.setWidth 6)))))

/-- PARCEL.CORES (15 R436). -/
def execParcelCores (h : CmdHdr) (parcel cores entry : Word) (s : State) : Host.Outcome State Fault Refusal :=
  .next (sahyaRun s h 4 3 [parcel, cores, entry] chkParcelCores
    (plainAct (fun s st => cfgFw s st (.parcelCores (parcel.setWidth 6) (cores.setWidth 48) (entry.setWidth 48)))))

/-- PARCEL.MAP (15 R439 to R441). -/
def execParcelMap (h : CmdHdr) (parcel op entry : Word) (s : State) : Host.Outcome State Fault Refusal :=
  .next (sahyaRun s h 4 4 [parcel, op, entry] chkParcelMap
    (plainAct (fun s st => cfgFw s st (.parcelMap (parcel.setWidth 6) (decide (op = 1)) entry))))

/-- PARCEL.SEGMENT (15 R442). -/
def execParcelSegment (h : CmdHdr) (mseg acl code : Word) (s : State) : Host.Outcome State Fault Refusal :=
  .next (sahyaRun s h 4 5 [mseg, acl, code] chkParcelSegment
    (plainAct (fun s st => cfgFw s st (.parcelSegment mseg.toNat acl (decide (code = 1))))))

/-- The effect of `PARCEL.RETIRE` (15 R443): firmware keeps a copy of the table in flash. -/
def doParcelRetire (op page : Word) (s : State) (st : Option Nat) : State :=
  let l := s.boot.retiredCopy.filter (fun p => p != page.toNat)
  let s := { s with boot := { s.boot with retiredCopy := if op = 1 then l else l ++ [page.toNat] } }
  cfgFw s st (.parcelRetire (decide (op = 1)) (page.setWidth 40))

/-- PARCEL.RETIRE (15 R443). -/
def execParcelRetire (h : CmdHdr) (op page : Word) (s : State) : Host.Outcome State Fault Refusal :=
  .next (sahyaRun s h 4 6 [op, page] chkParcelRetire (plainAct (doParcelRetire op page)))

/-- A logical core by a word. -/
def coreOfWord (w : Word) : CoreId := Fin.ofNat 48 w.toNat

/-- PARCEL.VECTOR (10 R304). -/
def execParcelVector (h : CmdHdr) (parcel vector core : Word) (s : State) : Host.Outcome State Fault Refusal :=
  .next (sahyaRun s h 4 7 [parcel, vector, core] chkParcelVector
    (plainAct (fun s st => cfgFw s st (.parcelVector (parcel.setWidth 6) (vector.setWidth 8) (some (coreOfWord core))))))

/-- The code words of page `i` of the staging image, with PAR computed (16 R481, 07 R213); a last page that is not full is filled with
zeros. -/
def codePage_ (s : State) (i : Nat) : List Word :=
  let rd := slotByte s 2
  let n := imgLen rd
  (List.range 2048).map (fun k =>
    codeSlot (BitVec.ofNat 64 (leNat ((List.range 8).map (fun b =>
      let o := 16384 * i + 8 * k + b
      if o < n then rd (32768 + o) else 0)))))

/-- The effect of `CODE.LOAD` (16 R481): one CTL CODE stake for each page. -/
def doCodeLoad (frame : Word) (s : State) (st : Option Nat) : State :=
  let stamp := some (st.getD (boundaryStamp s))
  (List.range (codePages s)).foldl (fun s i =>
    bodyFw s stamp (.code (BitVec.ofNat 52 (frame.toNat + 16384 * i)) (codePage_ s i))) s

/-- CODE.LOAD (16 R481). -/
def execCodeLoad (h : CmdHdr) (parcel frame : Word) (s : State) : Host.Outcome State Fault Refusal :=
  .next (sahyaRun s h 5 1 [parcel, frame] chkCodeLoad (plainAct (doCodeLoad frame)))

/-- The effect of `CODE.MPATCH` (10 R325): the patch at the boundary; at once, without a stall, while no unit executes (log 16). -/
def doCodeMpatch : CmdEffect := fun s st =>
  match Config.patchImage (imgBody (slotByte s 2)) with
  | none => (s, some [])
  | some img =>
    let s := { s with sahya := { s.sahya with mcodePend := !isOff s } }
    let s' := bodyFw s st (.mcode img)
    let s' := if isOff s then modBoth s' (fun x => { x with exe := { x.exe with ucode := { x.exe.ucode with stallEnd := none } } }) else s'
    (s', some [img.patchId.setWidth 64])

/-- CODE.MPATCH (10 R325): the reply reports the patch ID. -/
def execCodeMpatch (h : CmdHdr) (s : State) : Host.Outcome State Fault Refusal :=
  .next (sahyaRun s h 5 2 [] chkCodeMpatch doCodeMpatch)

end Sys2Proof.Machine
end

