-- ==== Sys2Proof/Machine/ResetOps.lean ====
section
/-! DEFINITION. Module resets, start-up and its phases (16 R477 to R480, 17 R502, 18 R509 to R515, R522, R529, R533). -/
namespace Sys2Proof.Machine

/-- The cores that are offline until module cold reset (03 R88). -/
def keptDeconf (x : UnitState) : Tab Core :=
  x.exe.cores.foldl (fun t e => if e.2.deconf then tabSet coreDef t e.1 { offline := true, deconf := true } else t) []

/-- A fieldbook stack across a module reset (18 R515): contents, bad words and spares are kept; counts and log are reset. -/
def stackKept (x : UnitState) : FbState :=
  let f := (fbSettle x).fb
  { mem := f.mem, view := f.view, bad := f.bad, poison := f.poison, sparesUsed := f.sparesUsed, epoch := f.epoch, lstate := f.lstate }

/-- A unit after a module reset (18 R515): the fieldbook, and DRAM until phase 5 zeroes it; through a warm reset also the enabled-core
map with its spare, void and failed positions and the deconfigured cores (03 R85, R86, R88). -/
def unitModuleReset (cold : Bool) (modId : Word) (x : UnitState) : UnitState :=
  { powered := x.powered, fb := stackKept x
    mem := { data := x.mem.dram, mark := x.mem.dmark, dram := x.mem.dram, dmark := x.mem.dmark, dchk := x.mem.dchk, coh := { invBusy := true } }
    lvl := { modId := modId }
    exe := if cold then {} else
      { cores := keptDeconf x, map := x.exe.map, spares := x.exe.spares ||| x.exe.spareOff, voids := x.exe.voids, failed := x.exe.failed } }

/-- A power-domain sequencer across a module reset (18 R520, R522): a sequence that has begun goes on, a pending step is discarded;
CHANGES starts at zero at a cold reset. -/
def domReset (cold : Bool) (x : Dom) : Dom :=
  { x with
    st := if x.st = domPendingOn then domPoweringOff else if x.st = domPendingOff then domPoweringOn else x.st
    changes := if cold then 0 else x.changes }

/-- A Traverse die after a module reset: a retired comparator stays so until a cold one (04 R102). -/
def dieReset (cold : Bool) (x : DieState) : DieState :=
  if cold then {} else { retA := x.retA, retB := x.retB, lanesDown := x.retA && x.retB }

/-- MOD_ID's value for a module ID (01 R23). -/
def modIdWord (id : BitVec 16) (ovr : Bool) : Word := BitVec.ofNat 64 (id.toNat + 2 ^ 16 * bit ovr)

/-- What a module reset does (18 R513, R515): everything but the bench domain, flash, OTP, fieldbook contents and key-store root. -/
def moduleReset (s : State) (cold : Bool) (cause : BitVec 3) : State :=
  let ovr := s.pow.modIdOvr && !cold
  let w := modIdWord s.pow.modId ovr
  { s with
    u0 := unitModuleReset cold w s.u0
    u1 := unitModuleReset cold w s.u1
    gen := {}
    dies := s.dies.map (dieReset cold)
    ports := []
    hub := {}
    coll := {}
    bench := { s.bench with lastReset := cause, checkstop := false, mrDelay := false, error := s.bench.error && !cold }
    mail := {}
    sahya := {}
    keys := { s.keys with slots := [], log := [] }
    boot := { s.boot with running := none, runningSvn := 0, runningGen := 0, recovery := false, staging := [], calStage := none, failedPhase := 0 }
    pow := { s.pow with
      reset := if cold then .cold else .warm, phase := 0, unitReset := [], modIdOvr := ovr
      doms := tabMap (fun _ => ({} : Dom)) (fun _ d => domReset cold d) s.pow.doms }
    svcCore := {} }

/-- A module reset begins (18 R513, R529): in a reset that is held, a more thorough level is taken and any other is absorbed. A
host-forced reset freezes the black box first (17 R502). -/
def beginReset (s : State) (cold host : Bool) (cause : BitVec 3) : State :=
  if !s.pow.vaon then s
  else if s.pow.phase = 0 ∧ (s.pow.reset = .cold ∨ (s.pow.reset = .warm ∧ !cold)) then s
  else moduleReset (if host then bbFreezeWith s 3 else s) cold cause

/-- The conditions under which the module leaves a reset (18 R509). -/
def exitReady (s : State) : Bool :=
  s.pow.vaon && s.pow.pwrGood && s.pow.refclk && s.pow.modResetN && s.pow.perstN && decide (s.pow.phase = 0 ∧ s.pow.reset ≠ .none)

/-- MODID sampled at the end of a module cold reset (01 R21), and phase 1 begins. -/
def leaveReset (s : State) : State :=
  let s := if s.pow.reset = .cold then
      modBoth { s with pow := { s.pow with modId := s.pow.modidLands, modIdOvr := false } }
        (fun x => { x with lvl := { x.lvl with modId := modIdWord s.pow.modidLands false } })
    else s
  { s with pow := { s.pow with phase := 1 } }

/-- A start-up phase fails or is abandoned (16 R479, 18 R511): the module stays unlevelled and BRINGUP_PHASE is raised. -/
def phaseFails (s : State) : State :=
  let p := s.pow.phase
  raiseFault { s with boot := { s.boot with failedPhase := p }, pow := { s.pow with phase := 10, reset := .none } } 0x014 (foreState s).ucc
    (BitVec.ofNat 64 p)

/-- Phase 2 (16 R479 step 1, R482, R486, 18 R522): every domain on, the root from flash when both copies are absent, the PERSIST slots
restored with their counters at the persisted marks, the calibration set checked; slot copies under a destroyed root are erased. -/
def phase2 (s : State) : State :=
  let on := fun (s : State) (d : Nat) =>
    let x := domOf s d
    let k := if x.st = domOn then 0 else if x.st = domPoweringOff then 2 else 1
    let n := BitVec.ofNat 32 (saturate 32 (x.changes.toNat + k))
    setDom s d { st := domOn, changes := n }
  let s := (List.range 52).foldl on s
  let k := s.keys
  let k := if k.root0.isNone && k.root1.isNone then { k with root0 := k.rootFlash, root1 := k.rootFlash } else k
  let k := if k.root0.isNone && k.root1.isNone then { k with flash := [], marks := [] } else k
  let slots := tabMap (fun _ => ({} : KeySlot)) (fun n v => { v with ctr := tabGet (fun _ => 0) k.marks n }) k.flash
  let s := { s with keys := { k with slots := slots } }
  let good := calOk s.boot.cal
  let s := { s with boot := { s.boot with calBad := !good } }
  if good then s else raisePlainFree s 0x004

/-- Phases 3 and 4 begin (16 R479 steps 2 and 3): the controllers are configured from the start image and enabled. -/
def phase3Begin (s : State) : State :=
  let s := if s.boot.startImg.memConfig.isEmpty then s else doMemConfig s.boot.startImg.memConfig s none
  modBoth s (allMcs (fun x c => mcCtlWrite x c (withBit (mcReg x c 0) 0 true)))

/-- Phase 5 (16 R479 step 4): DRAM zeroed. -/
def phase5 (s : State) : State :=
  modBoth s (fun x => { x with mem := { x.mem with data := [], dram := [], mark := [], dmark := [], dchk := [] } })

/-- Phase 6 (16 R479 step 5): reconciliation, and the retired-page table reloaded. -/
def phase6 (s : State) : State :=
  let s := reconcile s
  modBoth s (fun x => copyRetired { x with mem := { x.mem with retired := s.boot.retiredCopy } })

/-- A die has a comparator that is not retired. -/
def dieCompares (x : DieState) : Bool := !(x.retA && x.retB)

/-- Phase 7 (16 R479 steps 6 to 8, 04 R104): microcode patches, the injection test, the cipher test. -/
def phase7 (s : State) : State :=
  let s := match s.boot.startImg.patch with
    | none => s
    | some p => modBoth (applyMcode (applyMcode s .u0 0 p) .u1 0 p) (fun x => { x with exe := { x.exe with ucode := { x.exe.ucode with stallEnd := none } } })
  hubCfg s (.injOk ((List.finRange 4).all (fun d => dieCompares (dieOf s d))))

/-- The module segments that parcel 0's initial map names (16 R480): its ACL, and CODE as the map entries say. -/
def startSegs (m : List MapEnt) : Tab SegEnt :=
  m.foldl (fun t e => if e.fieldbook || e.device then t else tabSet (fun _ => ({} : SegEnt)) t e.mseg.toNat { acl := 1, code := e.code }) []

/-- The code pages of the start image in DRAM (16 R480). -/
def startCode (x : UnitState) (l : List (Nat × List Word)) : UnitState :=
  l.foldl (fun x e =>
    let bs := wordsBytes (e.2.map codeSlot)
    let d := tabSetList byteDef x.mem.data e.1 bs
    { x with mem := { x.mem with
        data := d, dram := d, dchk := tabDrop (fun n => decide (e.1 ≤ 64 * n + 63 ∧ 64 * n < e.1 + bs.length)) x.mem.dchk } }) x

/-- Every logical core in parcel 0 at the entry address (16 R480); deconfigured ones stay offline (03 R88). -/
def startCores (x : UnitState) (entry : CodeAddr) : Tab Core :=
  (List.range 48).foldl (fun t l =>
    tabSet coreDef t l (if (unitCore x l).deconf then { offline := true, deconf := true } else startCore 0 entry)) []

/-- The bench shadows that a warm reset restores, or reset values (16 R480, 17 R498). -/
def keptLvl (s : State) : Word :=
  if s.pow.reset = .warm then s.bench.shadowLvl &&& 0xFFFF0020 else 0

/-- Identical initialisation of a unit (16 R480); the firmware image brings the standard program set (05 R169). A unit with a failed channel is not initialised (12 R374). -/
def unitInit (s : State) (x : UnitState) : UnitState :=
  let i := s.boot.startImg
  let cores := startCores x i.entry
  let online := 48 - (cores.filter (fun e => e.2.deconf)).length
  let good := (List.finRange 12).all (fun c => decide (bitsOf (mcReg x c 0x018) 0 3 ≠ 5))
  let y : UnitState :=
    { powered := x.powered, initialised := good, fb := x.fb, binds := i.binds
      chn := { cfg := i.chnCfg, sync := i.chnSync, status := withBits (0x40 : Word) 5 3 (bitsOf i.chnCfg 0 3) }
      lvl := { cfg := i.lvlCfg, status := withBits (keptLvl s) 8 6 online, modId := modIdWord s.pow.modId s.pow.modIdOvr }
      clo := { status := x.clo.status, drop := if s.pow.reset = .warm then s.bench.shadowDrop else 0 }
      trv := { stdprog := true }
      exe := { cores := cores, map := x.exe.map, spares := x.exe.spares, voids := x.exe.voids, failed := x.exe.failed, ucode := x.exe.ucode }
      mem := { data := x.mem.data, dram := x.mem.dram, mark := x.mem.mark, dmark := x.mem.dmark, dchk := x.mem.dchk, mc := x.mem.mc
               parcels := [(0, some { sys := true, ctxBase := i.ctxBase, map := i.map, vectors := [] })]
               segs := startSegs i.map, retired := x.mem.retired } }
  startCode (copyRetired y) i.code

/-- The mailbox channels that the start image binds (16 R479). -/
def startBinds (s : State) : State :=
  let s := s.boot.startImg.binds.foldl (fun s e => setMbx s (Fin.ofNat 64 e.1) { bind := e.2 }) s
  { s with mail := { s.mail with lock := s.boot.startImg.lock, lockWritten := s.boot.startImg.lock } }

/-- Phase 8 (16 R479 step 9, R480). -/
def phase8 (s : State) : State :=
  let s := modBoth s (unitInit s)
  let s := startBinds { s with sahya := { s.sahya with pool := 0 } }
  { s with sahya := { s.sahya with auto := false } }

/-- Phase 9 begins (16 R479 step 10): under START_MODE AUTO firmware issues `CHAIN.START` with CN 0. -/
def phase9Begin (s : State) : State :=
  if !s.boot.startImg.hostMode && chkChainStart s none [0] == ccOk then { s with gen := { s.gen with starting := some 0 } } else s

/-- Phase 9 ends: under AUTO `LEVEL.START` with MODE 0, which fails the phase when it is refused. -/
def phase9End (s : State) : State :=
  if s.boot.startImg.hostMode then { s with pow := { s.pow with phase := 10, reset := .none } }
  else if chkLevelStart s none [0] = ccOk then
    { s with sahya := { s.sahya with startMode := some 0 }, pow := { s.pow with phase := 10, reset := .none } }
  else phaseFails s

/-- The next phase. -/
def nextPhase (s : State) : State := { s with pow := { s.pow with phase := s.pow.phase + 1 } }

/-- A start-up phase that has ended well (18 R510). In recovery the module waits for an image (16 R477). -/
def phaseEnds (s : State) : State :=
  match s.pow.phase with
  | 1 =>
    let s := romBoot s
    if s.boot.recovery then s else nextPhase s
  | 2 => phase3Begin (nextPhase (phase2 s))
  | 3 => nextPhase s
  | 4 => nextPhase s
  | 5 => nextPhase (phase5 s)
  | 6 => nextPhase (phase6 s)
  | 7 => nextPhase (phase7 s)
  | 8 => phase9Begin (nextPhase (phase8 s))
  | 9 => phase9End s
  | _ => s

/-- A verified staging image runs in recovery, and start-up goes on with phase 2 (16 R477). -/
def leaveRecovery (s : State) : State :=
  if s.boot.recovery then
    let s := runSlot s 2
    { s with pow := { s.pow with phase := 2 } }
  else s

end Sys2Proof.Machine
end

