-- ==== Sys2Proof/Machine/SahyaFault.lean ====
section
/-! DEFINITION. The Sahya commands of group FAULT, and the release of the black box (17 R498, R503, R505, R507). -/
namespace Sys2Proof.Machine

/-- The configuration of a `FAULT.CONFIG` (17 R503). -/
def fltConfigOf (w1 w2 cores : Word) : FltConfig :=
  { first := bitsOf w1 0 12, count := bitsOf w1 12 13, n := BitVec.ofNat 8 (bitsOf w2 0 8), w := BitVec.ofNat 16 (bitsOf w2 16 16)
    react := BitVec.ofNat 6 (bitsOf w2 32 6), cores := cores.setWidth 48 }

/-- A configuration waits for step 5 of the next boundary; while no unit executes it takes effect at once (17 R503, log 16). -/
def pendFltConfig (s : State) (c : FltConfig) : State :=
  if isOff s then applyFltConfig s c else { s with coll := { s.coll with pend := s.coll.pend ++ [c] } }

/-- FAULT.CONFIG (17 R503). -/
def execFaultConfig (h : CmdHdr) (w1 w2 cores : Word) (s : State) : Host.Outcome State Fault Refusal :=
  .next (sahyaRun s h 12 1 [w1, w2, cores] chkFaultConfig (plainAct (fun s _ => pendFltConfig s (fltConfigOf w1 w2 cores))))

/-- FLT_SRC of a source (17 R507). -/
def fltSrcWord (i : SrcInfo) (x : Source) : Word :=
  BitVec.ofNat 64 (x.n.toNat + 2 ^ 8 * x.w.toNat + 2 ^ 24 * x.react.toNat + atBit i.attr 30 + atBit i.fixed 31 + atBit x.openW 32
    + 2 ^ 40 * (if x.openW then x.wcnt % 256 else 0))

/-- FLT_SRC, FLT_CNT and FLT_CORES of a source. -/
def fltWords (s : State) (n : Nat) : List Word :=
  match srcInfo n with
  | none => [0, 0, 0]
  | some i =>
    let x := srcOf s n i
    [fltSrcWord i x, BitVec.ofNat 64 x.count, x.cores.setWidth 64]

/-- The results of `FAULT.READ` (16 R548): a unit-range source with its twin. -/
def faultReadWords (s : State) (n : Nat) : List Word :=
  match srcUnit n with
  | none => 1 :: (fltWords s n ++ [0, 0, 0])
  | some _ =>
    let o := n % 0x400
    BitVec.ofNat 64 (presBits s + 4) :: (fltWords s (0x800 + o) ++ fltWords s (0xC00 + o))

/-- FAULT.READ (17 R503). -/
def execFaultRead (h : CmdHdr) (source : Word) (s : State) : Host.Outcome State Fault Refusal :=
  .next (sahyaRun s h 12 2 [source] chkFaultRead (readAct (fun s => faultReadWords s source.toNat)))

/-- The effect of `FAULT.ROUTE` (17 R503): the events that waited go out on the channel. -/
def doFaultRoute (chan : Word) (s : State) : State :=
  let n := Fin.ofNat 64 chan.toNat
  match sahyaSide (mbxOf s n) with
  | none => s
  | some sd =>
    let q := s.sahya.events
    queueReplies { s with sahya := { s.sahya with route := some (n, sd.other), events := [] } } n q

/-- FAULT.ROUTE (17 R503). -/
def execFaultRoute (h : CmdHdr) (chan : Word) (s : State) : Host.Outcome State Fault Refusal :=
  .next (sahyaRun s h 12 3 [chan] chkFaultRoute (plainAct (fun s _ => doFaultRoute chan s)))

/-- The UCC of an event: the unit's own, or the active unit's for a module source. -/
def srcUcc (s : State) (n : Nat) : Nat :=
  match srcUnit n with
  | some u => (getUnit s u).ucc
  | none => (foreState s).ucc

/-- FAULT.INJECT (17 R503): the event never attributes. -/
def execFaultInject (h : CmdHdr) (source info : Word) (s : State) : Host.Outcome State Fault Refusal :=
  .next (sahyaRun s h 12 4 [source, info] chkFaultInject
    (plainAct (fun s _ => raiseWith unitCheckstop s source.toNat (srcUcc s source.toNat) info true)))

/-- The black box released (17 R498): the snapshot is cleared and recording restarts at record 0. -/
def bbReleaseNow (s : State) : State :=
  if !s.bench.frozen then s
  else { s with bench := { s.bench with frozen := false, fcause := 0, snap := [], head := 0, wrapped := false } }

/-- Records of the black box from an index on, four words each (17 R497, R503). -/
def bbWords (s : State) (first count : Nat) : List Word :=
  (List.range count).flatMap (fun k =>
    let r := tabGet (fun _ => ([] : List Word)) s.bench.ring ((first + k) % 1024)
    (List.range 4).map (fun i => r.getD i 0))

/-- The effect of `FAULT.BBOX` (17 R503). -/
def doFaultBbox (op first count : Word) : CmdEffect := fun s _ =>
  if op = 0 then (s, some (bbWords s first.toNat count.toNat))
  else if op = 1 then (bbFreezeWith s 4, some [])
  else (bbReleaseNow s, some [])

/-- FAULT.BBOX (17 R503). -/
def execFaultBbox (h : CmdHdr) (op first count : Word) (s : State) : Host.Outcome State Fault Refusal :=
  .next (sahyaRun s h 12 5 [op, first, count] chkFaultBbox (doFaultBbox op first count))

end Sys2Proof.Machine
end

