-- ==== Sys2Proof/Machine/ExpertRows.lean ====
section
/-! DEFINITION. The expert window, the bench registers, and writes of registers without a row of their own (00 R11 to R15, 16 R484,
R485, 17 R502, R506, R507). -/
namespace Sys2Proof.Machine

/-- EXP_SW_STATUS.BUSY: from GO until the STAMP (16 R485). -/
def swBusyNow (s : State) : Bool :=
  match s.sahya.swBusy with
  | some t => decide ((foreState s).ucc < t)
  | none => false

/-- GO of the staked-write path (16 R485): refused while BUSY, or where OFFSET lies outside the levelled fields. While no unit executes the
write takes effect at once in both (log 16). -/
def stakedGo (s : State) : State :=
  let off := bitsOf s.sahya.swAddr 3 23 * 8
  if swBusyNow s || !winLevelled off then { s with sahya := { s.sahya with swRefused := true } }
  else if isOff s then modBoth s (fun x => winWrite x off s.sahya.swData)
  else
    let t := boundaryStamp s
    issueSvc { s with sahya := { s.sahya with swBusy := some t } } (some t) (.cfg (.unitWrite (BitVec.ofNat 26 off) s.sahya.swData))

/-- A write of EXP_SW_GO (16 R484, R485): ignored while the window is not enabled. -/
def swGoWrite (s : State) (w : Word) : Host.Outcome State Fault Refusal :=
  if !s.sahya.expEn then .next s
  else if bitsOf w 1 63 ≠ 0 then .fault .reservedWrite
  else if bitOf w 0 then .next (stakedGo s) else .next s

/-- EXPERT_STAKED_WRITE (16 R485). -/
def execExpertStakedWrite (go : Word) (s : State) : Host.Outcome State Fault Refusal := swGoWrite s go

/-- A levelled field is written in one unit alone (16 R485, R480): while levelled the Backsight is dropped first; before `LEVEL.START` the
unit is no longer marked initialised. -/
def breakLevel (s : State) (u : UnitId) : State :=
  if isOff s then modUnit s u (fun x => { x with initialised := false })
  else if isLevelled s then dropUnit s (foreUnit s).other 0x09 else s

/-- A write in a unit window (16 R484, R485): ignored while the window is not enabled; UC_MATCH ignores it (10 R324). -/
def windowWrite (s : State) (u : UnitId) (off : Nat) (w : Word) : Host.Outcome State Fault Refusal :=
  if !s.sahya.expEn || off % 8 != 0 then .next s
  else if winBadBits off w then .fault .reservedWrite
  else .next (modUnit (if winLevelled off then breakLevel s u else s) u (fun x => winWrite x off w))

/-- EXPERT_RAW_WRITE (16 R485). -/
def execExpertRawWrite (u : UnitId) (off : BitVec 26) (w : Word) (s : State) : Host.Outcome State Fault Refusal :=
  windowWrite s u off.toNat w

/-- The configuration of a source as its registers stand, with the configurations that wait (17 R503, R507). -/
def fltNow (s : State) (i : SrcInfo) (n : Nat) : FltConfig :=
  match s.coll.pend.reverse.find? (fun c => decide (c.first ≤ n ∧ n < c.first + c.count)) with
  | some c => { c with first := n, count := 1 }
  | none =>
    let x := srcOf s n i
    { first := n, count := 1, n := x.n, w := x.w, react := x.react, cores := x.cores }

/-- FLT_SRC written (17 R507): as `FAULT.CONFIG`; a Fixed source and values that `FAULT.CONFIG` refuses are ignored. -/
def fltSrcWrite (s : State) (n : Nat) (w : Word) : State :=
  match srcInfo n with
  | none => s
  | some i =>
    if i.fixed || !reactOk n (bitsOf w 24 6) || bitsOf w 0 8 == 0 then s
    else pendFltConfig s { fltNow s i n with
      n := BitVec.ofNat 8 (bitsOf w 0 8), w := BitVec.ofNat 16 (bitsOf w 8 16), react := BitVec.ofNat 6 (bitsOf w 24 6) }

/-- FLT_CORES written (17 R507). -/
def fltCoresWrite (s : State) (n : Nat) (w : Word) : State :=
  match srcInfo n with
  | none => s
  | some i => if i.fixed then s else pendFltConfig s { fltNow s i n with cores := w.setWidth 48 }

/-- An EXP_ register writes a reserved bit (16 R485, 17 R507). -/
def expBad (o : Nat) (w : Word) : Bool :=
  (o == 0x08 && (bitsOf w 0 3 != 0 || bitsOf w 26 38 != 0)) || (o == 0x20 && bitsOf w 2 62 != 0)
    || (o == 0x100 && bitsOf w 12 52 != 0) || (o == 0x108 && (bitsOf w 33 7 != 0 || bitsOf w 48 16 != 0))
    || (o == 0x118 && bitsOf w 48 16 != 0)

/-- A writable EXP_ register but EXP_SW_GO written (16 R485, 17 R507). -/
def expReg (s : State) (o : Nat) (w : Word) : State :=
  if o = 0x08 then { s with sahya := { s.sahya with swAddr := w } }
  else if o = 0x10 then { s with sahya := { s.sahya with swData := w } }
  else if o = 0x20 then if bitOf w 1 then { s with sahya := { s.sahya with swRefused := false } } else s
  else if o = 0x100 then { s with sahya := { s.sahya with fltSel := w } }
  else if o = 0x108 then fltSrcWrite s (bitsOf s.sahya.fltSel 0 12) w
  else if o = 0x118 then fltCoresWrite s (bitsOf s.sahya.fltSel 0 12) w
  else s

/-- A write through BAR4 (16 R484): EXP_ registers, bindings, the unit windows; the calibration set is read-only. -/
def expertWrite (s : State) (off : Nat) (w : Word) : Host.Outcome State Fault Refusal :=
  if !s.sahya.expEn || off % 8 != 0 then .next s
  else if off = 0x18 then swGoWrite s w
  else if off < 0x1000 then if expBad off w then .fault .reservedWrite else .next (expReg s off w)
  else if off < 0x1200 then
    if bitsOf w 49 15 ≠ 0 then .fault .reservedWrite else .next (bindWrite s (Fin.ofNat 64 ((off - 0x1000) / 8)) w)
  else if off = 0x1200 then if bitsOf w 1 63 ≠ 0 then .fault .reservedWrite else .next (lockWrite s w)
  else if 0x4000000 ≤ off ∧ off < 0x8000000 then windowWrite s .u0 (off - 0x4000000) w
  else if 0x8000000 ≤ off ∧ off < 0xC000000 then windowWrite s .u1 (off - 0x8000000) w
  else .next s

/-- BENCH_CTL.CHECKSTOP (17 R506): HOST_CHECKSTOP, whose INFO is a free value (log 8). -/
def hostStop (s : State) : State := raiseFree s 0x00B (foreState s).ucc

/-- ERROR as BENCH_CTL sets or clears it (17 R500). -/
def setError (s : State) (v : Bool) : State := { s with bench := { s.bench with error := v } }

/-- A write of BENCH_CTL (17 R506): pairs that cancel, CHECKSTOP over BB_RELEASE, then the bits in order. -/
def benchCtl (s : State) (w : Word) : State :=
  let f := bitOf w 1 && !bitOf w 2
  let r := bitOf w 2 && !bitOf w 1 && !bitOf w 0
  let e := bitOf w 3 && !bitOf w 4
  let c := bitOf w 4 && !bitOf w 3
  let s := if bitOf w 0 then hostStop s else s
  let s := if f then bbFreezeWith s 2 else s
  let s := if r then bbReleaseNow s else s
  let s := if e then setError s true else s
  if c then setError s false else s

/-- A host-forced module reset with its key (17 R502, R506). -/
def benchReset (s : State) (key : Nat) (cold : Bool) : State :=
  if key = 0x5A5A then beginReset s cold true (if cold then 4 else 3) else s

/-- A write of BENCH_ZERO (17 R506): 0x5A5A arms, 0xA5A5 while armed zeroises, any other value disarms. -/
def benchZeroKey (s : State) (key : Nat) : State :=
  if key = 0x5A5A then { s with bench := { s.bench with zeroArmed := true } }
  else
    let armed := s.bench.zeroArmed
    let s := { s with bench := { s.bench with zeroArmed := false } }
    if key = 0xA5A5 ∧ armed then zeroise s false else s

/-- FLT_FIRST written (17 R496): VALID clears the whole latch. -/
def fltFirstWrite (s : State) (w : Word) : State :=
  if bitOf w 12 then { s with bench := { s.bench with fltFirst := 0, fltFirstCn := 0 } } else s

/-- A bench register writes a reserved bit (17 R506). -/
def benchBad (o : Nat) (w : Word) : Bool :=
  (o == 0x08 && bitsOf w 14 2 != 0) || (o == 0x18 && bitsOf w 5 59 != 0) || (o == 0x20 && bitsOf w 18 46 != 0)
    || (o == 0x28 && bitsOf w 16 48 != 0) || (o == 0x30 && (bitsOf w 2 6 != 0 || bitsOf w 16 48 != 0))

/-- A write through BAR2 (17 R506). -/
def benchWrite (s : State) (o : Nat) (w : Word) : State :=
  if o = 0x08 then fltFirstWrite s w
  else if o = 0x18 then benchCtl s w
  else if o = 0x20 then
    let k := bitsOf w 16 2
    if k = 1 ∨ k = 2 then benchReset s (bitsOf w 0 16) (k == 2) else s
  else if o = 0x28 then benchZeroKey s (bitsOf w 0 16)
  else if o = 0x30 then { s with bench := { s.bench with cfg := w } }
  else s

/-- A control-window register written by a parcel (15 R453): a target that refuses changes nothing. -/
def controlWrite (s : State) (u : UnitId) (m : CtlMaster) (off : Nat) (w : Word) : Host.Outcome State Fault Refusal :=
  let l := ctlLoc off
  if !(getUnit s u).executing || off % 8 != 0 || !ctlListed l || !ctlAccepts (getUnit s u) m true l then .next s
  else if ctlBadBits l w then .fault .reservedWrite
  else .next (ctlWrite s u m l w)

/-- REGISTER_WRITE (00 R11 to R15). -/
def execRegisterWrite (sp : RegSpace) (off : BitVec 38) (w : Word) (s : State) : Host.Outcome State Fault Refusal :=
  match sp with
  | .control u p sup => controlWrite s u { parcel := p.toNat, sup := sup } off.toNat w
  | .bench =>
    if !s.pow.vaon then .next s
    else if benchBad off.toNat w then .fault .reservedWrite else .next (benchWrite s off.toNat w)
  | .expert => expertWrite s off.toNat w
  | .unitWindow u => windowWrite s u off.toNat w

end Sys2Proof.Machine
end

