-- ==== Sys2Proof/Machine/FaultRows.lean ====
section
/-! DEFINITION. The rows of the service pair, the fault collector and the bench domain (16 R456, R457, 17 R490 to R506). -/
namespace Sys2Proof.Machine

/-- SVC_WATCHDOG (16 R457): FWDOWN and EN are set, the source is raised, the service processor stops. The hardware paths go on. -/
def execSvcWatchdog (s : State) : Host.Outcome State Fault Refusal :=
  if s.sahya.running && !s.sahya.fwDown && !s.sahya.lockStop then
    .next (raiseFree { s with sahya := { s.sahya with fwDown := true, expEn := true, running := false } } 0x001 (foreState s).ucc)
  else .next s

/-- SVC_LOCKSTEP (16 R456): both service cores and both chain generators stop; the service die stakes nothing more. -/
def execSvcLockstep (s : State) : Host.Outcome State Fault Refusal :=
  if s.pow.phase = 0 ∨ s.sahya.lockStop then .next s
  else
    let s := { s with
      sahya := { s.sahya with lockStop := true, running := false }
      gen := { s.gen with stopped := true } }
    .next (raiseFree s 0x000 (foreState s).ucc)

/-- A slot whose key has an uncorrectable error becomes empty (16 R482). -/
def emptySlot (s : State) (n : Nat) : State :=
  setSlot s n { slotOf s n with attrs := withBits (slotOf s n).attrs 0 8 0 }

/-- What an event of a module source brings with it: KEY_UE empties the slot that INFO names (16 R482), BRIDGE_FAIL takes the level
bridge away and ends a re-level (04 R125). -/
def eventSide (s : State) (src : Nat) (info : Word) : State :=
  if src = 0x005 then emptySlot s (bitsOf info 0 14)
  else if src = 0x006 then relevelAbort { s with hub := { s.hub with bridgeDown := true } } 0x21
  else s

/-- FAULT_EVENT (17 R490). -/
def execFaultEvent (source : BitVec 12) (ucc : Nat) (info : Word) (s : State) : Host.Outcome State Fault Refusal :=
  if !s.pow.vaon then .next s else .next (eventSide (raiseFault s source.toNat ucc info) source.toNat info)

/-- MR_DELAY_EXPIRY (17 R493). -/
def execMrDelayExpiry (s : State) : Host.Outcome State Fault Refusal :=
  if s.bench.mrDelay then .next (beginReset s false false 5) else .next s

/-- TICK_FAILURE (17 R495): only while CHN_STATUS.RUN is 1. -/
def execTickFailure (s : State) : Host.Outcome State Fault Refusal :=
  if s.gen.run then .next (raiseFree s 0x002 (foreState s).ucc) else .next s

/-- CHECKSTOP_IN (17 R499, R508): with CSIN_EN, and not while the module is in checkstop. -/
def execCheckstopIn (s : State) : Host.Outcome State Fault Refusal :=
  if s.pow.vaon && bitOf s.bench.cfg 0 && !s.bench.checkstop then .next (raiseFree s 0x00A (foreState s).ucc) else .next s

/-- A bench operation completes whenever VAON is present (17 R502). -/
def benchRow (s : State) (f : State → State) : Host.Outcome State Fault Refusal := .next (if s.pow.vaon then f s else s)

/-- HOST_CHECKSTOP (17 R506). -/
def execHostCheckstop (s : State) : Host.Outcome State Fault Refusal := benchRow s hostStop

/-- BB_FREEZE (17 R498). -/
def execBbFreeze (s : State) : Host.Outcome State Fault Refusal := benchRow s (fun s => bbFreezeWith s 2)

/-- BB_RELEASE (17 R498). -/
def execBbRelease (s : State) : Host.Outcome State Fault Refusal := benchRow s bbReleaseNow

/-- ERROR_SET (17 R500). -/
def execErrorSet (s : State) : Host.Outcome State Fault Refusal := benchRow s (fun s => setError s true)

/-- ERROR_CLR (17 R500). -/
def execErrorClr (s : State) : Host.Outcome State Fault Refusal := benchRow s (fun s => setError s false)

/-- FLT_FIRST_CLEAR (17 R496). -/
def execFltFirstClear (s : State) : Host.Outcome State Fault Refusal := benchRow s (fun s => fltFirstWrite s 0x1000)

/-- BENCH_RESET_WARM (17 R502). -/
def execBenchResetWarm (key : BitVec 16) (s : State) : Host.Outcome State Fault Refusal := benchRow s (fun s => benchReset s key.toNat false)

/-- BENCH_RESET_COLD (17 R502). -/
def execBenchResetCold (key : BitVec 16) (s : State) : Host.Outcome State Fault Refusal := benchRow s (fun s => benchReset s key.toNat true)

/-- BENCH_ZERO_ARM (17 R506). -/
def execBenchZeroArm (key : BitVec 16) (s : State) : Host.Outcome State Fault Refusal := benchRow s (fun s => benchZeroKey s key.toNat)

/-- BENCH_ZERO (17 R502, R506). -/
def execBenchZero (key : BitVec 16) (s : State) : Host.Outcome State Fault Refusal := benchRow s (fun s => benchZeroKey s key.toNat)

/-- BENCH_ZERO_ARM_EXPIRY (17 R506). -/
def execBenchZeroArmExpiry (s : State) : Host.Outcome State Fault Refusal :=
  .next { s with bench := { s.bench with zeroArmed := false } }

end Sys2Proof.Machine
end

