-- ==== Sys2Proof/Machine/Float.lean ====
section
/-! DEFINITION. Floating-point instructions: binary32 and binary64 under the choices of 08 R253 to R263. Values are exact
rationals m * 2^e until one rounding. -/
namespace Sys2Proof.Machine

/-- A format: fraction bits and exponent bits. -/
structure FpFmt where
  frac : Nat
  expo : Nat
  deriving DecidableEq, Repr

/-- binary64. -/
def fmtD : FpFmt := { frac := 52, expo := 11 }
/-- binary32. -/
def fmtS : FpFmt := { frac := 23, expo := 8 }
/-- The format that P names: 1 is binary32 (07 R228). -/
def fmtOf (single : Bool) : FpFmt := if single then fmtS else fmtD

/-- The exponent bias. -/
def fpBias (f : FpFmt) : Nat := 2 ^ (f.expo - 1) - 1
/-- The exponent field of all ones. -/
def fpEmax (f : FpFmt) : Nat := 2 ^ f.expo - 1

/-- The fields of a value. -/
def fpSign (f : FpFmt) (v : Nat) : Bool := v / 2 ^ (f.frac + f.expo) % 2 == 1
/-- The exponent field. -/
def fpExp (f : FpFmt) (v : Nat) : Nat := v / 2 ^ f.frac % 2 ^ f.expo
/-- The fraction field. -/
def fpFrac (f : FpFmt) (v : Nat) : Nat := v % 2 ^ f.frac
/-- A value from its fields. -/
def fpPack (f : FpFmt) (sg : Bool) (ex fr : Nat) : Nat := bit sg * 2 ^ (f.frac + f.expo) + ex * 2 ^ f.frac + fr

/-- The classes of operands (08 R256, R259). -/
def fpIsNan (f : FpFmt) (v : Nat) : Bool := fpExp f v == fpEmax f && fpFrac f v != 0
/-- A signalling NaN: the quiet bit is clear. -/
def fpIsSnan (f : FpFmt) (v : Nat) : Bool := fpIsNan f v && (fpFrac f v / 2 ^ (f.frac - 1) == 0)
/-- An infinity. -/
def fpIsInf (f : FpFmt) (v : Nat) : Bool := fpExp f v == fpEmax f && fpFrac f v == 0
/-- A zero. -/
def fpIsZero (f : FpFmt) (v : Nat) : Bool := fpExp f v == 0 && fpFrac f v == 0
/-- A subnormal operand (08 R256). -/
def fpIsSub (f : FpFmt) (v : Nat) : Bool := fpExp f v == 0 && fpFrac f v != 0

/-- An infinity of a sign. -/
def fpInf (f : FpFmt) (sg : Bool) : Nat := fpPack f sg (fpEmax f) 0
/-- A zero of a sign. -/
def fpZero (f : FpFmt) (sg : Bool) : Nat := fpPack f sg 0 0
/-- The largest finite value of a sign. -/
def fpMax (f : FpFmt) (sg : Bool) : Nat := fpPack f sg (fpEmax f - 1) (2 ^ f.frac - 1)
/-- The default NaN (08 R259). -/
def fpDefNan (f : FpFmt) : Nat := fpPack f false (fpEmax f) (2 ^ (f.frac - 1))
/-- A NaN with its quiet bit set (08 R259). -/
def fpQuiet (f : FpFmt) (v : Nat) : Nat := v ||| 2 ^ (f.frac - 1)

/-- A normal value is sign, mantissa and exponent: mantissa * 2^exponent. -/
def fpMant (f : FpFmt) (v : Nat) : Nat := 2 ^ f.frac + fpFrac f v
/-- Its exponent. -/
def fpPow (f : FpFmt) (v : Nat) : Int := (fpExp f v : Int) - fpBias f - f.frac

/-- The FPSW flags an operation sets: INVALID, DIVZERO, OVERFLOW, UNDERFLOW, INEXACT from bit 0 (07 R219). -/
abbrev FpFlags := BitVec 5
/-- INVALID. -/
def fInvalid : FpFlags := 1
/-- DIVZERO. -/
def fDivzero : FpFlags := 2
/-- OVERFLOW with INEXACT. -/
def fOverflow : FpFlags := 0x14
/-- UNDERFLOW with INEXACT. -/
def fUnderflow : FpFlags := 0x18
/-- INEXACT. -/
def fInexact : FpFlags := 0x10

/-- What an operation gives: a result with its flags, or the subnormal trap. -/
inductive FpOut
  | value (v : Nat) (fl : FpFlags)
  | trap
  deriving DecidableEq, Repr

/-- The number of bits of a number. -/
def bitLen (n : Nat) : Nat := if n = 0 then 0 else Nat.log2 n + 1

/-- Whether a rounding mode increments the magnitude, from the sign, the kept low bit, the first bit lost and whether any
further bit is lost (07 R219 FPCR.RM). -/
def roundUp (rm : Nat) (sg : Bool) (odd half rest : Bool) : Bool :=
  match rm with
  | 0 => half && (rest || odd)
  | 1 => false
  | 2 => !sg && (half || rest)
  | _ => sg && (half || rest)

/-- A magnitude m * 2^e with a sticky part rounded to `n` bits: the rounded mantissa and exponent, and whether it is
inexact. -/
def roundTo (rm : Nat) (sg : Bool) (n : Nat) (m : Nat) (e : Int) (sticky : Bool) : Nat × Int × Bool :=
  let l := bitLen m
  if l ≤ n then
    let m' := m * 2 ^ (n - l)
    let e' := e - ((n - l : Nat) : Int)
    if sticky && roundUp rm sg (m' % 2 == 1) false true then
      (if m' + 1 = 2 ^ n then (2 ^ (n - 1), e' + 1, true) else (m' + 1, e', true))
    else (m', e', sticky)
  else
    let k := l - n
    let q := m / 2 ^ k
    let r := m % 2 ^ k
    let half := decide (2 ^ (k - 1) ≤ r)
    let rest := sticky || decide (r % 2 ^ (k - 1) ≠ 0)
    let e' := e + (k : Int)
    if roundUp rm sg (q % 2 == 1) half rest then
      (if q + 1 = 2 ^ n then (2 ^ (n - 1), e' + 1, half || rest) else (q + 1, e', half || rest))
    else (q, e', half || rest)

/-- The result on overflow (08 R255). -/
def overflowValue (f : FpFmt) (rm : Nat) (sg : Bool) : Nat :=
  match rm with
  | 0 => fpInf f sg
  | 1 => fpMax f sg
  | 2 => if sg then fpMax f sg else fpInf f sg
  | _ => if sg then fpInf f sg else fpMax f sg

/-- A non-zero exact magnitude m * 2^e, with a sticky part, rounded and delivered (08 R254 to R258). -/
def fpDeliver (f : FpFmt) (rm : Nat) (flush : Bool) (sg : Bool) (m : Nat) (e : Int) (sticky : Bool) : FpOut :=
  let r := roundTo rm sg (f.frac + 1) m e sticky
  let ex := r.2.1 + f.frac + fpBias f
  if ex ≤ 0 then (if flush then .value (fpZero f sg) fUnderflow else .trap)
  else if (fpEmax f : Int) ≤ ex then .value (overflowValue f rm sg) fOverflow
  else .value (fpPack f sg ex.toNat (r.1 - 2 ^ f.frac)) (if r.2.2 then fInexact else 0)

/-- Under FLUSH a subnormal operand becomes a zero of its sign (08 R258). -/
def fpFlushIn (f : FpFmt) (v : Nat) : Nat := if fpIsSub f v then fpZero f (fpSign f v) else v

/-- The NaN that an operation with a NaN operand delivers: the first NaN, quiet; INVALID with any signalling NaN
(08 R259). -/
def fpNan (f : FpFmt) (vs : List Nat) (extra : FpFlags) : Option FpOut :=
  match vs.find? (fpIsNan f) with
  | none => none
  | some v => some (.value (fpQuiet f v) (if vs.any (fpIsSnan f) then fInvalid ||| extra else extra))

/-- The default NaN with INVALID. -/
def fpInvalid (f : FpFmt) : FpOut := .value (fpDefNan f) fInvalid

/-- The sign of an exact zero sum of opposite signs (08 R254). -/
def zeroSumSign (rm : Nat) : Bool := rm == 3

/-- A signed exact sum of two magnitudes (a zero magnitude adds nothing): delivered, or a zero. -/
def fpSumOf (f : FpFmt) (rm : Nat) (flush : Bool) (sa : Bool) (ma : Nat) (ea : Int) (sb : Bool) (mb : Nat) (eb : Int) : FpOut :=
  let e := min ea eb
  let va : Int := (if sa then -1 else 1) * (ma * 2 ^ (ea - e).toNat : Nat)
  let vb : Int := (if sb then -1 else 1) * (mb * 2 ^ (eb - e).toNat : Nat)
  let v := va + vb
  if v = 0 then .value (fpZero f (if sa = sb then sa else zeroSumSign rm)) 0
  else fpDeliver f rm flush (decide (v < 0)) v.natAbs e false

/-- The mantissa of an operand, zero for a zero. -/
def fpMag (f : FpFmt) (v : Nat) : Nat := if fpIsZero f v then 0 else fpMant f v
/-- Its exponent; a zero has a harmless one. -/
def fpMagPow (f : FpFmt) (v : Nat) : Int := if fpIsZero f v then 0 else fpPow f v

/-- x + y; subtraction passes y with its sign changed (08 R254, R255). -/
def fpAdd (f : FpFmt) (rm : Nat) (flush : Bool) (x y : Nat) : FpOut :=
  if fpIsInf f x then
    (if fpIsInf f y ∧ fpSign f x ≠ fpSign f y then fpInvalid f else .value x 0)
  else if fpIsInf f y then .value y 0
  else if fpIsZero f x then
    (if fpIsZero f y then .value (fpZero f (if fpSign f x = fpSign f y then fpSign f x else zeroSumSign rm)) 0
     else .value y 0)
  else if fpIsZero f y then .value x 0
  else fpSumOf f rm flush (fpSign f x) (fpMag f x) (fpMagPow f x) (fpSign f y) (fpMag f y) (fpMagPow f y)

/-- x * y. -/
def fpMul (f : FpFmt) (rm : Nat) (flush : Bool) (x y : Nat) : FpOut :=
  let sg := fpSign f x != fpSign f y
  if fpIsInf f x ∨ fpIsInf f y then
    (if fpIsZero f x ∨ fpIsZero f y then fpInvalid f else .value (fpInf f sg) 0)
  else if fpIsZero f x ∨ fpIsZero f y then .value (fpZero f sg) 0
  else fpDeliver f rm flush sg (fpMant f x * fpMant f y) (fpPow f x + fpPow f y) false

/-- x / y: the quotient to enough bits, with a sticky remainder. -/
def fpDiv (f : FpFmt) (rm : Nat) (flush : Bool) (x y : Nat) : FpOut :=
  let sg := fpSign f x != fpSign f y
  if fpIsInf f x then (if fpIsInf f y then fpInvalid f else .value (fpInf f sg) 0)
  else if fpIsInf f y then .value (fpZero f sg) 0
  else if fpIsZero f y then (if fpIsZero f x then fpInvalid f else .value (fpInf f sg) fDivzero)
  else if fpIsZero f x then .value (fpZero f sg) 0
  else
    let k := f.frac + 4
    let n := fpMant f x * 2 ^ k
    fpDeliver f rm flush sg (n / fpMant f y) (fpPow f x - fpPow f y - k) (decide (n % fpMant f y ≠ 0))

/-- The integer square root, found bit by bit from bit `n` down. -/
def isqrt (v : Nat) : Nat → Nat → Nat
  | 0, r => r
  | n + 1, r => isqrt v n (if (r + 2 ^ n) * (r + 2 ^ n) ≤ v then r + 2 ^ n else r)

/-- The square root. -/
def fpSqrt (f : FpFmt) (rm : Nat) (flush : Bool) (x : Nat) : FpOut :=
  if fpIsZero f x then .value x 0
  else if fpSign f x then fpInvalid f
  else if fpIsInf f x then .value x 0
  else
    let odd := fpPow f x % 2 ≠ 0
    let e := if odd then fpPow f x - 1 else fpPow f x
    let k := f.frac + 5
    let n := fpMant f x * (if odd then 2 else 1) * 2 ^ (2 * k)
    let r := isqrt n (f.frac + 2 + k) 0
    fpDeliver f rm flush false r (e / 2 - k) (decide (r * r ≠ n))

/-- x * y + z with one rounding (08 R254, R256). -/
def fpFma (f : FpFmt) (rm : Nat) (flush : Bool) (x y z : Nat) : FpOut :=
  let sg := fpSign f x != fpSign f y
  if fpIsInf f x ∨ fpIsInf f y then
    (if fpIsZero f x ∨ fpIsZero f y then fpInvalid f
     else if fpIsInf f z ∧ fpSign f z ≠ sg then fpInvalid f else .value (fpInf f sg) 0)
  else if fpIsInf f z then .value z 0
  else if fpIsZero f x ∨ fpIsZero f y then
    (if fpIsZero f z then .value (fpZero f (if sg = fpSign f z then sg else zeroSumSign rm)) 0 else .value z 0)
  else if fpIsZero f z then fpDeliver f rm flush sg (fpMant f x * fpMant f y) (fpPow f x + fpPow f y) false
  else fpSumOf f rm flush sg (fpMant f x * fpMant f y) (fpPow f x + fpPow f y) (fpSign f z) (fpMag f z) (fpMagPow f z)

/-- 0 * infinity among the factors (08 R259). -/
def zeroTimesInf (f : FpFmt) (x y : Nat) : Bool := (fpIsInf f x && fpIsZero f y) || (fpIsZero f x && fpIsInf f y)

/-- An operation on its operands: the subnormal trap or flush of each operand (08 R257, R258), then NaNs (R259), then the
operation. -/
def fpOperate (f : FpFmt) (flush : Bool) (vs : List Nat) (extra : List Nat → FpFlags) (op : List Nat → FpOut) : FpOut :=
  if !flush && vs.any (fpIsSub f) then .trap else
  let ws := if flush then vs.map (fpFlushIn f) else vs
  match fpNan f ws (extra ws) with
  | some o => o
  | none => op ws

/-- A signed integer value of m * 2^e rounded (08 R260 FCVTI): the magnitude and whether it is inexact. -/
def fpToInt (rm : Nat) (sg : Bool) (m : Nat) (e : Int) : Nat × Bool :=
  if 0 ≤ e then (m * 2 ^ e.toNat, false)
  else
    let k := (-e).toNat
    let q := m / 2 ^ k
    let r := m % 2 ^ k
    let half := decide (2 ^ (k - 1) ≤ r)
    let rest := decide (r % 2 ^ (k - 1) ≠ 0)
    (if roundUp rm sg (q % 2 == 1) half rest then q + 1 else q, half || rest)

/-- FCVTI of a value that is not subnormal (08 R260). The exponent is bounded first: a magnitude of 2^64 or more is out of
range. -/
def fpToWord (f : FpFmt) (rm : Nat) (v : Nat) : Nat × FpFlags :=
  let sg := fpSign f v
  let outOf := (if sg then 2 ^ 63 else 2 ^ 63 - 1, fInvalid)
  if fpIsNan f v then (2 ^ 63, fInvalid)
  else if fpIsInf f v then outOf
  else if fpIsZero f v then (0, 0)
  else if 64 ≤ fpPow f v then outOf
  else
    let r := fpToInt rm sg (fpMant f v) (fpPow f v)
    if (if sg then r.1 ≤ 2 ^ 63 else r.1 < 2 ^ 63) then
      ((if sg then 2 ^ 64 - r.1 else r.1) % 2 ^ 64, if r.2 then fInexact else 0)
    else outOf

/-- The operand of a format in a data register (07 R217). -/
def fpRead (f : FpFmt) (v : Word) : Nat := v.toNat % 2 ^ (f.frac + f.expo + 1)

/-- The register code of FPSW (07 R219). -/
def codeFpsw : BitVec 8 := 0x32

/-- A floating-point result retires: Dd, then FPSW when a flag is set (log 19); the trap is SUBNORMAL with nothing changed
(08 R257). -/
def fpFinish (s : State) (p : Proc) (d : Reg) (o : FpOut) : XOut :=
  match o with
  | .trap => .exn s 0x0B 0
  | .value v fl =>
    let r := putD (getCore s p) d (BitVec.ofNat 64 v)
    let c : Core := { r.1 with fpsw := r.1.fpsw ||| fl }
    .done (setCore s p c) (if fl = 0 then r.2 else r.2 ++ [(codeFpsw, c.fpsw.setWidth 128)]) 1

/-- A floating-point instruction with a result in Dd. -/
def runFp (s : State) (i : Issue) (d : Reg) (f : Core → FpOut) : Host.Outcome State Fault Refusal :=
  runInstr s i (encC2 false) (fun s => fpFinish s i.proc d (f (getCore s i.proc)))

/-- FPCR.SUBN = FLUSH. -/
def isFlush (c : Core) : Bool := c.subn

/-- FADD (08 R254 to R259). -/
def execFadd (i : Issue) (single : Bool) (d rs t : Reg) (s : State) : Host.Outcome State Fault Refusal :=
  runFp s i d (fun c =>
    let f := fmtOf single
    fpOperate f (isFlush c) [fpRead f (rdD c rs), fpRead f (rdD c t)] (fun _ => 0)
      (fun v => fpAdd f c.rm.toNat (isFlush c) (v.getD 0 0) (v.getD 1 0)))

/-- FSUB: the sum with the second operand's sign changed. -/
def execFsub (i : Issue) (single : Bool) (d rs t : Reg) (s : State) : Host.Outcome State Fault Refusal :=
  runFp s i d (fun c =>
    let f := fmtOf single
    fpOperate f (isFlush c) [fpRead f (rdD c rs), fpRead f (rdD c t)] (fun _ => 0)
      (fun v => fpAdd f c.rm.toNat (isFlush c) (v.getD 0 0) (v.getD 1 0 ^^^ 2 ^ (f.frac + f.expo))))

/-- FMUL. -/
def execFmul (i : Issue) (single : Bool) (d rs t : Reg) (s : State) : Host.Outcome State Fault Refusal :=
  runFp s i d (fun c =>
    let f := fmtOf single
    fpOperate f (isFlush c) [fpRead f (rdD c rs), fpRead f (rdD c t)] (fun _ => 0)
      (fun v => fpMul f c.rm.toNat (isFlush c) (v.getD 0 0) (v.getD 1 0)))

/-- FDIV. -/
def execFdiv (i : Issue) (single : Bool) (d rs t : Reg) (s : State) : Host.Outcome State Fault Refusal :=
  runFp s i d (fun c =>
    let f := fmtOf single
    fpOperate f (isFlush c) [fpRead f (rdD c rs), fpRead f (rdD c t)] (fun _ => 0)
      (fun v => fpDiv f c.rm.toNat (isFlush c) (v.getD 0 0) (v.getD 1 0)))

/-- FSQRT. -/
def execFsqrt (i : Issue) (single : Bool) (d rs : Reg) (s : State) : Host.Outcome State Fault Refusal :=
  runFp s i d (fun c =>
    let f := fmtOf single
    fpOperate f (isFlush c) [fpRead f (rdD c rs)] (fun _ => 0)
      (fun v => fpSqrt f c.rm.toNat (isFlush c) (v.getD 0 0)))

/-- FMA: Ds * Dt + Dd, one rounding; the operand order of R259 is Ds, Dt, Dd. -/
def execFma (i : Issue) (single : Bool) (d rs t : Reg) (s : State) : Host.Outcome State Fault Refusal :=
  runFp s i d (fun c =>
    let f := fmtOf single
    fpOperate f (isFlush c) [fpRead f (rdD c rs), fpRead f (rdD c t), fpRead f (rdD c d)]
      (fun v => if zeroTimesInf f (v.getD 0 0) (v.getD 1 0) then fInvalid else 0)
      (fun v => fpFma f c.rm.toNat (isFlush c) (v.getD 0 0) (v.getD 1 0) (v.getD 2 0)))

/-- FNEG: the sign bit alone changes (08 R254). -/
def execFneg (i : Issue) (single : Bool) (d rs : Reg) (s : State) : Host.Outcome State Fault Refusal :=
  runFp s i d (fun c => let f := fmtOf single; .value (fpRead f (rdD c rs) ^^^ 2 ^ (f.frac + f.expo)) 0)

/-- FABS: the sign bit cleared (08 R254). -/
def execFabs (i : Issue) (single : Bool) (d rs : Reg) (s : State) : Host.Outcome State Fault Refusal :=
  runFp s i d (fun c => let f := fmtOf single; .value (fpRead f (rdD c rs) % 2 ^ (f.frac + f.expo)) 0)

/-- FCVT to the other precision; P names the source (07 R228, 08 R260). -/
def execFcvt (i : Issue) (single : Bool) (d rs : Reg) (s : State) : Host.Outcome State Fault Refusal :=
  runFp s i d (fun c =>
    let f := fmtOf single
    let g := fmtOf (!single)
    let v := fpRead f (rdD c rs)
    if fpIsNan f v then
      let fr := if single then fpFrac f v * 2 ^ 29 else fpFrac f v / 2 ^ 29
      .value (fpQuiet g (fpPack g (fpSign f v) (fpEmax g) fr)) (if fpIsSnan f v then fInvalid else 0)
    else if fpIsSub f v then
      (if isFlush c then .value (fpZero g (fpSign f v)) 0 else .trap)
    else if fpIsZero f v then .value (fpZero g (fpSign f v)) 0
    else if fpIsInf f v then .value (fpInf g (fpSign f v)) 0
    else fpDeliver g c.rm.toNat (isFlush c) (fpSign f v) (fpMant f v) (fpPow f v) false)

/-- FCVTI to a signed 64-bit integer; P names the source (08 R260). -/
def execFcvti (i : Issue) (single : Bool) (d rs : Reg) (s : State) : Host.Outcome State Fault Refusal :=
  runFp s i d (fun c =>
    let f := fmtOf single
    let v := fpRead f (rdD c rs)
    if fpIsSub f v then (if isFlush c then .value 0 0 else .trap)
    else let r := fpToWord f c.rm.toNat v; .value r.1 r.2)

/-- ICVTF from a signed 64-bit integer; P names the destination (08 R260). -/
def execIcvtf (i : Issue) (single : Bool) (d rs : Reg) (s : State) : Host.Outcome State Fault Refusal :=
  runFp s i d (fun c =>
    let g := fmtOf single
    let v := (rdD c rs).toInt
    if v = 0 then .value (fpZero g false) 0
    else fpDeliver g c.rm.toNat (isFlush c) (decide (v < 0)) v.natAbs 0 false)

/-- The order of two operands that are no NaN: each as a signed number by sign and magnitude field. -/
def fpKey (f : FpFmt) (v : Nat) : Int :=
  let m := v % 2 ^ (f.frac + f.expo)
  if fpSign f v then -(m : Int) else (m : Int)

/-- FCMP: N for less, Z and C for equal, C for greater, C and V for unordered (07 R228, 08 R261). -/
def execFcmp (i : Issue) (single : Bool) (rs t : Reg) (s : State) : Host.Outcome State Fault Refusal :=
  runInstr s i (encC2 false) (fun s =>
    let c := getCore s i.proc
    let f := fmtOf single
    let vs := [fpRead f (rdD c rs), fpRead f (rdD c t)]
    if !isFlush c && vs.any (fpIsSub f) then .exn s 0x0B 0 else
    let ws := vs.map (fpFlushIn f)
    let x := ws.getD 0 0
    let y := ws.getD 1 0
    let fl : FpFlags := if ws.any (fpIsSnan f) then fInvalid else 0
    let p := if ws.any (fpIsNan f) then { c.psw with n := false, z := false, c := true, v := true }
      else if fpKey f x < fpKey f y then { c.psw with n := true, z := false, c := false, v := false }
      else if fpKey f x = fpKey f y then { c.psw with n := false, z := true, c := true, v := false }
      else { c.psw with n := false, z := false, c := true, v := false }
    let c' : Core := { c with psw := p, fpsw := c.fpsw ||| fl }
    .done (setCore s i.proc c')
      (if fl = 0 then [pswItem c'] else [pswItem c', (codeFpsw, c'.fpsw.setWidth 128)]) 1)

end Sys2Proof.Machine
end

