-- ==== Sys2Proof/Machine/SahyaPath.lean ====
section
/-! DEFINITION. The Sahya commands of group PATH (01 R22, 06 R173, R174, R177, R203, R204, 16 R548). -/
namespace Sys2Proof.Machine

/-- The effect of `PATH.MODID` (01 R22): an override that lasts until module cold reset. -/
def doPathModid (id : Word) (s : State) (st : Option Nat) : State :=
  cfgFw { s with pow := { s.pow with modId := id.setWidth 16, modIdOvr := true } } st (.modId (id.setWidth 16))

/-- PATH.MODID (01 R22). -/
def execPathModid (h : CmdHdr) (id : Word) (s : State) : Host.Outcome State Fault Refusal :=
  .next (sahyaRun s h 7 1 [id] chkPathModid (plainAct (doPathModid id)))

/-- Eight words of multicast entries put at entry `k` of a port's filter; missing ones read zero. -/
def putMcast (l : List (BitVec 48)) (k : Nat) (ws : List Word) : List (BitVec 48) :=
  (l.take k) ++ (List.range 8).map (fun i => (ws.getD i 0).setWidth 48) ++ l.drop (k + 8)

/-- The configured ports of a die whose lanes a new port takes (06 R173). -/
def replacedPorts (s : State) (p n : Nat) : List Nat :=
  (s.ports.filter (fun e => decide (e.1 ≠ p) && e.2.conf && lanesMeet p n e.1 (portLanes e.2))).map (fun e => e.1)

/-- A port unconfigured at its die (06 R173): it goes down. -/
def portUnconfigure (s : State) (p : Nat) : State := modPort (goDown s (Fin.ofNat 1024 p)) p (fun x => { x with conf := false })

/-- The effect of `PATH.PORT` (06 R173): with MCHI the upper multicast entries alone; else the ports that it replaces and the port's own
die fields at once, the units' fields by their stake. A port that is up goes down and retrains. -/
def doPathPort (port cfg mac raw : Word) (mcast : List Word) (s : State) (st : Option Nat) : State :=
  let p := port.toNat
  if bitOf cfg 11 then modPort s p (fun x => { x with mcast := putMcast x.mcast 8 mcast })
  else
    let s := (replacedPorts s p (widthLanes (bitsOf cfg 4 2))).foldl portUnconfigure s
    let s := goDown s (Fin.ofNat 1024 p)
    let s := modPort s p (fun x => { x with conf := true, cfg := cfg, mac := mac.setWidth 48, mcast := putMcast x.mcast 0 mcast })
    cfgFw s st (.portConfig (Fin.ofNat 1024 p) cfg (mac.setWidth 48) (raw.setWidth 20))

/-- PATH.PORT (06 R173, R174). -/
def execPathPort (h : CmdHdr) (port cfg mac raw : Word) (mcast : List Word) (s : State) : Host.Outcome State Fault Refusal :=
  .next (sahyaRun s h 7 2 (port :: cfg :: mac :: raw :: mcast) chkPathPort (plainAct (doPathPort port cfg mac raw mcast)))

/-- The levelled words of `PATH.STATUS` (16 R548). -/
def portLevelled (q : UnitPort) (die : Nat) (pres : Bool) : List Word :=
  let c := q.cfg
  let mode := bitsOf c 0 4
  let width := bitsOf c 4 2
  let fec := bitsOf c 6 2
  let flags := bitsOf c 8 3
  let w := bit q.up + 2 * bit q.conf + 4 * mode + 2 ^ 6 * width + 2 ^ 8 * fec + 2 ^ 10 * flags + 2 ^ 16 * bitsOf c 16 16
    + 2 ^ 32 * die + 2 ^ 34 * bit pres
  [BitVec.ofNat 64 w, q.frames, q.fcs, q.unclass]

/-- The unlevelled words of `PATH.STATUS` (16 R548). -/
def portDieWords (y : DiePort) : List Word :=
  let lock := if y.lock then 2 ^ portLanes y - 1 else 0
  [BitVec.ofNat 64 (lock + 2 ^ 4 * y.trained.toNat), y.txFrames, y.txDiscard, y.fecCorr, y.fecUncorr, y.rxDrop,
    BitVec.ofNat 64 (y.pauseRx.toNat + 2 ^ 32 * y.pauseTx.toNat), y.llReplay, BitVec.ofNat 64 (y.vc0 % 2 ^ 16 + 2 ^ 16 * (y.vc1 % 2 ^ 16)),
    y.downEvents]

/-- The results of `PATH.STATUS` (16 R548). -/
def pathWords (s : State) (p : Nat) : List Word :=
  let pres := !(dieOf s (Fin.ofNat 4 (p / 256))).stopped
  portLevelled (uPort (foreState s) p) (p / 256) pres ++ (if pres then portDieWords (portOf s p) else List.replicate 10 0)

/-- PATH.STATUS (06 R176, 16 R548). -/
def execPathStatus (h : CmdHdr) (port : Word) (s : State) : Host.Outcome State Fault Refusal :=
  .next (sahyaRun s h 7 3 [port] chkPathStatus (readAct (fun s => pathWords s port.toNat)))

/-- PATH.ADDR (06 R177). -/
def execPathAddr (h : CmdHdr) (index ipv hi lo : Word) (s : State) : Host.Outcome State Fault Refusal :=
  .next (sahyaRun s h 7 4 [index, ipv, hi, lo] chkPathAddr
    (plainAct (fun s st => cfgFw s st (.pathAddr (index.setWidth 8) (decide (ipv = 1)) (BitVec.ofNat 128 (hi.toNat * 2 ^ 64 + lo.toNat))))))

/-- PATH.GROUP (06 R204). -/
def execPathGroup (h : CmdHdr) (group policy half : Word) (paths : List Word) (s : State) : Host.Outcome State Fault Refusal :=
  .next (sahyaRun s h 7 5 (group :: policy :: half :: paths) chkPathGroup
    (plainAct (fun s st => cfgFw s st
      (.pathGroup (group.setWidth 12) (decide (policy = 1)) (decide (half = 1)) (groupPaths (group :: policy :: half :: paths))))))

/-- PATH.LINK (06 R203). -/
def execPathLink (h : CmdHdr) (tvtPort ladder : Word) (s : State) : Host.Outcome State Fault Refusal :=
  .next (sahyaRun s h 7 6 [tvtPort, ladder] chkPathLink
    (plainAct (fun s st => cfgFw s st (.pathLink (tvtPort.setWidth 16) (ladder.setWidth 16) (BitVec.ofNat 4 (bitsOf ladder 16 4))))))

end Sys2Proof.Machine
end

