-- ==== Sys2Proof/Machine/SahyaPower.lean ====
section
/-! DEFINITION. The Sahya commands of groups POWER, CAL, IMAGE and EXPERT, and the power of a Traverse die (18 R514 to R528, 16 R476 to
R486). -/
namespace Sys2Proof.Machine

/-- A Traverse die is asked to power down (18 R519): its ports go down with their port-down stakes, its lanes go down. -/
def dieDown (s : State) (d : DieId) : State :=
  let s := (diePortsUp s d).foldl goDown s
  modDie s d (fun x => { x with lanesDown := true, side0 := [], side1 := [], held := [], waitOut := [] })

/-- A Traverse die whose stake line is empty is switched off (18 R519). -/
def dieOff (s : State) (d : DieId) : State := stopDiePorts (modDie s d (fun x => { x with stopped := true, inj := none, referee := none })) d

/-- A Traverse die that has powered up (18 R519): its lanes stay down until the injection test that firmware runs at once has passed. -/
def dieOn (s : State) (d : DieId) : State :=
  modDie s d (fun x => { x with stopped := false, lanesDown := true, inj := some { vector := 0, restore := true, failA := false, failB := false } })

/-- An enable or a disable at a Traverse die's sequencer (18 R520). -/
def dieRequest (s : State) (d : DieId) (on : Bool) : State :=
  let n := 48 + d.val
  let x := domOf s n
  if on then
    if x.st = domOff then setDom s n { x with st := domPoweringOn }
    else if x.st = domPoweringOff then setDom s n { x with st := domPendingOn }
    else if x.st = domPendingOff then setDom s n { x with st := domPoweringOn }
    else s
  else if x.st = domOn then dieDown (setDom s n { x with st := domPoweringOff }) d
  else if x.st = domPoweringOn then setDom s n { x with st := domPendingOff }
  else if x.st = domPendingOn then setDom s n { x with st := domPoweringOff }
  else s

/-- A sequence of a Traverse die ends (18 R519 to R521): a power-down once its stake line is empty. -/
def dieSeqEnd (s : State) (d : DieId) : State :=
  let n := 48 + d.val
  let x := domOf s n
  let y := { x with changes := BitVec.ofNat 32 (saturate 32 (x.changes.toNat + 1)) }
  if x.st = domPoweringOn then dieOn (setDom s n { y with st := domOn }) d
  else if x.st = domPendingOff then
    dieRequest (dieOn (setDom s n { y with st := domOn }) d) d false
  else if !(dieOf s d).line.isEmpty then s
  else if x.st = domPoweringOff then dieOff (setDom s n { y with st := domOff }) d
  else if x.st = domPendingOn then dieOff (setDom s n { y with st := domPoweringOn }) d
  else s

/-- The effect of `POWER.DOMAIN` (18 R518): a unit domain of a unit in service through a CTL POWER stake, with the reply at its STAMP; any
other domain at once. In a batch the batch's reply does not wait (log 52). -/
def doPowerDomain (h : CmdHdr) (domain on : Word) : CmdEffect := fun s st =>
  let d := domain.toNat
  let up := decide (on = 1)
  let (u, k) := domainOf d
  if 48 ≤ d then (dieRequest s (domainDie d) up, some [])
  else if inServiceUnit s u then
    let s' := issueFw s (some (st.getD (boundaryStamp s))) (.power (Fin.ofNat 24 k) up)
    if st.isSome then (s', some [])
    else ({ s' with sahya := { s'.sahya with powerTags := s'.sahya.powerTags ++ [(k, h)] } }, none)
  else (domRequest s u k up false (getUnit s u).ucc, some [])

/-- POWER.DOMAIN (18 R518). -/
def execPowerDomain (h : CmdHdr) (domain on : Word) (s : State) : Host.Outcome State Fault Refusal :=
  .next (sahyaRun s h 13 1 [domain, on] chkPowerDomain (doPowerDomain h domain on))

/-- PWR_DOM of a domain (18 R523). -/
def pwrDomWord (s : State) (d : Nat) : Word :=
  let x := domOf s d
  BitVec.ofNat 64 (x.st.toNat + 8 * bit x.staked + 2 ^ 16 * x.changes.toNat)

/-- `POWER.READ` needs the regulators' readings (16 R471): TIMEOUT without them. -/
def chkPowerRead (readings : List Word) (_ : State) (_ : Option Nat) (_ : List Word) : Nat := if readings.isEmpty then ccTimeout else ccOk

/-- POWER.READ (18 R523, 03 R73): the 52 sequencers, then the readings that come with the row (log 53). -/
def execPowerRead (h : CmdHdr) (readings : List Word) (s : State) : Host.Outcome State Fault Refusal :=
  .next (sahyaRun s h 13 2 [] (chkPowerRead readings) (readAct (fun s => (List.range 52).map (pwrDomWord s) ++ readings)))

/-- A throttle level set and staked where it changes (18 R527, R528). -/
def setThrottle (s : State) (st : Option Nat) (level : BitVec 3) : State :=
  if s.sahya.level = level then s
  else bodyFw { s with sahya := { s.sahya with level := level } } st (.throttle level)

/-- The effect of `POWER.THROTTLE` (18 R528). -/
def doPowerThrottle (mode level : Word) (s : State) (st : Option Nat) : State :=
  let s := { s with sahya := { s.sahya with fixedThr := decide (mode = 1), coolMs := 0 } }
  if mode = 1 then setThrottle s st (level.setWidth 3) else s

/-- POWER.THROTTLE (18 R528). -/
def execPowerThrottle (h : CmdHdr) (mode level : Word) (s : State) : Host.Outcome State Fault Refusal :=
  .next (sahyaRun s h 13 3 [mode, level] chkPowerThrottle (plainAct (doPowerThrottle mode level)))

/-- The effect of `POWER.RESET` on a unit (18 R514, R516). -/
def doPowerReset (h : CmdHdr) (kind unit : Word) (s : State) : State :=
  if kind = 2 then s else
  let u := unitNo unit.toNat
  let s := resetUnit s u (decide (kind = 1))
  { s with
    pow := { s.pow with unitReset := s.pow.unitReset.filter (fun e => decide (e.1 ≠ u)) ++ [(u, decide (kind = 1))] }
    sahya := { s.sahya with resetTags := s.sahya.resetTags ++ [(u, h)] } }

/-- POWER.RESET (18 R516): KIND 2 is a module warm reset by firmware. -/
def execPowerReset (h : CmdHdr) (kind unit : Word) (s : State) : Host.Outcome State Fault Refusal :=
  .next (sahyaRun s h 13 4 [kind, unit] chkPowerReset (plainAct (fun s _ => doPowerReset h kind unit s))
    (fun s => if kind = 2 then beginReset s false false 6 else s))

/-- CAL.READ (16 R486). -/
def execCalRead (h : CmdHdr) (off count : Word) (s : State) : Host.Outcome State Fault Refusal :=
  .next (sahyaRun s h 14 1 [off, count] chkCalRead
    (readAct (fun s => (List.range count.toNat).map (fun k => calWord s (off.toNat + 8 * k)))))

/-- CAL.WRITE (16 R486). -/
def execCalWrite (h : CmdHdr) (off : Word) (ws : List Word) (s : State) : Host.Outcome State Fault Refusal :=
  .next (sahyaRun s h 14 2 (off :: ws) chkCalWrite
    (plainAct (fun s _ => { s with boot := { s.boot with calStage := some (putWords (calStaged s) off.toNat ws) } })))

/-- CAL.COMMIT (16 R486). -/
def execCalCommit (h : CmdHdr) (magic : Word) (s : State) : Host.Outcome State Fault Refusal :=
  .next (sahyaRun s h 14 3 [magic] chkCalCommit (plainAct (fun s _ => { s with boot := { s.boot with cal := calStaged s } })))

/-- IMAGE.WRITE (16 R478). -/
def execImageWrite (h : CmdHdr) (slot off : Word) (ws : List Word) (s : State) : Host.Outcome State Fault Refusal :=
  .next (sahyaRun s h 15 1 (slot :: off :: ws) chkImageWrite (plainAct (fun s _ => writeSlot s slot.toNat off.toNat ws)))

/-- IMAGE.VERIFY (16 R476, R477): in recovery a staging firmware image that verifies runs, after the reply. -/
def execImageVerify (h : CmdHdr) (slot : Word) (s : State) : Host.Outcome State Fault Refusal :=
  .next (sahyaRun s h 15 2 [slot] chkImageVerify (plainAct (fun s _ => s))
    (fun s => if imgKind (slotByte s 2) = 0 then leaveRecovery s else s))

/-- The owner certificate in the staging buffer stored in flash (16 R458, R478; log 51). -/
def installOwner (s : State) : State :=
  let n := 32768 + imgLen (slotByte s 2)
  { s with boot := { s.boot with flash := tabSetList byteDef s.boot.flash 0x6000000 (imgBytes (slotByte s 2) 0 n) } }

/-- The effect of `IMAGE.ACTIVATE` (16 R477). -/
def doImageActivate (slot : Word) (s : State) : State :=
  if slot = 2 then installOwner s else { s with boot := { s.boot with selector := Fin.ofNat 2 slot.toNat } }

/-- IMAGE.ACTIVATE (16 R477). -/
def execImageActivate (h : CmdHdr) (slot : Word) (s : State) : Host.Outcome State Fault Refusal :=
  .next (sahyaRun s h 15 3 [slot] chkImageActivate (plainAct (fun s _ => doImageActivate slot s)))

/-- IMAGE.COMMIT (16 R478): fuses burned until the counter equals the running image's SVN. -/
def execImageCommit (h : CmdHdr) (s : State) : Host.Outcome State Fault Refusal :=
  .next (sahyaRun s h 15 4 [] chkNone
    (plainAct (fun s _ => { s with boot := { s.boot with counter := later s.boot.counter s.boot.runningSvn } })))

/-- IMAGE.REVOKE (16 R478). -/
def execImageRevoke (h : CmdHdr) (gen : Word) (s : State) : Host.Outcome State Fault Refusal :=
  .next (sahyaRun s h 15 5 [gen] chkImageRevoke
    (plainAct (fun s _ => { s with boot := { s.boot with revoked := s.boot.revoked ||| BitVec.ofNat 4 (2 ^ gen.toNat) } })))

/-- The results of `IMAGE.STATUS` (16 R477, R479; log 53): slot booted, recovery, the phase that failed, counter and revocation bits; then
SVN of slot A and of slot B, and their GEN and validity. -/
def imageWords (s : State) : List Word :=
  let booted := match s.boot.running with | some k => k.val | none => 3
  let a := slotByte s 0
  let b := slotByte s 1
  [BitVec.ofNat 64 (booted + 4 * bit s.boot.recovery + 2 ^ 8 * s.boot.failedPhase + 2 ^ 16 * s.boot.counter + 2 ^ 24 * s.boot.revoked.toNat),
    BitVec.ofNat 64 (imgSvn a), BitVec.ofNat 64 (imgSvn b),
    BitVec.ofNat 64 (imgGen a + 2 ^ 8 * imgGen b + 2 ^ 16 * bit (slotBoots s 0) + 2 ^ 17 * bit (slotBoots s 1))]

/-- IMAGE.STATUS (16 R477). -/
def execImageStatus (h : CmdHdr) (s : State) : Host.Outcome State Fault Refusal :=
  .next (sahyaRun s h 15 6 [] chkNone (readAct imageWords))

/-- EXP_CTL (16 R485). -/
def expCtlWord (s : State) : Word := BitVec.ofNat 64 (bit s.sahya.expEn + 2 * bit s.sahya.fwDown)

/-- The offsets of the seven raw table views in a unit window (16 R484, R548). -/
def rawViewOffs : List Word := [0x3000000, 0x3010000, 0x3020000, 0x3030000, 0x3040000, 0x3100000, 0x3900000]

/-- The effect of `EXPERT.ENABLE` (16 R484, R548). -/
def doExpertEnable : CmdEffect := fun s _ =>
  let s := { s with sahya := { s.sahya with expEn := true } }
  (s, some (expCtlWord s :: rawViewOffs))

/-- EXPERT.ENABLE (16 R484). -/
def execExpertEnable (h : CmdHdr) (s : State) : Host.Outcome State Fault Refusal := .next (sahyaRun s h 16 1 [] chkNone doExpertEnable)

/-- EXPERT.DISABLE (16 R484). -/
def execExpertDisable (h : CmdHdr) (s : State) : Host.Outcome State Fault Refusal :=
  .next (sahyaRun s h 16 2 [] chkNone (plainAct (fun s _ => { s with sahya := { s.sahya with expEn := false } })))

end Sys2Proof.Machine
end

