-- ==== Sys2Proof/Machine/PowerRows.lean ====
section
/-! DEFINITION. The rows of the lands, the resets, start-up, the power domains, the rails and the clocks (18 R509 to R534). -/
namespace Sys2Proof.Machine

/-- A unit without power: its fieldbook's contents, which are non-volatile, are all that is left (18 R529, 13 R402). -/
def unitUnpowered (x : UnitState) : UnitState :=
  let f := stackKept x
  { fb := { mem := f.mem, view := f.view, bad := f.bad, poison := f.poison, sparesUsed := f.sparesUsed } }

/-- The module without VAON (18 R515, R529): everything is lost but the fieldbook, flash, OTP and the calibration set. The state stands at the
values that the next application of VAON brings. -/
def vaonLost (s : State) : State :=
  { pending := s.pending, freeCtr := s.freeCtr, bin := s.bin, sent := s.sent
    u0 := unitUnpowered s.u0, u1 := unitUnpowered s.u1
    keys := { flash := s.keys.flash, marks := s.keys.marks, rootFlash := s.keys.rootFlash }
    boot := { flash := s.boot.flash, selector := s.boot.selector, counter := s.boot.counter, revoked := s.boot.revoked
              digests := s.boot.digests, cal := s.boot.cal, startImg := s.boot.startImg, retiredCopy := s.boot.retiredCopy }
    sahya := { flight := s.sahya.flight }
    pow := { vaon := false, modidLands := s.pow.modidLands, refclk := s.pow.refclk, jtagIr := s.pow.jtagIr } }

/-- VAON_APPLY (18 R509, R513): the bench domain starts, and the module is held in module cold reset with LAST_RESET 0. -/
def execVaonApply (s : State) : Host.Outcome State Fault Refusal :=
  if s.pow.vaon then .next s else .next { s with pow := { s.pow with vaon := true } }

/-- VAON_REMOVE (18 R529). -/
def execVaonRemove (s : State) : Host.Outcome State Fault Refusal :=
  if s.pow.vaon then .next (vaonLost s) else .next s

/-- PWR_GOOD_RISE (18 R533). -/
def execPwrGoodRise (s : State) : Host.Outcome State Fault Refusal := .next { s with pow := { s.pow with pwrGood := s.pow.vaon } }

/-- PWR_GOOD_FALL (18 R533): writes that the stacks have accepted complete; the black box freezes; module cold reset with LAST_RESET 2. -/
def execPwrGoodFall (s : State) : Host.Outcome State Fault Refusal :=
  if s.pow.pwrGood then .next (beginReset (bbFreezeWith { s with pow := { s.pow with pwrGood := false } } 3) true true 2) else .next s

/-- MOD_RESET_N (18 R513): low holds the module in module cold reset. -/
def execModResetN (level : Bool) (s : State) : Host.Outcome State Fault Refusal :=
  let s' := { s with pow := { s.pow with modResetN := level && s.pow.vaon } }
  if level then .next s' else .next (beginReset s' true true 2)

/-- PERST_N (18 R513): low holds the module in module warm reset. -/
def execPerstN (level : Bool) (s : State) : Host.Outcome State Fault Refusal :=
  let s' := { s with pow := { s.pow with perstN := level && s.pow.vaon } }
  if level then .next s' else .next (beginReset s' false true 1)

/-- RESET_EXIT (18 R509). -/
def execResetExit (s : State) : Host.Outcome State Fault Refusal := if exitReady s then .next (leaveReset s) else .next s

/-- A start-up phase runs: the module is out of reset, not in recovery, and its service pair runs (18 R510, 16 R477). -/
def phaseRuns (s : State) : Bool :=
  decide (1 ≤ s.pow.phase ∧ s.pow.phase ≤ 9) && !s.boot.recovery && !s.bench.checkstop && !s.sahya.lockStop && !s.sahya.fwDown

/-- STARTUP_PHASE_END (18 R510, R511). -/
def execStartupPhaseEnd (ok : Bool) (s : State) : Host.Outcome State Fault Refusal :=
  if !phaseRuns s then .next s else if ok then .next (phaseEnds s) else .next (phaseFails s)

/-- BRINGUP_PHASE_TIMEOUT (18 R511): phase 1 has no firmware limit, and under START_MODE HOST phase 9 waits for the host (R510). -/
def execBringupPhaseTimeout (s : State) : Host.Outcome State Fault Refusal :=
  if !phaseRuns s || s.pow.phase == 1 || (s.pow.phase == 9 && s.boot.startImg.hostMode) then .next s else .next (phaseFails s)

/-- UNIT_RESET_END (18 R514, R516): the event with code OK on the channel of the command. -/
def execUnitResetEnd (u : UnitId) (s : State) : Host.Outcome State Fault Refusal :=
  if s.pow.unitReset.all (fun e => decide (e.1 ≠ u)) then .next s
  else
    let tags := s.sahya.resetTags.filter (fun e => decide (e.1 = u))
    let s := { s with
      pow := { s.pow with unitReset := s.pow.unitReset.filter (fun e => decide (e.1 ≠ u)) }
      sahya := { s.sahya with resetTags := s.sahya.resetTags.filter (fun e => decide (e.1 ≠ u)) } }
    .next (tags.foldl (fun s e => postDone s e.2 0x0D ccOk []) s)

/-- A unit reaches the end of a domain's sequence (18 R521): at its UCC where the unit executes. -/
def seqReached (s : State) (u : UnitId) (due : Nat) : Option State :=
  if (getUnit s u).executing then timeTo s u due else some s

/-- A sequence of a unit domain at its fixed end (18 R521): one that is not stable raises PWR_LATE. -/
def unitSeqEnd (s : State) (u : UnitId) (k d : Nat) (stable : Bool) : State :=
  let x := domOf s d
  if x.st = domOff ∨ x.st = domOn then s
  else
    match seqReached s u x.due with
    | none => s
    | some s => domEnd (if stable then s else raiseUnit s u 0x212 (BitVec.ofNat 64 d)) u k x.due

/-- POWER_SEQUENCE_END (18 R520, R521). -/
def execPowerSequenceEnd (d : Fin 52) (stable : Bool) (s : State) : Host.Outcome State Fault Refusal :=
  if d.val < 48 then .next (unitSeqEnd s (if d.val < 24 then .u0 else .u1) (d.val % 24) d.val stable)
  else .next (dieSeqEnd s (Fin.ofNat 4 (d.val - 48)))

/-- The level that AUTO sets from one reading, and the ms of cool readings so far (18 R528). -/
def autoLevel (level : BitVec 3) (cool maxTemp power0 power1 : Nat) : BitVec 3 × Nat :=
  let isCool := decide (maxTemp < 85 ∧ power0 < 585 ∧ power1 < 585)
  let n := if isCool then cool + 1 else 0
  if 95 ≤ maxTemp then (7, n)
  else if 90 ≤ maxTemp ∨ 615 < power0 ∨ 615 < power1 then (if level = 7 then 7 else level + 1, n)
  else if 10 ≤ n then (if level = 0 then 0 else level - 1, 0)
  else (level, n)

/-- THROTTLE_CONTROL (18 R528): only while firmware runs and the mode is AUTO. -/
def execThrottleControl (maxTemp power0 power1 : Nat) (s : State) : Host.Outcome State Fault Refusal :=
  if !s.sahya.running || s.sahya.fwDown || s.sahya.fixedThr || s.bench.checkstop then .next s
  else
    let (l, n) := autoLevel s.sahya.level s.sahya.coolMs maxTemp power0 power1
    .next (setThrottle { s with sahya := { s.sahya with coolMs := n } } none l)

/-- A unit stops as a rail of its own is lost (18 R534). -/
def unitRailLost (x : UnitState) : UnitState := { x with powered := false, executing := false }

/-- RAIL_LOSS (18 R534): 0 and 1 are VCORE_U0 and VCORE_U1, 2 to 7 VDDQ_U0G0 to VDDQ_U1G2, 8 to 11 VIO_T0 to VIO_T3. -/
def execRailLoss (rail : Fin 12) (s : State) : Host.Outcome State Fault Refusal :=
  let r := rail.val
  if r < 8 then .next (modUnit s (if r = 0 ∨ (2 ≤ r ∧ r < 5) then .u0 else .u1) unitRailLost)
  else .next (dieStop s (Fin.ofNat 4 (r - 8)))

/-- REFCLK_LOSS (18 R526, R529): the ticks stop, and a start-up phase of 1 to 8 fails. -/
def execRefclkLoss (s : State) : Host.Outcome State Fault Refusal :=
  if !s.pow.refclk then .next s
  else
    let s := { s with
      pow := { s.pow with refclk := false }
      gen := { s.gen with stopped := s.gen.stopped || s.gen.run || s.gen.starting.isSome } }
    if 1 ≤ s.pow.phase ∧ s.pow.phase ≤ 8 then .next (phaseFails s) else .next s

/-- REFCLK_RETURN (17 R501): the bench domain runs from REFCLK again; a checkstop stays. -/
def execRefclkReturn (s : State) : Host.Outcome State Fault Refusal := .next { s with pow := { s.pow with refclk := true } }

/-- JTAG_INSTRUCTION (18 R541): EXTEST, CLAMP and HIGHZ act as BYPASS, all ones, unless MOD_RESET_N is low. -/
def execJtagInstruction (ir : BitVec 8) (s : State) : Host.Outcome State Fault Refusal :=
  .next { s with pow := { s.pow with jtagIr := if Config.jtagDrives ir && s.pow.modResetN then 0xFF else ir } }

end Sys2Proof.Machine
end

