-- ==== Sys2Proof/Machine/Retry.lean ====
section
/-! DEFINITION. Instruction retry, its echoes, mirror sparing's end, the end of a patch stall, the debug port (03 R80 to R92, 10 R311 to
R318, R325). -/
namespace Sys2Proof.Machine

/-- The echo records that wait for the Backsight (03 R82). -/
def echoCount (x : UnitState) : Nat := (x.feed.filter (fun k => match k.body with | .echo .. => true | _ => false)).length

/-- ECHO_ISSUE (03 R80, R82): the hub answers a report of the Foresight with an ECHO record. One that cannot be placed by
STAMP - 256, or that the queue of 64 has no room for, drops the Backsight. -/
def execEchoIssue (l : CoreId) (ucc : Nat) (kind : BitVec 8) (index : BitVec 24) (inTime : Bool) (s : State) :
    Host.Outcome State Fault Refusal :=
  match backUnit s with
  | none => .next s
  | some b =>
    if !s.hub.reports.contains (l.val, ucc, kind, index) then .next s else
    let s := { s with hub := { s.hub with reports := s.hub.reports.erase (l.val, ucc, kind, index) } }
    let x := getUnit s b
    if !inTime || decide (ucc < x.ucc + 256) || decide (64 ≤ echoCount x) then .next (dropUnit s b 0x07)
    else .next (stakeSvcNow s ucc true (.echo l kind index))

/-- An ECHO record is due in a unit for a core at a UCC (03 R83). -/
def echoDue (x : UnitState) (l : CoreId) (ucc : Nat) : Bool :=
  x.feed.any (fun k => k.stamp == ucc && (match k.body with | .echo m _ _ => decide (m = l) | _ => false))

/-- A retry of the active unit (10 R311 to R315): the same kind at the same instruction fails with MC_RETRY; otherwise the core is
restored and resumes, the retry is counted, and the Foresight reports it (03 R80). -/
def foreRetry (s : State) (u : UnitId) (l : CoreId) (ucc : Nat) (kind : BitVec 8) (index : BitVec 24) : State :=
  let c := unitCore (getUnit s u) l
  if c.retrying = some (kind, c.pc) then takeCause s u l 0x24 0 c.pc c.pc (kind.setWidth 64) else
  let s := modUnit s u (fun x => doRetry x l.val ucc kind index)
  let s := if (backUnit s).isSome then
      { s with hub := { s.hub with reports := s.hub.reports ++ [(l.val, ucc, kind, index)] } } else s
  raiseUnitFree s u l.val

/-- A retry that the Backsight's own core calls for (03 R82, R83): absorbed by an echo that is due, else the unit is dropped. Both are
counted in the Backsight (10 R315). -/
def backRetry (s : State) (u : UnitId) (l : CoreId) (ucc : Nat) : State :=
  let due := echoDue (getUnit s u) l ucc
  let s := raiseUnitFree s u l.val
  if due then s else dropUnit s u 0x07

/-- INSTRUCTION_RETRY (10 R312 to R315): a core detects a retryable error before retirement at a UCC of its chain. -/
def execInstructionRetry (u : UnitId) (l : CoreId) (ucc : Nat) (kind : BitVec 8) (index : BitVec 24) (s : State) :
    Host.Outcome State Fault Refusal :=
  let c := unitCore (getUnit s u) l
  if kind = 0 ∨ 6 < kind.toNat ∨ !unitOpen s u ucc ∨ !coreRuns c ∨ ucc < c.resumeAt ∨ ucc < (getUnit s u).ucc then .next s
  else if backUnit s = some u then .next (backRetry s u l ucc)
  else match timeTo s u ucc with
    | none => .next s
    | some s => .next (foreRetry s u l ucc kind index)

/-- The end of a sparing sequence in a unit (10 R316): the map names the new position, the old one is void or failed, the core runs
again with empty caches and translations. -/
def spareEnd (x : UnitState) (r : Sparing) : UnitState :=
  let old := corePos x r.core
  let x := modUnitCore x r.core (fun c => flushTlb { c with sparing := false })
  let bitp := BitVec.ofNat 56 (2 ^ old)
  { x with exe := { x.exe with
    map := tabSet (fun n => n) x.exe.map r.core r.target
    spares := x.exe.spares &&& ~~~(BitVec.ofNat 56 (2 ^ r.target))
    voids := if x.exe.failed.getLsbD old then x.exe.voids else x.exe.voids ||| bitp
    spareRun := none } }

/-- SPARE_COMPLETE (10 R316, R318): 208,000 cycles after the STAMP. -/
def execSpareComplete (u : UnitId) (s : State) : Host.Outcome State Fault Refusal :=
  match (getUnit s u).exe.spareRun with
  | none => .next s
  | some r =>
    match timeTo s u (r.start + 208000) with
    | none => .next s
    | some s => .next (debugPending (pumpFailing (modUnit s u (fun x => spareEnd x r))))

/-- MPATCH_RESUME (10 R325): every position resumes 4,096 cycles after the STAMP. -/
def execMpatchResume (u : UnitId) (s : State) : Host.Outcome State Fault Refusal :=
  match (getUnit s u).exe.ucode.stallEnd with
  | none => .next s
  | some e =>
    match timeTo s u e with
    | none => .next s
    | some s => .next (modUnit s u (fun x => { x with exe := { x.exe with ucode := { x.exe.ucode with stallEnd := none } } }))

/-- JTAG_DEBUG_REQUEST (03 R90, R91): the debug port asks for a halt of named cores. -/
def execJtagDebugRequest (cores : BitVec 48) (s : State) : Host.Outcome State Fault Refusal :=
  .next (debugRequest s false cores)

end Sys2Proof.Machine
end

