-- ==== Sys2Proof/Machine/SahyaKey.lean ====
section
/-! DEFINITION. The Sahya commands of groups KEY and CIPHER (16 R482, 14 R412, R425, R429). -/
namespace Sys2Proof.Machine

/-- The effect of `KEY.INIT` (16 R482): a new root from the TRNG in both arrays and, wrapped, in flash. -/
def doKeyInit (trng : List Word) (s : State) : State :=
  let r := some (drawnKey 3 trng)
  { s with keys := { s.keys with root0 := r, root1 := r, rootFlash := r } }

/-- KEY.INIT (16 R482). -/
def execKeyInit (h : CmdHdr) (trng : List Word) (s : State) : Host.Outcome State Fault Refusal :=
  .next (sahyaRun s h 8 1 [] chkKeyInit (plainAct (fun s _ => doKeyInit trng s)))

/-- KEY.GENERATE (16 R482): its words are 1 and 3. -/
def execKeyGenerate (h : CmdHdr) (slot attrs : Word) (trng : List Word) (s : State) : Host.Outcome State Fault Refusal :=
  .next (sahyaRun s h 8 2 [slot, 0, attrs] chkKeyGenerate
    (plainAct (fun s _ => fillSlot s slot.toNat attrs (drawnKey (attrAlg attrs) trng))))

/-- The key that `KEY.IMPORT` unwraps (16 R482). -/
def importedKey (s : State) (args : List Word) : BitVec 256 :=
  match keyUnwrap (slotOf s (num args 2)).key (importBlob args) with
  | some bs => keyOf (keyBytes (attrAlg (arg args 3)) (keyOf bs))
  | none => 0

/-- KEY.IMPORT (16 R482). -/
def execKeyImport (h : CmdHdr) (slot kek attrs : Word) (blob : List Word) (s : State) : Host.Outcome State Fault Refusal :=
  let args := slot :: kek :: attrs :: blob
  .next (sahyaRun s h 8 3 args chkKeyImport (plainAct (fun s _ => fillSlot s slot.toNat attrs (importedKey s args))))

/-- The wrapped key of `KEY.EXPORT` in words (16 R482; log 50). -/
def exportWords (s : State) (slot kek : Nat) : List Word :=
  let k := slotOf s slot
  let n := wrapLen (attrAlg k.attrs)
  let bs := keyBytes (attrAlg k.attrs) k.key
  bytesWords (n / 8 + 1) (keyWrap (slotOf s kek).key (bs ++ List.replicate (n - bs.length) 0))

/-- KEY.EXPORT (16 R482). -/
def execKeyExport (h : CmdHdr) (slot kek : Word) (s : State) : Host.Outcome State Fault Refusal :=
  .next (sahyaRun s h 8 4 [slot, kek] chkKeyExport (readAct (fun s => exportWords s slot.toNat kek.toNat)))

/-- The results of `KEY.ATTR` (16 R482): word 3, CTR, RETIRED, the KCV with its first byte highest. -/
def attrWords (s : State) (slot : Nat) : List Word :=
  let k := slotOf s slot
  [k.attrs, BitVec.ofNat 64 k.ctr, BitVec.ofNat 64 (bit k.retired), BitVec.ofNat 64 (beNat (kcvOf (attrAlg k.attrs) k.key))]

/-- KEY.ATTR (16 R482). -/
def execKeyAttr (h : CmdHdr) (slot : Word) (s : State) : Host.Outcome State Fault Refusal :=
  .next (sahyaRun s h 8 5 [slot] chkKeySlot (readAct (fun s => attrWords s slot.toNat)))

/-- KEY.DELETE (16 R482): held keys stay usable. -/
def execKeyDelete (h : CmdHdr) (slot : Word) (s : State) : Host.Outcome State Fault Refusal :=
  .next (sahyaRun s h 8 6 [slot] chkKeySlot (plainAct (fun s _ => clearSlot s slot.toNat)))

/-- KEY.ZEROISE (16 R482, 14 R411): the reply, then zeroisation and the module checkstop. -/
def execKeyZeroise (h : CmdHdr) (magic : Word) (s : State) : Host.Outcome State Fault Refusal :=
  .next (sahyaRun s h 8 7 [magic] chkMagic (plainAct (fun s _ => s)) (fun s => zeroise s true))

/-- The owner that a grant names: a parcel and its context. -/
def ownerOf (parcel ctx : Word) : Option (BitVec 6 × BitVec 16) := (grantee [parcel] 1).map (fun p => (p, ctx.setWidth 16))

/-- CIPHER.PAGE (14 R412). -/
def execCipherPage (h : CmdHdr) (page parcel ctx : Word) (s : State) : Host.Outcome State Fault Refusal :=
  .next (sahyaRun s h 9 1 [page, parcel, ctx] chkCipherPage
    (plainAct (fun s st => cfgFw s st (.cipherPage (Fin.ofNat 1024 page.toNat) (ownerOf parcel ctx)))))

/-- CIPHER.CHANNEL (14 R429). -/
def execCipherChannel (h : CmdHdr) (engine chan parcel ctx : Word) (s : State) : Host.Outcome State Fault Refusal :=
  .next (sahyaRun s h 9 2 [engine, chan, parcel, ctx] chkCipherChannel
    (plainAct (fun s st => cfgFw s st (.cipherChannel (Fin.ofNat 2 engine.toNat) (Fin.ofNat 16 chan.toNat) (ownerOf parcel ctx)))))

/-- CIPHER.LOCK (14 R425). -/
def execCipherLock (h : CmdHdr) (en page : Word) (s : State) : Host.Outcome State Fault Refusal :=
  .next (sahyaRun s h 9 3 [en, page] chkCipherLock
    (plainAct (fun s st => cfgFw s st (.cipherLock (decide (en = 1)) (Fin.ofNat 1024 page.toNat)))))

/-- The result of `CIPHER.TEST` (14 R425): presence of both units in bits 0 and 1, pass in bits 2 and 3 (log 53). -/
def testWord (s : State) (pass0 pass1 : Bool) : Word :=
  BitVec.ofNat 64 (presBits s + atBit (pass0 && unitPres s .u0) 2 + atBit (pass1 && unitPres s .u1) 3)

/-- CIPHER.TEST (14 R425): what each unit's known-answer tests give comes with the row. -/
def execCipherTest (h : CmdHdr) (pass0 pass1 : Bool) (s : State) : Host.Outcome State Fault Refusal :=
  .next (sahyaRun s h 9 4 [] chkCipherTest (readAct (fun s => [testWord s pass0 pass1])))

end Sys2Proof.Machine
end

