-- ==== Sys2Proof/Machine/SahyaLevel.lean ====
section
/-! DEFINITION. The Sahya commands of groups LEVEL, CLOSURE and CHAIN (16 R472, R473, R548). -/
namespace Sys2Proof.Machine

/-- The effect of `LEVEL.CONFIG` (03 R54): a LAG given while the module runs is held. -/
def doLevelConfig (lag diverge : Word) (s : State) (st : Option Nat) : State :=
  let s := if isOff s then modBoth s (fun x => { x with lvl := { x.lvl with cfg := withBits x.lvl.cfg 0 7 lag.toNat } })
    else cfgFw s st (.lagPend (lag.setWidth 7))
  cfgFw s st (.diverge (diverge.setWidth 2))

/-- LEVEL.CONFIG (03 R54). -/
def execLevelConfig (h : CmdHdr) (lag diverge : Word) (s : State) : Host.Outcome State Fault Refusal :=
  .next (sahyaRun s h 1 1 [lag, diverge] chkLevelConfig (plainAct (doLevelConfig lag diverge)))

/-- LEVEL.START (03 R55): the module levels at the next boundary. -/
def execLevelStart (h : CmdHdr) (mode : Word) (s : State) : Host.Outcome State Fault Refusal :=
  .next (sahyaRun s h 1 2 [mode] chkLevelStart
    (plainAct (fun s _ => { s with sahya := { s.sahya with startMode := some (mode.setWidth 2) } })))

/-- LEVEL.RELEVEL (04 R120, 16 R473). -/
def execLevelRelevel (h : CmdHdr) (w1 rate maxres maxpass : Word) (s : State) : Host.Outcome State Fault Refusal :=
  .next (sahyaRun s h 1 3 [w1, rate, maxres, maxpass] chkLevelRelevel
    (plainAct (fun s _ => relevelStart s (relevelOf s (unitNo (bitsOf w1 0 1)) (bitsOf w1 1 2) rate.toNat maxres.toNat maxpass.toNat
      (bitOf w1 3) false (some (h.chan, h.side)) h.v2 h.tag))))

/-- LEVEL.CANCEL (04 R120): the reply, then the event ABORTED. -/
def execLevelCancel (h : CmdHdr) (s : State) : Host.Outcome State Fault Refusal :=
  .next (sahyaRun s h 1 4 [] chkLevelCancel
    (fun s _ => (relevelAbort (postReply s h 1 4 ccOk 0 []) 0x22, none)))

/-- A record as 128 result words; an absent one is zeros (16 R548). -/
def recWords (pres : Bool) (r : BenchRec) : List Word :=
  if pres then ((r ++ List.replicate (64 - r.length) 0).take 64).flatMap quadWords else List.replicate 128 0

/-- `LEVEL.BENCH`, DETAIL 0 (16 R548). -/
def benchPairs (s : State) (first count : Nat) : List Word :=
  let p0 := unitPres s .u0
  let p1 := unitPres s .u1
  BitVec.ofNat 64 s.hub.pairs.length :: ((s.hub.pairs.drop first).take count).flatMap (fun e =>
    BitVec.ofNat 64 (presBits s + atBit (recsEqual e.2.1 e.2.2) 2) :: (recWords p0 e.2.1 ++ recWords p1 e.2.2))

/-- The 100 signatures of one kept chain (16 R548). -/
def sigWords (g : Sigs) : List Word :=
  let put := fun (t : Tab Quad) (n : Nat) => (List.range n).flatMap (fun i => quadWords (tabGet (fun _ => (0 : Quad)) t i))
  put g.core 48 ++ put g.home 24 ++ put g.mc 12 ++ put g.trav 16

/-- `LEVEL.BENCH`, DETAIL 1 (16 R548): the older chain of the two that each unit keeps. -/
def benchSigs (s : State) : List Word :=
  let one := fun (u : UnitId) =>
    if unitPres s u then sigWords (getUnit s u).exe.sigPrev ++ sigWords (getUnit s u).exe.sigLast else List.replicate 400 0
  [BitVec.ofNat 64 (presBits s), BitVec.ofNat 64 ((foreState s).cn - 2)] ++ one .u0 ++ one .u1

/-- `LEVEL.BENCH`, DETAIL 2 (16 R548). `trng` holds TRNG_OK in bit 0 and TRNG_FAILS in bits 8 to 15, which the spec leaves to the
generator (log 8). -/
def benchHub (s : State) (trng : Word) : List Word :=
  let t := bit (bitOf trng 0) * 4 + 2 ^ 8 * bitsOf trng 8 8
  let occ := fun (d : DieId) => BitVec.ofNat 64 (lineOcc (dieOf s d).line)
  [BitVec.ofNat 64 (presBits s + t), BitVec.ofNat 64 (lineOcc s.sahya.line), occ 0, occ 1, occ 2, occ 3,
    BitVec.ofNat 64 (echoCount s.u0 + 2 ^ 8 * echoCount s.u1)]

/-- The effect of `LEVEL.BENCH`. -/
def doLevelBench (first count detail : Word) : CmdEffect := fun s _ =>
  if detail = 0 then (s, some (benchPairs s first.toNat count.toNat))
  else if detail = 1 then (s, some (benchSigs s))
  else
    let (w, s) := nextFree s
    (s, some (benchHub s w))

/-- LEVEL.BENCH (03 R79, 16 R548). -/
def execLevelBench (h : CmdHdr) (first count detail : Word) (s : State) : Host.Outcome State Fault Refusal :=
  .next (sahyaRun s h 1 5 [first, count, detail] chkLevelBench (doLevelBench first count detail))

/-- The results of `LEVEL.MAP` (16 R548). -/
def mapWords (s : State) : List Word :=
  let x := foreState s
  let pos := (List.range 48).map (fun l =>
    let c := unitCore x l
    if c.offline then (0xFF : Byte) else BitVec.ofNat 8 (corePos x l))
  let failed := fun (u : UnitId) => if unitPres s u then (getUnit s u).exe.failed.setWidth 64 else (0 : Word)
  (List.range 6).map (fun k => BitVec.ofNat 64 (leNat ((pos.drop (8 * k)).take 8)))
    ++ [x.exe.spares.setWidth 64, x.exe.voids.setWidth 64, BitVec.ofNat 64 (presBits s), failed .u0, failed .u1]

/-- LEVEL.MAP (03 R85, 16 R548). -/
def execLevelMap (h : CmdHdr) (s : State) : Host.Outcome State Fault Refusal :=
  .next (sahyaRun s h 1 6 [] chkNone (readAct mapWords))

/-- LEVEL.DEBUG (03 R90 to R92). -/
def execLevelDebug (h : CmdHdr) (op cores : Word) (s : State) : Host.Outcome State Fault Refusal :=
  .next (sahyaRun s h 1 7 [op, cores] chkLevelDebug (plainAct (fun s _ => debugRequest s (decide (op = 1)) (cores.setWidth 48))))

/-- CLOSURE.CONFIG (04 R102, R105, R109, R117). -/
def execClosureConfig (h : CmdHdr) (policy auto wd inj : Word) (s : State) : Host.Outcome State Fault Refusal :=
  .next (sahyaRun s h 2 1 [policy, auto, wd, inj] chkClosureConfig
    (plainAct (fun s st => cfgFw s st (.cloCfg (decide (policy = 1)) (auto.setWidth 2) (wd.setWidth 8) (inj.setWidth 16)))))

/-- The injection runs that a `CLOSURE.INJECT` starts at the dies it names (04 R105); a die that has stopped runs none. -/
def startInject (s : State) (dies : BitVec 4) (restore : Bool) : State :=
  (List.finRange 4).foldl (fun s d =>
    if dies.getLsbD d.val && !(dieOf s d).stopped then
      modDie s d (fun x => { x with inj := some { vector := 0, restore := restore, failA := false, failB := false } })
    else s) s

/-- The dies of a mask that have not stopped. -/
def liveDies (s : State) (dies : BitVec 4) : BitVec 4 :=
  (List.finRange 4).foldl (fun m d => if (dieOf s d).stopped then m &&& ~~~(BitVec.ofNat 4 (2 ^ d.val)) else m) dies

/-- The effect of `CLOSURE.INJECT` (04 R105): it completes as the last named die has run the set; in a batch the batch's reply does not
wait for it (log 52). -/
def doClosureInject (h : CmdHdr) (dies restore : Word) : CmdEffect := fun s st =>
  let m := liveDies s (dies.setWidth 4)
  if m = 0 then (s, some [])
  else if st.isSome then (startInject s m (decide (restore = 1)), some [])
  else (startInject { s with sahya := { s.sahya with injTag := some (h, m) } } m (decide (restore = 1)), none)

/-- CLOSURE.INJECT (04 R102 to R105). A second one waits until the first has completed. -/
def execClosureInject (h : CmdHdr) (dies restore : Word) (s : State) : Host.Outcome State Fault Refusal :=
  if s.sahya.injTag.isSome then .next s
  else .next (sahyaRun s h 2 2 [dies, restore] chkClosureInject (doClosureInject h dies restore))

/-- A chain count, all ones when there is none (16 R548). -/
def cnOrOnes : Option Nat → Word
  | some n => BitVec.ofNat 64 n
  | none => BitVec.allOnes 64

/-- The results of `CLOSURE.STATUS` (16 R548). -/
def closureWords (s : State) : List Word :=
  let ds := List.finRange 4
  let mask := fun (p : DieState → Bool) => (ds.map (fun d => atBit (p (dieOf s d)) d.val)).sum
  let queued := (ds.map (fun d => ((dieOf s d).held.filter (fun k => decide (k.va ≠ k.vb))).length)).sum
  let running := mask (fun x => x.inj.isSome)
  let done := match ds.findSome? (fun d => (dieOf s d).inj) with | some r => r.vector | none => 0
  let res := match s.hub.relevel with
    | some r => if 2 ≤ r.phase ∧ r.phase ≤ 5 then copyRes s r else (0, 0)
    | none => (0, 0)
  [BitVec.ofNat 64 (mask (fun x => x.referee.isSome) + 2 ^ 8 * queued + 2 ^ 16 * running + 2 ^ 24 * done)]
    ++ ds.map (fun d => cnOrOnes (dieOf s d).released)
    ++ [cnOrOnes s.hub.released, BitVec.ofNat 64 res.1, BitVec.ofNat 64 res.2]

/-- CLOSURE.STATUS (04 R128, 16 R548). -/
def execClosureStatus (h : CmdHdr) (s : State) : Host.Outcome State Fault Refusal :=
  .next (sahyaRun s h 2 3 [] chkNone (readAct closureWords))

/-- The effect of `CHAIN.START` (02 R44, R45): a start, or the re-lock of a running follower. -/
def doChainStart (cn : Word) (s : State) : State :=
  if s.gen.run then { s with gen := { s.gen with relock := 1 } } else { s with gen := { s.gen with starting := some cn.toNat } }

/-- CHAIN.START (02 R44, R45, 16 R473). -/
def execChainStart (h : CmdHdr) (cn : Word) (s : State) : Host.Outcome State Fault Refusal :=
  .next (sahyaRun s h 3 1 [cn] chkChainStart (plainAct (fun s _ => doChainStart cn s)))

end Sys2Proof.Machine
end

