-- ==== Sys2Proof/Machine/SahyaStation.lean ====
section
/-! DEFINITION. The Sahya commands of group STATION (05 R130, R160 to R164, R553, 16 R472, R548). -/
namespace Sys2Proof.Machine

/-- STATION.GRANT (05 R130). -/
def execStationGrant (h : CmdHdr) (first count parcel quota : Word) (s : State) : Host.Outcome State Fault Refusal :=
  .next (sahyaRun s h 6 1 [first, count, parcel, quota] chkStationGrant
    (plainAct (fun s st => cfgFw s st (.stationGrant first.toNat count.toNat (grantee [parcel] 1) quota.toNat))))

/-- The connection state as a number (16 R548). -/
def connCode : ConnSt → Nat
  | .closed => 0
  | .listen => 1
  | .initSent => 2
  | .initRcvd => 3
  | .established => 4
  | .closing => 5
  | .lost => 6

/-- PEER of `STATION.QUERY` (16 R548): the address as RADDR, the high half first for IPv6; a native peer's module and station; a raw
station's counts. -/
def peerWords (t : Station) : List Word :=
  if stnTransport t = 1 then [BitVec.ofNat 64 (t.conn.peerModule.toNat + 2 ^ 16 * bitsOf (dW t 11) 16 20), 0]
  else if stnTransport t = 2 then [t.rawFrames, t.rawFcs]
  else if bitOf (peerW t 0) 0 then [(t.conn.peerAddr >>> 64).setWidth 64, t.conn.peerAddr.setWidth 64]
  else [t.conn.peerAddr.setWidth 64, 0]

/-- Two counts of 32 bits in a word. -/
def pairWord (lo hi : BitVec 32) : Word := BitVec.ofNat 64 (lo.toNat + 2 ^ 32 * hi.toNat)

/-- The results of `STATION.QUERY` (16 R548). -/
def queryWords (x : UnitState) (n : Nat) : List Word :=
  let t := stnOf x n
  let g := tabGet (fun _ => (none : Grant)) x.trv.grants n
  let p := match g with | some q => q.toNat | none => 0
  let conn := if stnTransport t = 2 then 0 else connCode t.conn.st
  let w1 := stnCode t.st + atBit t.busy 3 + atBit g.isSome 4 + 2 ^ 5 * p + 2 ^ 16 * t.code.toNat + 2 ^ 24 * t.path.getD 0
    + atBit t.path.isSome 27 + 2 ^ 32 * conn
  let free := if g.isSome then quotaFree x p else 0
  [BitVec.ofNat 64 w1, BitVec.ofNat 64 (inNextOf x n t), BitVec.ofNat 64 (outNextOf x n t), BitVec.ofNat 64 (outAckedOf x n t),
    BitVec.ofNat 64 (stationSlots x n + 2 ^ 32 * free), pairWord t.discProg t.discRes, pairWord t.dups t.retx,
    pairWord t.errLost t.discOther]
    ++ peerWords t ++ [if stnTransport t = 0 then t.conn.peerPort.setWidth 64 else 0]

/-- STATION.QUERY (16 R548). -/
def execStationQuery (h : CmdHdr) (station : Word) (s : State) : Host.Outcome State Fault Refusal :=
  .next (sahyaRun s h 6 2 [station] chkStationQuery (readAct (fun s => queryWords (foreState s) station.toNat)))

/-- STATION.BOOK (05 R148, R553). -/
def execStationBook (h : CmdHdr) (op book w0 w1 : Word) (s : State) : Host.Outcome State Fault Refusal :=
  .next (sahyaRun s h 6 3 [op, book, w0, w1] chkStationBook
    (plainAct (fun s st => cfgFw s st (.book (book.setWidth 8) (op.setWidth 2) w0 w1))))

/-- STATION.MIRROR (05 R160): RESEND sends the book again. -/
def execStationMirror (h : CmdHdr) (book resend : Word) (s : State) : Host.Outcome State Fault Refusal :=
  .next (sahyaRun s h 6 4 [book, resend] chkStationMirror
    (plainAct (fun s st => if resend = 1 then cfgFw s st (.bookResend (book.setWidth 8)) else s)))

/-- The effect of `STATION.TAKEOVER` (16 R472): with CONT the pairs are kept for the commands that follow with the same books; without,
the adoption begins. -/
def doStationTakeover (mbook jbook cont : Word) (pairs : List Word) (s : State) (st : Option Nat) : State :=
  let m : BitVec 8 := mbook.setWidth 8
  let j : BitVec 8 := jbook.setWidth 8
  let before := match s.sahya.takeover with
    | some t => if t.mbook = m ∧ t.jbook = j then t.pairs else []
    | none => []
  let all := before ++ pairs.map pairOf
  if cont = 1 then { s with sahya := { s.sahya with takeover := some { mbook := m, jbook := j, pairs := all } } }
  else cfgFw { s with sahya := { s.sahya with takeover := none } } st (.takeover m j all)

/-- STATION.TAKEOVER (05 R162). -/
def execStationTakeover (h : CmdHdr) (mbook jbook cont : Word) (pairs : List Word) (s : State) : Host.Outcome State Fault Refusal :=
  .next (sahyaRun s h 6 5 (mbook :: jbook :: cont :: pairs) chkStationTakeover (plainAct (doStationTakeover mbook jbook cont pairs)))

/-- STATION.RECONCILE (05 R164, 16 R548). -/
def execStationReconcile (h : CmdHdr) (stack : Word) (s : State) : Host.Outcome State Fault Refusal :=
  .next (sahyaRun s h 6 6 [stack] chkStationReconcile
    (fun s _ => let s := reconcileBy s stack.toNat; (s, some (if s.sahya.recon.isEmpty then [0] else s.sahya.recon))))

end Sys2Proof.Machine
end

