-- ==== Sys2Proof/Machine/StakeRows.lean ====
section
/-! DEFINITION. The stake commands: one for each record type and CTL kind (03 R60 to R71), the Backsight's deadline, entropy and
time of day. -/
namespace Sys2Proof.Machine

/-- A record that firmware issues may be issued: it runs (16 R457). -/
def fwStake (s : State) (u : UnitId) (h : StakeHdr) (b : StakeBody) : State :=
  if (getUnit s u).feed.any (fun m => decide (m.source = 0) && m.seq == h.seq) || sahyaUp s then stakeRow s u 0 h b .discard else s

/-- INPUT_STAKE (03 R65, 06 R176, R177). -/
def execInputStake (u : UnitId) (d : DieId) (h : StakeHdr) (p : PortId) (b : InputBody) (v : ProgVerdict) (s : State) :
    Host.Outcome State Fault Refusal := .next (stakeRow s u (dieSource d) h (.input p b) v)

/-- The service die may issue an ENTROPY stake: one in a chain that opened with 48 or fewer words in the pool (03 R70). -/
def entropyOpen (s : State) (u : UnitId) (h : StakeHdr) : Bool :=
  s.sahya.entDue && h.seq == s.sahya.seq && issuerUp s 0 && (getUnit s u).executing && !(getUnit s u).dropped && !isOff s

/-- ENTROPY_STAKE (03 R70). -/
def execEntropyStake (u : UnitId) (h : StakeHdr) (w0 w1 w2 w3 : Word) (s : State) : Host.Outcome State Fault Refusal :=
  let b : StakeBody := .entropy [w0, w1, w2, w3]
  if (getUnit s u).feed.any (fun m => decide (m.source = 0) && m.seq == h.seq) then .next (stakeRow s u 0 h b .discard)
  else if entropyOpen s u h then
    .next (stakeRow { s with sahya := { s.sahya with entDue := false, pool := s.sahya.pool + 4 } } u 0 h b .discard)
  else .next s

/-- HOST_STAKE (16 R463). -/
def execHostStake (u : UnitId) (h : StakeHdr) (chan : Fin 64) (side : Side) (notice : Bool) (ws : List Word) (s : State) :
    Host.Outcome State Fault Refusal := .next (fwStake s u h (.host chan side notice ws))

/-- TIMER_STAKE (03 R71). -/
def execTimerStake (u : UnitId) (h : StakeHdr) (alarm : Bool) (tod : Word) (s : State) : Host.Outcome State Fault Refusal :=
  .next (fwStake s u h (.timer alarm tod))

/-- ECHO_STAKE (03 R81): a record for the Backsight only. -/
def execEchoStake (u : UnitId) (h : StakeHdr) (l : CoreId) (kind : BitVec 8) (index : BitVec 24) (s : State) :
    Host.Outcome State Fault Refusal :=
  if backUnit s = some u then .next (stakeRow s u 0 h (.echo l kind index) .discard) else .next s

/-- PRESSURE_STAKE (02 R36, R37). -/
def execPressureStake (u : UnitId) (d : DieId) (h : StakeHdr) (on space : Bool) (s : State) : Host.Outcome State Fault Refusal :=
  .next (stakeRow s u (dieSource d) h (.pressure on space) .discard)

/-- CTL_RWS_WRITE (02 R38, 03 R66). -/
def execCtlRwsWrite (u : UnitId) (h : StakeHdr) (r : RwsReg) (w : Word) (s : State) : Host.Outcome State Fault Refusal :=
  .next (fwStake s u h (.rws r w))

/-- CTL_CFG (03 R66, 04 R128). -/
def execCtlCfg (u : UnitId) (h : StakeHdr) (e : CfgEffect) (s : State) : Host.Outcome State Fault Refusal :=
  .next (stakeRow s u 0 h (.cfg e) .discard)

/-- CTL_SPARE (10 R316). -/
def execCtlSpare (u : UnitId) (h : StakeHdr) (l : CoreId) (p : Fin 56) (s : State) : Host.Outcome State Fault Refusal :=
  .next (fwStake s u h (.spare l p))

/-- CTL_DECONFIG (03 R88). -/
def execCtlDeconfig (u : UnitId) (h : StakeHdr) (l : CoreId) (s : State) : Host.Outcome State Fault Refusal :=
  .next (fwStake s u h (.deconfig l))

/-- CTL_DROP (03 R66, 04 R112): it records a drop that closure has made. -/
def execCtlDrop (u : UnitId) (h : StakeHdr) (dropped : UnitId) (cause : BitVec 8) (s : State) : Host.Outcome State Fault Refusal :=
  if (getUnit s dropped).dropped then .next (stakeRow s u 0 h (.drop dropped cause) .discard) else .next s

/-- CTL_THROTTLE (18 R527). -/
def execCtlThrottle (u : UnitId) (h : StakeHdr) (level : BitVec 3) (s : State) : Host.Outcome State Fault Refusal :=
  .next (fwStake s u h (.throttle level))

/-- CTL_POWER (18 R518). -/
def execCtlPower (u : UnitId) (h : StakeHdr) (k : Fin 24) (on : Bool) (s : State) : Host.Outcome State Fault Refusal :=
  .next (fwStake s u h (.power k on))

/-- CTL_MCODE (10 R325). -/
def execCtlMcode (u : UnitId) (h : StakeHdr) (img : PatchImage) (s : State) : Host.Outcome State Fault Refusal :=
  .next (fwStake s u h (.mcode img))

/-- CTL_CODE (09 R276, 16 R481). -/
def execCtlCode (u : UnitId) (h : StakeHdr) (frame : BitVec 52) (ws : List Word) (s : State) : Host.Outcome State Fault Refusal :=
  .next (fwStake s u h (.code frame ws))

/-- CTL_SCRUB (13 R394). -/
def execCtlScrub (u : UnitId) (h : StakeHdr) (base len : Nat) (s : State) : Host.Outcome State Fault Refusal :=
  .next (fwStake s u h (.scrub base len))

/-- CTL_BENCH (03 R79). -/
def execCtlBench (u : UnitId) (h : StakeHdr) (cn : Nat) (s : State) : Host.Outcome State Fault Refusal :=
  .next (stakeRow s u 0 h (.bench cn) .discard)

/-- CTL_DEBUG (03 R90). -/
def execCtlDebug (u : UnitId) (h : StakeHdr) (resume : Bool) (cores : BitVec 48) (s : State) : Host.Outcome State Fault Refusal :=
  .next (fwStake s u h (.debug resume cores))

/-- CTL_SYNC (02 R43, R45). -/
def execCtlSync (u : UnitId) (h : StakeHdr) (lock : Bool) (s : State) : Host.Outcome State Fault Refusal :=
  .next (stakeRow s u 0 h (.sync lock) .discard)

/-- CTL_MCHK (10 R308). -/
def execCtlMchk (u : UnitId) (h : StakeHdr) (cores : BitVec 48) (source : BitVec 12) (s : State) : Host.Outcome State Fault Refusal :=
  .next (fwStake s u h (.mchk cores source))

/-- BLOCK_RESET (17 R494). -/
def execBlockReset (u : UnitId) (h : StakeHdr) (kind : BitVec 2) (k : Fin 16) (s : State) : Host.Outcome State Fault Refusal :=
  .next (stakeRow s u 0 h (.blockReset kind k) .discard)

/-- A corrected, or an uncorrectable, error of an issuer's stake line (03 R69, 17 R489): the die has sources of its own. -/
def lineError (s : State) (source : Fin 5) (ue : Bool) : State :=
  if h : source.val = 0 then (if ue then s else { s with sahya := { s.sahya with lineCe := s.sahya.lineCe + 1 } })
  else
    let d : DieId := ⟨source.val - 1, by have := source.isLt; omega⟩
    let s := if ue then s else modDie s d (fun x => { x with lineCe := x.lineCe + 1 })
    raiseFree s (dieSrcNum d (if ue then 1 else 0)) (foreState s).ucc

/-- The stake line of a source. -/
def srcLine (s : State) (source : Fin 5) : List Stake :=
  if h : source.val = 0 then s.sahya.line else (dieOf s ⟨source.val - 1, by have := source.isLt; omega⟩).line

/-- A unit waits for a record that it is fed from the stake line: the Backsight, or the unit promoted from it for a record that was
issued before the promotion (04 R111). -/
def lineFed (s : State) (source : Fin 5) (seq : Nat) : Option UnitId :=
  let has := fun (l : List Stake) => l.any (fun m => decide (m.source = source) && m.seq == seq)
  match backUnit s with
  | some u => if has (getUnit s u).feed then some u else none
  | none => if s.hub.edgeLate && !isOff s && has (foreState s).feed && has (srcLine s source) then some (foreUnit s) else none

/-- STAKE_DEADLINE (03 R63, R69): at STAMP - 256 the Backsight checks that the record is there and not poisoned. A promoted unit
cannot be dropped for one that is not: the module checkstops (04 R111). -/
def execStakeDeadline (source : Fin 5) (seq : Nat) (o : LineRead) (s : State) : Host.Outcome State Fault Refusal :=
  match lineFed s source seq with
  | none => .next s
  | some u =>
    match o with
    | .good => .next s
    | .corrected => .next (lineError s source false)
    | .poison => .next (dropUnit (lineError s source true) u 0x05)
    | .missing => .next (dropUnit s u 0x06)

/-- ENT_DATA_READ (03 R70): a core's read of LVL_ENT_DATA into Dd. -/
def execEntDataRead (u : UnitId) (l : CoreId) (d : Reg) (s : State) : Host.Outcome State Fault Refusal :=
  let x := getUnit s u
  if !x.executing || x.dropped || !coreRuns (unitCore x l) then .next s else
  let w := x.lvl.pool.headD 0
  let s := entDraw s u
  let c := wrD (unitCore (getUnit s u) l) d w
  .next (modUnit s u (fun x => foldCoreWrites (setUnitCore x l c) l [dItem c d]))

/-- TOD_UPDATE (03 R71): at levelled start and every 1,024 chains after it. -/
def execTodUpdate (tod : Word) (s : State) : Host.Outcome State Fault Refusal :=
  if isOff s || decide ((s.gen.cn - (foreState s).lvl.start.toNat) % 1024 ≠ 0) then .next s
  else .next (issueFw { s with sahya := { s.sahya with tod := tod } } none (.timer false tod))

/-- TIME_OF_DAY_CHANGE (03 R71): the host has set the time of day. -/
def execTimeOfDayChange (tod : Word) (s : State) : Host.Outcome State Fault Refusal :=
  .next (issueFw { s with sahya := { s.sahya with tod := tod } } none (.timer false tod))

/-- TOD_ALARM_SET (03 R71). -/
def execTodAlarmSet (tod : Word) (s : State) : Host.Outcome State Fault Refusal :=
  .next { s with sahya := { s.sahya with alarm := some tod } }

/-- TOD_ALARM (03 R71): the alarm time has come. -/
def execTodAlarm (tod : Word) (s : State) : Host.Outcome State Fault Refusal :=
  match s.sahya.alarm with
  | none => .next s
  | some a =>
    if tod < a then .next s
    else .next (issueFw { s with sahya := { s.sahya with alarm := none, tod := tod } } none (.timer true a))

end Sys2Proof.Machine
end

