-- ==== Sys2Proof/Machine/Strings.lean ====
section
/-! DEFINITION. String instructions, one element for each command (07 R231 to R236, 08 R251). -/
namespace Sys2Proof.Machine

/-- The encoding of a string instruction with its REP prefix (07 R222, R234, R235). -/
def encStr (o : StrOp) (wf hazard : Bool) : Enc :=
  { len := if o.rep then 3 else 2, bad := !wf, hazard := o.rep && hazard }

/-- The bytes of an element. -/
def strSize (o : StrOp) : Nat := 2 ^ o.sz.toNat

/-- A pointer after an element (07 R231). -/
def strStep (o : StrOp) (a : Word) : Word :=
  if o.dir then a - BitVec.ofNat 64 (strSize o) else a + BitVec.ofNat 64 (strSize o)

/-- The end of an element (07 R231, R233): pointers, then D12 under REP; the pair ends when D12 is 0 or the stop condition holds, else
the processor stays at the REP. `flags` gives the PSW, which folds last (log 19). -/
def strEnd (s : State) (p : Proc) (o : StrOp) (src dst stops : Bool) (flags : Option (Psw → Psw)) : XOut :=
  let c := getCore s p
  let c := if src then wrA c 12 (strStep o (rdA c 12)) else c
  let c := if dst then wrA c 13 (strStep o (rdA c 13)) else c
  let n := rdD c 12 - 1
  let c := if o.rep then wrD c 12 n else c
  let c := if o.rep && decide (n ≠ 0) && !stops then { c with pc := c.pc - 3 } else c
  let ws := (if src then [aItem c 12] else []) ++ (if dst then [aItem c 13] else []) ++ (if o.rep then [dItem c 12] else [])
  match flags with
  | none => .done (setCore s p c) ws 1
  | some f =>
    let c := { c with psw := f c.psw }
    .done (setCore s p c) (ws ++ [pswItem c]) 1

/-- A string instruction (07 R232, R233): with D12 = 0 under REP nothing is processed. -/
def runStr (s : State) (i : Issue) (o : StrOp) (e : Enc) (element : State → XOut) : Host.Outcome State Fault Refusal :=
  runInstr s i e (fun s => if o.rep && decide (rdD (getCore s i.proc) 12 = 0) then .done s [] 1 else element s)

/-- MOVS: [A13] := [A12] (07 R231). -/
def execMovs (i : Issue) (o : StrOp) (s : State) : Host.Outcome State Fault Refusal :=
  runStr s i o (encStr o (wfStr o false false false false) false) (fun s =>
    loadThen s i.proc (rdA (getCore s i.proc) 12) (plain (strSize o)) (fun s v =>
      storeThen s i.proc (rdA (getCore s i.proc) 13) (plain (strSize o)) v (fun s => strEnd s i.proc o true true false none)))

/-- The flags of a comparison of two elements, as CMP at the element's width (07 R231). -/
def strFlags (o : StrOp) (x y : Nat) (p : Psw) : Psw :=
  let w := 8 * strSize o
  let r := subFull (BitVec.ofNat w x) (BitVec.ofNat w y) false
  setNzcv p r.1 r.2.1 r.2.2

/-- The stop condition of CMPS and SCANS (07 R231): unequal with STOP = 0, equal with STOP = 1. -/
def strStops (o : StrOp) (x y : Nat) : Bool := if o.stop then x == y else x != y

/-- CMPS: [A12] compared with [A13] (07 R231). -/
def execCmps (i : Issue) (o : StrOp) (s : State) : Host.Outcome State Fault Refusal :=
  runStr s i o (encStr o (wfStr o false true false false) false) (fun s =>
    loadThen s i.proc (rdA (getCore s i.proc) 12) (plain (strSize o)) (fun s x =>
      loadThen s i.proc (rdA (getCore s i.proc) 13) (plain (strSize o)) (fun s y =>
        strEnd s i.proc o true true (strStops o x y) (some (strFlags o x y)))))

/-- SCANS: [A12] compared with the low bytes of De (07 R231). -/
def execScans (i : Issue) (o : StrOp) (s : State) : Host.Outcome State Fault Refusal :=
  runStr s i o (encStr o (wfStr o true true false false) (o.e == 12)) (fun s =>
    loadThen s i.proc (rdA (getCore s i.proc) 12) (plain (strSize o)) (fun s x =>
      let y := (rdD (getCore s i.proc) o.e).toNat % 2 ^ (8 * strSize o)
      strEnd s i.proc o true false (strStops o x y) (some (strFlags o x y))))

/-- FILLS: [A13] := De (07 R231). -/
def execFills (i : Issue) (o : StrOp) (s : State) : Host.Outcome State Fault Refusal :=
  runStr s i o (encStr o (wfStr o true false false false) (o.e == 12)) (fun s =>
    storeThen s i.proc (rdA (getCore s i.proc) 13) (plain (strSize o)) (rdD (getCore s i.proc) o.e).toNat
      (fun s => strEnd s i.proc o false true false none))

/-- XLATS: [A13] := the byte at Ae + [A12] (07 R231). -/
def execXlats (i : Issue) (o : StrOp) (s : State) : Host.Outcome State Fault Refusal :=
  runStr s i o (encStr o (wfStr o true false true false) (o.e == 12 || o.e == 13)) (fun s =>
    loadThen s i.proc (rdA (getCore s i.proc) 12) (plain 1) (fun s x =>
      loadThen s i.proc (rdA (getCore s i.proc) o.e + BitVec.ofNat 64 x) (plain 1) (fun s v =>
        storeThen s i.proc (rdA (getCore s i.proc) 13) (plain 1) v (fun s => strEnd s i.proc o true true false none))))

/-- Both nibbles of a byte are digits (08 R251). -/
def bcdByte (v : Nat) : Bool := decide (v % 16 < 10) && decide (v / 16 < 10)

/-- The sum of two packed bytes and a carry: the packed low two digits, and the decimal carry (08 R251). -/
def digitSum (x y : Nat) (c : Bool) : Nat × Bool :=
  let n := (x / 16 * 10 + x % 16) + (y / 16 * 10 + y % 16) + bit c
  (n % 100 / 10 * 16 + n % 10, decide (100 ≤ n))

/-- DADDS: [A13] := [A13] + [A12] + C as two digits; C is the decimal carry (08 R251). -/
def execDadds (i : Issue) (o : StrOp) (s : State) : Host.Outcome State Fault Refusal :=
  let e := encStr o (wfStr o false false true true) false
  runStr s i o { e with t := false, sv := false } (fun s =>
    loadThen s i.proc (rdA (getCore s i.proc) 12) (plain 1) (fun s x =>
      loadThen s i.proc (rdA (getCore s i.proc) 13) (plain 1) (fun s y =>
        if !bcdByte x || !bcdByte y then .exn s 0x0A 0 else
        let r := digitSum y x (getCore s i.proc).psw.c
        storeThen s i.proc (rdA (getCore s i.proc) 13) (plain 1) r.1 (fun s =>
          strEnd s i.proc o true true false (some (fun p => { p with c := r.2 }))))))

end Sys2Proof.Machine
end

