-- ==== Sys2Proof/Machine/Transport.lean ====
section
/-! DEFINITION. Segments received and the timers of a connection (06 R183 to R193). -/
namespace Sys2Proof.Machine

/-- TVT_DATA (06 R189, R190). -/
def execTvtData (u : UnitId) (n : StationId) (g : Segment) (v : ProgVerdict) (s : State) : Host.Outcome State Fault Refusal :=
  .next (withSeg s u n .data g (fun s => match applyAck s u n g with | none => none | some s => dataSeg s u n g v))

/-- TVT_ACK (06 R192). -/
def execTvtAck (u : UnitId) (n : StationId) (g : Segment) (s : State) : Host.Outcome State Fault Refusal :=
  .next (withSeg s u n .ack g (fun s => applyAck s u n g))

/-- TVT_INIT (06 R187). -/
def execTvtInit (u : UnitId) (n : StationId) (g : Segment) (s : State) : Host.Outcome State Fault Refusal :=
  .next (withSeg s u n .init g (fun s => gotInit s u n g))

/-- TVT_INIT_ACK (06 R187). -/
def execTvtInitAck (u : UnitId) (n : StationId) (g : Segment) (s : State) : Host.Outcome State Fault Refusal :=
  .next (withSeg s u n .initAck g (fun s => gotInitAck s u n g))

/-- TVT_READY (06 R188). -/
def execTvtReady (u : UnitId) (n : StationId) (g : Segment) (s : State) : Host.Outcome State Fault Refusal :=
  .next (withSeg s u n .ready g (fun s => gotReady s u n g))

/-- TVT_CLOSE (06 R187). -/
def execTvtClose (u : UnitId) (n : StationId) (g : Segment) (s : State) : Host.Outcome State Fault Refusal :=
  .next (withSeg s u n .close g (fun s => gotClose s u n))

/-- TVT_CLOSE_ACK (06 R187). -/
def execTvtCloseAck (u : UnitId) (n : StationId) (g : Segment) (s : State) : Host.Outcome State Fault Refusal :=
  .next (withSeg s u n .closeAck g (fun s => gotCloseAck s u n))

/-- TVT_PROBE: answered by ACK (06 R183). -/
def execTvtProbe (u : UnitId) (n : StationId) (g : Segment) (s : State) : Host.Outcome State Fault Refusal :=
  .next (withSeg s u n .probe g (fun s => match applyAck s u n g with
    | none => none
    | some s => sendAck s u n (ackValue (getUnit s u) n (stnS s u n))))

/-- RETRANSMIT_TIMEOUT (06 R192): the station's ladder step expires. -/
def execRetransmitTimeout (u : UnitId) (n : StationId) (s : State) : Host.Outcome State Fault Refusal :=
  match (stnS s u n).conn.ladder with
  | none => .next s
  | some (k, t) =>
    match timeTo s u t with
    | none => .next s
    | some s' => .next ((ladderExpire s' u n k).getD s)

/-- KEEPALIVE_TIMEOUT (06 R193): KEEPALIVE ms without a valid segment; PROBE on the ladder. -/
def execKeepaliveTimeout (u : UnitId) (n : StationId) (s : State) : Host.Outcome State Fault Refusal :=
  let t := stnS s u n
  let ms := bitsOf (peerW t 1) 48 16
  if t.conn.st ≠ .established ∨ stnTransport t ≠ 0 ∨ ms = 0 ∨ t.conn.probing then .next s else
  match timeTo s u (t.conn.lastValid + usCycles s (1000 * ms)) with
  | none => .next s
  | some s =>
    let g := segBase (getUnit s u) n t
    let s := emitSeg s u n .probe g
    .next (startLadder (modConn s u n (fun c => { c with probing := true })) u n)

/-- LOST_RESUME_TIMER (06 R187): 64 ms after each entry into LOST an ACTIVE station tries to resume. -/
def execLostResumeTimer (u : UnitId) (n : StationId) (s : State) : Host.Outcome State Fault Refusal :=
  let t := stnS s u n
  if t.conn.st ≠ .lost ∨ !stnActive t then .next s else
  match timeTo s u (t.conn.lostAt + usCycles s 64000) with
  | none => .next s
  | some s => .next (startInit s u n true)

/-- NONCE_TIE_RETRY (06 R187, R209): equal NONCEs; the own INIT is sent again after RTO_BASE. -/
def execNonceTieRetry (u : UnitId) (n : StationId) (s : State) : Host.Outcome State Fault Refusal :=
  let t := stnS s u n
  match t.conn.tie, t.conn.st with
  | some d, .initSent =>
    match timeTo s u d with
    | none => .next s
    | some s => .next (sendInit (modConn s u n (fun c => { c with tie := none })) u n)
  | _, _ => .next s

/-- REASSEMBLY_TIMEOUT (06 R189): a partial message is discarded 4 × RTO_BASE after its first segment. -/
def execReassemblyTimeout (u : UnitId) (n : StationId) (seq : Nat) (s : State) : Host.Outcome State Fault Refusal :=
  let t := stnS s u n
  match t.conn.parts.find? (fun p => p.seq == seq) with
  | none => .next s
  | some p =>
    match timeTo s u p.deadline with
    | none => .next s
    | some s => .next (discOther (modConn s u n (fun c => { c with parts := c.parts.filter (fun q => q.seq ≠ seq) })) u n)

/-- DEFERRED_ACK (06 R191): ACKIV has expired. -/
def execDeferredAck (u : UnitId) (n : StationId) (s : State) : Host.Outcome State Fault Refusal :=
  let t := stnS s u n
  if !t.conn.ackDue ∨ t.conn.st ≠ .established then .next s else
  match timeTo s u (t.conn.ackAt + ackInterval s t) with
  | none => .next s
  | some s' => .next ((sendAck s' u n (ackValue (getUnit s' u) n t)).getD s)

end Sys2Proof.Machine
end

