-- ==== Sys2Proof/Machine/Dispatch.lean ====
section
/-! DEFINITION. The dispatch: one arm for each command. -/
namespace Sys2Proof.Machine

/-- The effect of a command on everything but the queue. -/
def exec (i : Instr) (s : State) : Host.Outcome State Fault Refusal :=
  match i with
  | .chainTick => Sys2Proof.Machine.execChainTick s
  | .unitEdge u => Sys2Proof.Machine.execUnitEdge u s
  | .outputEmit u ucc o => Sys2Proof.Machine.execOutputEmit u ucc o s
  | .backpressureEnd d => Sys2Proof.Machine.execBackpressureEnd d s
  | .rwsRegisterWrite r w => Sys2Proof.Machine.execRwsRegisterWrite r w s
  | .syncPulseOut => Sys2Proof.Machine.execSyncPulseOut s
  | .syncPulseIn => Sys2Proof.Machine.execSyncPulseIn s
  | .syncPulseCheck ok => Sys2Proof.Machine.execSyncPulseCheck ok s
  | .relockTimeout => Sys2Proof.Machine.execRelockTimeout s
  | .inputStake u d h p b v => Sys2Proof.Machine.execInputStake u d h p b v s
  | .entropyStake u h w0 w1 w2 w3 => Sys2Proof.Machine.execEntropyStake u h w0 w1 w2 w3 s
  | .hostStake u h chan side notice ws => Sys2Proof.Machine.execHostStake u h chan side notice ws s
  | .timerStake u h alarm tod => Sys2Proof.Machine.execTimerStake u h alarm tod s
  | .echoStake u h l kind index => Sys2Proof.Machine.execEchoStake u h l kind index s
  | .pressureStake u d h on space => Sys2Proof.Machine.execPressureStake u d h on space s
  | .ctlRwsWrite u h r w => Sys2Proof.Machine.execCtlRwsWrite u h r w s
  | .ctlCfg u h e => Sys2Proof.Machine.execCtlCfg u h e s
  | .ctlSpare u h l p => Sys2Proof.Machine.execCtlSpare u h l p s
  | .ctlDeconfig u h l => Sys2Proof.Machine.execCtlDeconfig u h l s
  | .ctlDrop u h dropped cause => Sys2Proof.Machine.execCtlDrop u h dropped cause s
  | .ctlThrottle u h level => Sys2Proof.Machine.execCtlThrottle u h level s
  | .ctlPower u h k on => Sys2Proof.Machine.execCtlPower u h k on s
  | .ctlMcode u h img => Sys2Proof.Machine.execCtlMcode u h img s
  | .ctlCode u h frame ws => Sys2Proof.Machine.execCtlCode u h frame ws s
  | .ctlScrub u h base len => Sys2Proof.Machine.execCtlScrub u h base len s
  | .ctlBench u h cn => Sys2Proof.Machine.execCtlBench u h cn s
  | .ctlDebug u h resume cores => Sys2Proof.Machine.execCtlDebug u h resume cores s
  | .ctlSync u h lock => Sys2Proof.Machine.execCtlSync u h lock s
  | .ctlMchk u h cores source => Sys2Proof.Machine.execCtlMchk u h cores source s
  | .stakeDeadline source seq o => Sys2Proof.Machine.execStakeDeadline source seq o s
  | .entDataRead u l d => Sys2Proof.Machine.execEntDataRead u l d s
  | .todUpdate tod => Sys2Proof.Machine.execTodUpdate tod s
  | .todAlarm tod => Sys2Proof.Machine.execTodAlarm tod s
  | .echoIssue l ucc kind index inTime => Sys2Proof.Machine.execEchoIssue l ucc kind index inTime s
  | .instructionRetry u l ucc kind index => Sys2Proof.Machine.execInstructionRetry u l ucc kind index s
  | .spareComplete u => Sys2Proof.Machine.execSpareComplete u s
  | .mpatchResume u => Sys2Proof.Machine.execMpatchResume u s
  | .jtagDebugRequest cores => Sys2Proof.Machine.execJtagDebugRequest cores s
  | .compareEnd p wrongA wrongB => Sys2Proof.Machine.execCompareEnd p wrongA wrongB s
  | .verdictTimeout d => Sys2Proof.Machine.execVerdictTimeout d s
  | .refereeEnd d => Sys2Proof.Machine.execRefereeEnd d s
  | .queueRoomRelease p => Sys2Proof.Machine.execQueueRoomRelease p s
  | .injectionTestSlot d nsLeft passA passB => Sys2Proof.Machine.execInjectionTestSlot d nsLeft passA passB s
  | .divergenceDecision => Sys2Proof.Machine.execDivergenceDecision s
  | .benchLate late0 late1 => Sys2Proof.Machine.execBenchLate late0 late1 s
  | .autoRelevel => Sys2Proof.Machine.execAutoRelevel s
  | .mapSweepEnd u mapB => Sys2Proof.Machine.execMapSweepEnd u mapB s
  | .prepareEnd ok => Sys2Proof.Machine.execPrepareEnd ok s
  | .unionEnd => Sys2Proof.Machine.execUnionEnd s
  | .copyPassEnd => Sys2Proof.Machine.execCopyPassEnd s
  | .freezeStepEnd => Sys2Proof.Machine.execFreezeStepEnd s
  | .stationOpen u rs resume desc => Sys2Proof.Machine.execStationOpen u rs resume desc s
  | .stationQuiesce u rs => Sys2Proof.Machine.execStationQuiesce u rs s
  | .quiesceComplete u rs => Sys2Proof.Machine.execQuiesceComplete u rs s
  | .stationClose u rs => Sys2Proof.Machine.execStationClose u rs s
  | .stationReplay u rs => Sys2Proof.Machine.execStationReplay u rs s
  | .deferredCommand u rs => Sys2Proof.Machine.execDeferredCommand u rs s
  | .txDoorbell u rs prod => Sys2Proof.Machine.execTxDoorbell u rs prod s
  | .rxPostDoorbell u rs q prod => Sys2Proof.Machine.execRxPostDoorbell u rs q prod s
  | .cqConsume u rs q cons => Sys2Proof.Machine.execCqConsume u rs q cons s
  | .send u rs => Sys2Proof.Machine.execSend u rs s
  | .sendSettle u rs => Sys2Proof.Machine.execSendSettle u rs s
  | .settle u rs => Sys2Proof.Machine.execSettle u rs s
  | .fbWriteComplete u fails => Sys2Proof.Machine.execFbWriteComplete u fails s
  | .fbReadReturn u off o => Sys2Proof.Machine.execFbReadReturn u off o s
  | .mirrorMessageReceive u rs m => Sys2Proof.Machine.execMirrorMessageReceive u rs m s
  | .confirmationReceive u book confBsn confMseq => Sys2Proof.Machine.execConfirmationReceive u book confBsn confMseq s
  | .mirrorLostTimeout u book => Sys2Proof.Machine.execMirrorLostTimeout u book s
  | .frameReceive p f => Sys2Proof.Machine.execFrameReceive p f s
  | .stakeDrain p => Sys2Proof.Machine.execStakeDrain p s
  | .pauseReceive p quanta => Sys2Proof.Machine.execPauseReceive p quanta s
  | .portUp p => Sys2Proof.Machine.execPortUp p s
  | .portDown p => Sys2Proof.Machine.execPortDown p s
  | .dieStop d => Sys2Proof.Machine.execDieStop d s
  | .flitReceive p f crcOk => Sys2Proof.Machine.execFlitReceive p f crcOk s
  | .llack p llseq => Sys2Proof.Machine.execLlack p llseq s
  | .llnak p llseq => Sys2Proof.Machine.execLlnak p llseq s
  | .credit p vc0 vc1 => Sys2Proof.Machine.execCredit p vc0 vc1 s
  | .llackTimer p => Sys2Proof.Machine.execLlackTimer p s
  | .blockLockLoss p => Sys2Proof.Machine.execBlockLockLoss p s
  | .tvtData u rs g v => Sys2Proof.Machine.execTvtData u rs g v s
  | .tvtAck u rs g => Sys2Proof.Machine.execTvtAck u rs g s
  | .tvtInit u rs g => Sys2Proof.Machine.execTvtInit u rs g s
  | .tvtInitAck u rs g => Sys2Proof.Machine.execTvtInitAck u rs g s
  | .tvtReady u rs g => Sys2Proof.Machine.execTvtReady u rs g s
  | .tvtClose u rs g => Sys2Proof.Machine.execTvtClose u rs g s
  | .tvtCloseAck u rs g => Sys2Proof.Machine.execTvtCloseAck u rs g s
  | .tvtProbe u rs g => Sys2Proof.Machine.execTvtProbe u rs g s
  | .retransmitTimeout u rs => Sys2Proof.Machine.execRetransmitTimeout u rs s
  | .keepaliveTimeout u rs => Sys2Proof.Machine.execKeepaliveTimeout u rs s
  | .lostResumeTimer u rs => Sys2Proof.Machine.execLostResumeTimer u rs s
  | .nonceTieRetry u rs => Sys2Proof.Machine.execNonceTieRetry u rs s
  | .reassemblyTimeout u rs seq => Sys2Proof.Machine.execReassemblyTimeout u rs seq s
  | .deferredAck u rs => Sys2Proof.Machine.execDeferredAck u rs s
  | .nop is => Sys2Proof.Machine.execNop is s
  | .order is => Sys2Proof.Machine.execOrder is s
  | .plumb is => Sys2Proof.Machine.execPlumb is s
  | .csync is => Sys2Proof.Machine.execCsync is s
  | .ret is => Sys2Proof.Machine.execRet is s
  | .clres is => Sys2Proof.Machine.execClres is s
  | .tend is => Sys2Proof.Machine.execTend is s
  | .rte is => Sys2Proof.Machine.execRte is s
  | .ei is => Sys2Proof.Machine.execEi is s
  | .di is => Sys2Proof.Machine.execDi is s
  | .wait is => Sys2Proof.Machine.execWait is s
  | .waitEnd u l => Sys2Proof.Machine.execWaitEnd u l s
  | .pushd is rs => Sys2Proof.Machine.execPushd is rs s
  | .popd is d => Sys2Proof.Machine.execPopd is d s
  | .apush is rs => Sys2Proof.Machine.execApush is rs s
  | .apop is d => Sys2Proof.Machine.execApop is d s
  | .jmpr is a => Sys2Proof.Machine.execJmpr is a s
  | .callr is a => Sys2Proof.Machine.execCallr is a s
  | .neg is d => Sys2Proof.Machine.execNeg is d s
  | .not is d => Sys2Proof.Machine.execNot is d s
  | .clz is d => Sys2Proof.Machine.execClz is d s
  | .popc is d => Sys2Proof.Machine.execPopc is d s
  | .bswap is d => Sys2Proof.Machine.execBswap is d s
  | .kclr is k => Sys2Proof.Machine.execKclr is k s
  | .mov is d rs => Sys2Proof.Machine.execMov is d rs s
  | .add is o => Sys2Proof.Machine.execAdd is o s
  | .sub is o => Sys2Proof.Machine.execSub is o s
  | .and is o => Sys2Proof.Machine.execAnd is o s
  | .or is o => Sys2Proof.Machine.execOr is o s
  | .xor is o => Sys2Proof.Machine.execXor is o s
  | .cmp is d rs => Sys2Proof.Machine.execCmp is d rs s
  | .amov is d rs => Sys2Proof.Machine.execAmov is d rs s
  | .amovd is d rs => Sys2Proof.Machine.execAmovd is d rs s
  | .dmova is d rs => Sys2Proof.Machine.execDmova is d rs s
  | .aadd is o => Sys2Proof.Machine.execAadd is o s
  | .acmp is d rs => Sys2Proof.Machine.execAcmp is d rs s
  | .addq is d q => Sys2Proof.Machine.execAddq is d q s
  | .aaddq is d q => Sys2Proof.Machine.execAaddq is d q s
  | .addc is d rs t => Sys2Proof.Machine.execAddc is d rs t s
  | .subb is d rs t => Sys2Proof.Machine.execSubb is d rs t s
  | .andn is d rs t => Sys2Proof.Machine.execAndn is d rs t s
  | .shl is d rs t => Sys2Proof.Machine.execShl is d rs t s
  | .shr is d rs t => Sys2Proof.Machine.execShr is d rs t s
  | .sar is d rs t => Sys2Proof.Machine.execSar is d rs t s
  | .rol is d rs t => Sys2Proof.Machine.execRol is d rs t s
  | .ror is d rs t => Sys2Proof.Machine.execRor is d rs t s
  | .mul is d rs t => Sys2Proof.Machine.execMul is d rs t s
  | .div is d rs t => Sys2Proof.Machine.execDiv is d rs t s
  | .divu is d rs t => Sys2Proof.Machine.execDivu is d rs t s
  | .rem is d rs t => Sys2Proof.Machine.execRem is d rs t s
  | .remu is d rs t => Sys2Proof.Machine.execRemu is d rs t s
  | .sext is d rs t => Sys2Proof.Machine.execSext is d rs t s
  | .zext is d rs t => Sys2Proof.Machine.execZext is d rs t s
  | .csel is cond d rs t => Sys2Proof.Machine.execCsel is cond d rs t s
  | .asub is d rs t => Sys2Proof.Machine.execAsub is d rs t s
  | .adiff is d rs t => Sys2Proof.Machine.execAdiff is d rs t s
  | .mulwu is k rs t => Sys2Proof.Machine.execMulwu is k rs t s
  | .mulws is k rs t => Sys2Proof.Machine.execMulws is k rs t s
  | .macwu is k rs t => Sys2Proof.Machine.execMacwu is k rs t s
  | .macws is k rs t => Sys2Proof.Machine.execMacws is k rs t s
  | .kadd is k rs => Sys2Proof.Machine.execKadd is k rs s
  | .kaddc is k rs => Sys2Proof.Machine.execKaddc is k rs s
  | .ksub is k rs => Sys2Proof.Machine.execKsub is k rs s
  | .ksubb is k rs => Sys2Proof.Machine.execKsubb is k rs s
  | .kmov is k rs => Sys2Proof.Machine.execKmov is k rs s
  | .mfkl is d k => Sys2Proof.Machine.execMfkl is d k s
  | .mfkh is d k => Sys2Proof.Machine.execMfkh is d k s
  | .mtkl is k rs => Sys2Proof.Machine.execMtkl is k rs s
  | .mtkh is k rs => Sys2Proof.Machine.execMtkh is k rs s
  | .kcmp is k rs => Sys2Proof.Machine.execKcmp is k rs s
  | .dadd is k rs => Sys2Proof.Machine.execDadd is k rs s
  | .dsub is k rs => Sys2Proof.Machine.execDsub is k rs s
  | .dcmp is k rs => Sys2Proof.Machine.execDcmp is k rs s
  | .cvbd is k rs => Sys2Proof.Machine.execCvbd is k rs s
  | .cvdb is d k => Sys2Proof.Machine.execCvdb is d k s
  | .dshl is k n => Sys2Proof.Machine.execDshl is k n s
  | .dshr is k n => Sys2Proof.Machine.execDshr is k n s
  | .fadd is single d rs t => Sys2Proof.Machine.execFadd is single d rs t s
  | .fsub is single d rs t => Sys2Proof.Machine.execFsub is single d rs t s
  | .fmul is single d rs t => Sys2Proof.Machine.execFmul is single d rs t s
  | .fdiv is single d rs t => Sys2Proof.Machine.execFdiv is single d rs t s
  | .fsqrt is single d rs => Sys2Proof.Machine.execFsqrt is single d rs s
  | .fma is single d rs t => Sys2Proof.Machine.execFma is single d rs t s
  | .fcmp is single rs t => Sys2Proof.Machine.execFcmp is single rs t s
  | .fneg is single d rs => Sys2Proof.Machine.execFneg is single d rs s
  | .fabs is single d rs => Sys2Proof.Machine.execFabs is single d rs s
  | .fcvt is single d rs => Sys2Proof.Machine.execFcvt is single d rs s
  | .fcvti is single d rs => Sys2Proof.Machine.execFcvti is single d rs s
  | .icvtf is single d rs => Sys2Proof.Machine.execIcvtf is single d rs s
  | .mfc is d code => Sys2Proof.Machine.execMfc is d code s
  | .mtc is code rs => Sys2Proof.Machine.execMtc is code rs s
  | .addi is d rs imm => Sys2Proof.Machine.execAddi is d rs imm s
  | .andi is d rs imm => Sys2Proof.Machine.execAndi is d rs imm s
  | .ori is d rs imm => Sys2Proof.Machine.execOri is d rs imm s
  | .xori is d rs imm => Sys2Proof.Machine.execXori is d rs imm s
  | .cmpi is rs imm => Sys2Proof.Machine.execCmpi is rs imm s
  | .shifti is d rs imm => Sys2Proof.Machine.execShifti is d rs imm s
  | .aaddi is d rs imm => Sys2Proof.Machine.execAaddi is d rs imm s
  | .movs is o => Sys2Proof.Machine.execMovs is o s
  | .cmps is o => Sys2Proof.Machine.execCmps is o s
  | .scans is o => Sys2Proof.Machine.execScans is o s
  | .fills is o => Sys2Proof.Machine.execFills is o s
  | .xlats is o => Sys2Proof.Machine.execXlats is o s
  | .dadds is o => Sys2Proof.Machine.execDadds is o s
  | .ldres is d rs => Sys2Proof.Machine.execLdres is d rs s
  | .pinWaitEnd u l => Sys2Proof.Machine.execPinWaitEnd u l s
  | .stcond is d rs t => Sys2Proof.Machine.execStcond is d rs t s
  | .tabt is fn => Sys2Proof.Machine.execTabt is fn s
  | .clean is rs imm => Sys2Proof.Machine.execClean is rs imm s
  | .flush is rs imm => Sys2Proof.Machine.execFlush is rs imm s
  | .lcode is rs t => Sys2Proof.Machine.execLcode is rs t s
  | .svc is imm => Sys2Proof.Machine.execSvc is imm s
  | .serviceIoRead is d rs t => Sys2Proof.Machine.execServiceIoRead is d rs t s
  | .serviceIoWrite is d rs t => Sys2Proof.Machine.execServiceIoWrite is d rs t s
  | .serviceStakeIssue is d rs t => Sys2Proof.Machine.execServiceStakeIssue is d rs t s
  | .serviceKeyTransfer is d rs t => Sys2Proof.Machine.execServiceKeyTransfer is d rs t s
  | .ldb is r ea => Sys2Proof.Machine.execLdb is r ea s
  | .ldbu is r ea => Sys2Proof.Machine.execLdbu is r ea s
  | .ldh is r ea => Sys2Proof.Machine.execLdh is r ea s
  | .ldhu is r ea => Sys2Proof.Machine.execLdhu is r ea s
  | .ldw is r ea => Sys2Proof.Machine.execLdw is r ea s
  | .ldwu is r ea => Sys2Proof.Machine.execLdwu is r ea s
  | .ldd is r ea => Sys2Proof.Machine.execLdd is r ea s
  | .stb is r ea => Sys2Proof.Machine.execStb is r ea s
  | .sth is r ea => Sys2Proof.Machine.execSth is r ea s
  | .stw is r ea => Sys2Proof.Machine.execStw is r ea s
  | .std is r ea => Sys2Proof.Machine.execStd is r ea s
  | .ald is r ea => Sys2Proof.Machine.execAld is r ea s
  | .ast is r ea => Sys2Proof.Machine.execAst is r ea s
  | .ldk is r ea => Sys2Proof.Machine.execLdk is r ea s
  | .stk is r ea => Sys2Proof.Machine.execStk is r ea s
  | .b is cond disp => Sys2Proof.Machine.execB is cond disp s
  | .call is cond disp => Sys2Proof.Machine.execCall is cond disp s
  | .tbeg is cond disp => Sys2Proof.Machine.execTbeg is cond disp s
  | .movi is d imm => Sys2Proof.Machine.execMovi is d imm s
  | .aref is r ea => Sys2Proof.Machine.execAref is r ea s
  | .jmpf is target => Sys2Proof.Machine.execJmpf is target s
  | .callf is target => Sys2Proof.Machine.execCallf is target s
  | .ldi is d imm => Sys2Proof.Machine.execLdi is d imm s
  | .ldih is d imm => Sys2Proof.Machine.execLdih is d imm s
  | .aldi is d imm => Sys2Proof.Machine.execAldi is d imm s
  | .interruptEntry u l => Sys2Proof.Machine.execInterruptEntry u l s
  | .timerInterrupt u l ucc => Sys2Proof.Machine.execTimerInterrupt u l ucc s
  | .transactionAbort u l code => Sys2Proof.Machine.execTransactionAbort u l code s
  | .storeBufferDrain u l => Sys2Proof.Machine.execStoreBufferDrain u l s
  | .rds u q => Sys2Proof.Machine.execRds u q s
  | .rdx u q => Sys2Proof.Machine.execRdx u q s
  | .upg u q => Sys2Proof.Machine.execUpg u q s
  | .rdo u q => Sys2Proof.Machine.execRdo u q s
  | .wrl u q data => Sys2Proof.Machine.execWrl u q data s
  | .wrt u q off data => Sys2Proof.Machine.execWrt u q off data s
  | .stc u q off data => Sys2Proof.Machine.execStc u q off data s
  | .cln u q => Sys2Proof.Machine.execCln u q s
  | .fls u q => Sys2Proof.Machine.execFls u q s
  | .evc u agent line => Sys2Proof.Machine.execEvc u agent line s
  | .evd u agent line poison => Sys2Proof.Machine.execEvd u agent line poison s
  | .evw u agent line => Sys2Proof.Machine.execEvw u agent line s
  | .fws u agent line => Sys2Proof.Machine.execFws u agent line s
  | .fwx u agent line => Sys2Proof.Machine.execFwx u agent line s
  | .fwo u agent line => Sys2Proof.Machine.execFwo u agent line s
  | .inv u agent line drop => Sys2Proof.Machine.execInv u agent line drop s
  | .clnf u agent line => Sys2Proof.Machine.execClnf u agent line s
  | .dat u agent line => Sys2Proof.Machine.execDat u agent line s
  | .ack u agent line => Sys2Proof.Machine.execAck u agent line s
  | .gone u agent line => Sys2Proof.Machine.execGone u agent line s
  | .gnt u agent line => Sys2Proof.Machine.execGnt u agent line s
  | .cmpResponse u agent line => Sys2Proof.Machine.execCmpResponse u agent line s
  | .eack u agent line => Sys2Proof.Machine.execEack u agent line s
  | .done u agent line => Sys2Proof.Machine.execDone u agent line s
  | .rsvl u agent engine line => Sys2Proof.Machine.execRsvl u agent engine line s
  | .err u agent line => Sys2Proof.Machine.execErr u agent line s
  | .directoryWalkEnd u agent => Sys2Proof.Machine.execDirectoryWalkEnd u agent s
  | .wtSweepEnd u => Sys2Proof.Machine.execWtSweepEnd u s
  | .invalidationEnd u => Sys2Proof.Machine.execInvalidationEnd u s
  | .dramCommandIssue u c now candidates => Sys2Proof.Machine.execDramCommandIssue u c now candidates s
  | .writeAccept u c => Sys2Proof.Machine.execWriteAccept u c s
  | .readReturn u c o margin => Sys2Proof.Machine.execReadReturn u c o margin s
  | .refreshSlot u ucc => Sys2Proof.Machine.execRefreshSlot u ucc s
  | .rankPowerDown u c rank => Sys2Proof.Machine.execRankPowerDown u c rank s
  | .fchgHoldEnd u ready => Sys2Proof.Machine.execFchgHoldEnd u ready s
  | .channelBringup u c spdOk sweepOk eyeOk fchgOk rt => Sys2Proof.Machine.execChannelBringup u c spdOk sweepOk eyeOk fchgOk rt s
  | .scrubLine u o f => Sys2Proof.Machine.execScrubLine u o f s
  | .kcv u page => Sys2Proof.Machine.execKcv u page s
  | .aesCbcEnc u page => Sys2Proof.Machine.execAesCbcEnc u page s
  | .aesCbcDec u page => Sys2Proof.Machine.execAesCbcDec u page s
  | .aesCtr u page => Sys2Proof.Machine.execAesCtr u page s
  | .aesGcmEnc u page => Sys2Proof.Machine.execAesGcmEnc u page s
  | .aesGcmDec u page => Sys2Proof.Machine.execAesGcmDec u page s
  | .aesCmac u page => Sys2Proof.Machine.execAesCmac u page s
  | .aesKdf u page => Sys2Proof.Machine.execAesKdf u page s
  | .tdesEcbEnc u page => Sys2Proof.Machine.execTdesEcbEnc u page s
  | .tdesEcbDec u page => Sys2Proof.Machine.execTdesEcbDec u page s
  | .tdesCbcEnc u page => Sys2Proof.Machine.execTdesCbcEnc u page s
  | .tdesCbcDec u page => Sys2Proof.Machine.execTdesCbcDec u page s
  | .tdesMac3 u page => Sys2Proof.Machine.execTdesMac3 u page s
  | .keyBusComplete u keyErr => Sys2Proof.Machine.execKeyBusComplete u keyErr s
  | .cipherComplete u page => Sys2Proof.Machine.execCipherComplete u page s
  | .compress u e => Sys2Proof.Machine.execCompress u e s
  | .decompress u e => Sys2Proof.Machine.execDecompress u e s
  | .jobComplete u e => Sys2Proof.Machine.execJobComplete u e s
  | .cmpRingWrite u e c w => Sys2Proof.Machine.execCmpRingWrite u e c w s
  | .mbxDataWrite n mid is w => Sys2Proof.Machine.execMbxDataWrite n mid is w s
  | .mbxSend n mid w => Sys2Proof.Machine.execMbxSend n mid w s
  | .mbxTake n mid => Sys2Proof.Machine.execMbxTake n mid s
  | .mbxRecall n mid => Sys2Proof.Machine.execMbxRecall n mid s
  | .mbxStatusClear n mid w => Sys2Proof.Machine.execMbxStatusClear n mid w s
  | .mbxBindWrite n w => Sys2Proof.Machine.execMbxBindWrite n w s
  | .mbxLockWrite w => Sys2Proof.Machine.execMbxLockWrite w s
  | .functionLevelReset fn => Sys2Proof.Machine.execFunctionLevelReset fn s
  | .levelConfig h lag diverge => Sys2Proof.Machine.execLevelConfig h lag diverge s
  | .levelStart h mode => Sys2Proof.Machine.execLevelStart h mode s
  | .levelRelevel h w1 rate maxres maxpass => Sys2Proof.Machine.execLevelRelevel h w1 rate maxres maxpass s
  | .levelCancel h => Sys2Proof.Machine.execLevelCancel h s
  | .levelBench h first count detail => Sys2Proof.Machine.execLevelBench h first count detail s
  | .levelMap h => Sys2Proof.Machine.execLevelMap h s
  | .levelDebug h op cores => Sys2Proof.Machine.execLevelDebug h op cores s
  | .closureConfig h policy auto wd inj => Sys2Proof.Machine.execClosureConfig h policy auto wd inj s
  | .closureInject h dies restore => Sys2Proof.Machine.execClosureInject h dies restore s
  | .closureStatus h => Sys2Proof.Machine.execClosureStatus h s
  | .chainStart h cn => Sys2Proof.Machine.execChainStart h cn s
  | .parcelCreate h parcel system ctxBase => Sys2Proof.Machine.execParcelCreate h parcel system ctxBase s
  | .parcelDestroy h parcel => Sys2Proof.Machine.execParcelDestroy h parcel s
  | .parcelCores h parcel cores entry => Sys2Proof.Machine.execParcelCores h parcel cores entry s
  | .parcelMap h parcel op entry => Sys2Proof.Machine.execParcelMap h parcel op entry s
  | .parcelSegment h mseg acl code => Sys2Proof.Machine.execParcelSegment h mseg acl code s
  | .parcelRetire h op page => Sys2Proof.Machine.execParcelRetire h op page s
  | .parcelVector h parcel vector core => Sys2Proof.Machine.execParcelVector h parcel vector core s
  | .codeLoad h parcel frame => Sys2Proof.Machine.execCodeLoad h parcel frame s
  | .codeMpatch h => Sys2Proof.Machine.execCodeMpatch h s
  | .stationGrant h first count parcel quota => Sys2Proof.Machine.execStationGrant h first count parcel quota s
  | .stationQuery h station => Sys2Proof.Machine.execStationQuery h station s
  | .stationBook h op book w0 w1 => Sys2Proof.Machine.execStationBook h op book w0 w1 s
  | .stationMirror h book resend => Sys2Proof.Machine.execStationMirror h book resend s
  | .stationTakeover h mbook jbook cont pairs => Sys2Proof.Machine.execStationTakeover h mbook jbook cont pairs s
  | .stationReconcile h stack => Sys2Proof.Machine.execStationReconcile h stack s
  | .pathModid h id => Sys2Proof.Machine.execPathModid h id s
  | .pathPort h port cfg mac raw mcast => Sys2Proof.Machine.execPathPort h port cfg mac raw mcast s
  | .pathStatus h port => Sys2Proof.Machine.execPathStatus h port s
  | .pathAddr h index ipv hi lo => Sys2Proof.Machine.execPathAddr h index ipv hi lo s
  | .pathGroup h group policy half paths => Sys2Proof.Machine.execPathGroup h group policy half paths s
  | .pathLink h tvtPort ladder => Sys2Proof.Machine.execPathLink h tvtPort ladder s
  | .keyInit h trng => Sys2Proof.Machine.execKeyInit h trng s
  | .keyGenerate h slot attrs trng => Sys2Proof.Machine.execKeyGenerate h slot attrs trng s
  | .keyImport h slot kek attrs blob => Sys2Proof.Machine.execKeyImport h slot kek attrs blob s
  | .keyExport h slot kek => Sys2Proof.Machine.execKeyExport h slot kek s
  | .keyAttr h slot => Sys2Proof.Machine.execKeyAttr h slot s
  | .keyDelete h slot => Sys2Proof.Machine.execKeyDelete h slot s
  | .keyZeroise h magic => Sys2Proof.Machine.execKeyZeroise h magic s
  | .cipherPage h page parcel ctx => Sys2Proof.Machine.execCipherPage h page parcel ctx s
  | .cipherChannel h engine chan parcel ctx => Sys2Proof.Machine.execCipherChannel h engine chan parcel ctx s
  | .cipherLock h en page => Sys2Proof.Machine.execCipherLock h en page s
  | .cipherTest h pass0 pass1 => Sys2Proof.Machine.execCipherTest h pass0 pass1 s
  | .memConfig h ws => Sys2Proof.Machine.execMemConfig h ws s
  | .memBoard h ch rankSlot f0 f1 f2 => Sys2Proof.Machine.execMemBoard h ch rankSlot f0 f1 f2 s
  | .memTrain h => Sys2Proof.Machine.execMemTrain h s
  | .memFreq h set => Sys2Proof.Machine.execMemFreq h set s
  | .memLost h clear => Sys2Proof.Machine.execMemLost h clear s
  | .memLog h clear => Sys2Proof.Machine.execMemLog h clear s
  | .memEcctest h unit ch en raw => Sys2Proof.Machine.execMemEcctest h unit ch en raw s
  | .memRetire h ch entry => Sys2Proof.Machine.execMemRetire h ch entry s
  | .memCtl h w1 hold => Sys2Proof.Machine.execMemCtl h w1 hold s
  | .memTiming h w1 vals => Sys2Proof.Machine.execMemTiming h w1 vals s
  | .memQos h port target rate => Sys2Proof.Machine.execMemQos h port target rate s
  | .scrubRun h base len => Sys2Proof.Machine.execScrubRun h base len s
  | .scrubCancel h => Sys2Proof.Machine.execScrubCancel h s
  | .faultConfig h w1 w2 cores => Sys2Proof.Machine.execFaultConfig h w1 w2 cores s
  | .faultRead h source => Sys2Proof.Machine.execFaultRead h source s
  | .faultRoute h chan => Sys2Proof.Machine.execFaultRoute h chan s
  | .faultInject h source info => Sys2Proof.Machine.execFaultInject h source info s
  | .faultBbox h op first count => Sys2Proof.Machine.execFaultBbox h op first count s
  | .powerDomain h domain on => Sys2Proof.Machine.execPowerDomain h domain on s
  | .powerRead h readings => Sys2Proof.Machine.execPowerRead h readings s
  | .powerThrottle h mode level => Sys2Proof.Machine.execPowerThrottle h mode level s
  | .powerReset h kind unit => Sys2Proof.Machine.execPowerReset h kind unit s
  | .calRead h off count => Sys2Proof.Machine.execCalRead h off count s
  | .calWrite h off ws => Sys2Proof.Machine.execCalWrite h off ws s
  | .calCommit h magic => Sys2Proof.Machine.execCalCommit h magic s
  | .imageWrite h slot off ws => Sys2Proof.Machine.execImageWrite h slot off ws s
  | .imageVerify h slot => Sys2Proof.Machine.execImageVerify h slot s
  | .imageActivate h slot => Sys2Proof.Machine.execImageActivate h slot s
  | .imageCommit h => Sys2Proof.Machine.execImageCommit h s
  | .imageRevoke h gen => Sys2Proof.Machine.execImageRevoke h gen s
  | .imageStatus h => Sys2Proof.Machine.execImageStatus h s
  | .expertEnable h => Sys2Proof.Machine.execExpertEnable h s
  | .expertDisable h => Sys2Proof.Machine.execExpertDisable h s
  | .expertStakedWrite go => Sys2Proof.Machine.execExpertStakedWrite go s
  | .expertRawWrite u off w => Sys2Proof.Machine.execExpertRawWrite u off w s
  | .registerWrite sp off w => Sys2Proof.Machine.execRegisterWrite sp off w s
  | .svcWatchdog => Sys2Proof.Machine.execSvcWatchdog s
  | .svcLockstep => Sys2Proof.Machine.execSvcLockstep s
  | .faultEvent source ucc info => Sys2Proof.Machine.execFaultEvent source ucc info s
  | .blockReset u h kind k => Sys2Proof.Machine.execBlockReset u h kind k s
  | .mrDelayExpiry => Sys2Proof.Machine.execMrDelayExpiry s
  | .tickFailure => Sys2Proof.Machine.execTickFailure s
  | .checkstopIn => Sys2Proof.Machine.execCheckstopIn s
  | .hostCheckstop => Sys2Proof.Machine.execHostCheckstop s
  | .bbFreeze => Sys2Proof.Machine.execBbFreeze s
  | .bbRelease => Sys2Proof.Machine.execBbRelease s
  | .errorSet => Sys2Proof.Machine.execErrorSet s
  | .errorClr => Sys2Proof.Machine.execErrorClr s
  | .fltFirstClear => Sys2Proof.Machine.execFltFirstClear s
  | .benchResetWarm key => Sys2Proof.Machine.execBenchResetWarm key s
  | .benchResetCold key => Sys2Proof.Machine.execBenchResetCold key s
  | .benchZeroArm key => Sys2Proof.Machine.execBenchZeroArm key s
  | .benchZero key => Sys2Proof.Machine.execBenchZero key s
  | .vaonApply => Sys2Proof.Machine.execVaonApply s
  | .vaonRemove => Sys2Proof.Machine.execVaonRemove s
  | .pwrGoodRise => Sys2Proof.Machine.execPwrGoodRise s
  | .pwrGoodFall => Sys2Proof.Machine.execPwrGoodFall s
  | .modResetN level => Sys2Proof.Machine.execModResetN level s
  | .perstN level => Sys2Proof.Machine.execPerstN level s
  | .resetExit => Sys2Proof.Machine.execResetExit s
  | .startupPhaseEnd ok => Sys2Proof.Machine.execStartupPhaseEnd ok s
  | .bringupPhaseTimeout => Sys2Proof.Machine.execBringupPhaseTimeout s
  | .unitResetEnd u => Sys2Proof.Machine.execUnitResetEnd u s
  | .powerSequenceEnd d stable => Sys2Proof.Machine.execPowerSequenceEnd d stable s
  | .throttleControl maxTemp power0 power1 => Sys2Proof.Machine.execThrottleControl maxTemp power0 power1 s
  | .railLoss rail => Sys2Proof.Machine.execRailLoss rail s
  | .refclkLoss => Sys2Proof.Machine.execRefclkLoss s
  | .jtagInstruction ir => Sys2Proof.Machine.execJtagInstruction ir s
  | .refclkReturn => Sys2Proof.Machine.execRefclkReturn s
  | .pauseExpiry p => Sys2Proof.Machine.execPauseExpiry p s
  | .refreshFineChange hot => Sys2Proof.Machine.execRefreshFineChange hot s
  | .benchZeroArmExpiry => Sys2Proof.Machine.execBenchZeroArmExpiry s
  | .timeOfDayChange tod => Sys2Proof.Machine.execTimeOfDayChange tod s
  | .todAlarmSet tod => Sys2Proof.Machine.execTodAlarmSet tod s
  | .unassignedInstruction is why len => Sys2Proof.Machine.execUnassignedInstruction is why len s

end Sys2Proof.Machine
end

