-- ==== Sys2Proof/Safety.lean ====
section
/-! DEFINITION. What counts as a safe state and a safe step, and the words in which the statements about instructions are said. -/
namespace Sys2Proof.Safety

open Sys2Proof.Machine

/-- Every byte memory of the machine is in its canonical form: addresses strictly rising, no entry equal to what an
unlisted address reads as. -/
def memoriesWf (s : State) : Bool :=
  tabWf (fun _ => 0) s.u0.mem.data && tabWf (fun _ => 0) s.u0.mem.dram && tabWf (fun _ => 0) s.u0.fb.mem &&
  tabWf (fun _ => 0) s.u1.mem.data && tabWf (fun _ => 0) s.u1.mem.dram && tabWf (fun _ => 0) s.u1.fb.mem &&
  tabWf (fun _ => 0) s.svcMem

/-- The step answers a next state: no stop of the model. -/
def stepRuns (s : State) : Prop := ∃ t, step s = .next t

/-- The interrupt that a processor takes before its next instruction (10 R303). -/
def interruptAt (s : State) (p : Proc) : Option State :=
  match p with
  | .core u l => takeInterrupt s u l
  | _ => none

/-- The processor executes at the issue, no interrupt and no pin stands in the way, and the fetch of an instruction of `len`
syllables raises nothing; `s1` is the state after the fetch (07 R237 step 1). -/
structure Fetched (s : State) (i : Issue) (len : Nat) (s1 : State) : Prop where
  runs : canRun s i = true
  quiet : interruptAt (atUcc s i) i.proc = none
  free : (getCore (atUcc s i) i.proc).pinWait = none
  fetch : fetchCheck (atUcc s i) i.proc len = (s1, none)

/-- An instruction reaches its own effect: it is fetched, passes the decode checks of 07 R237 and no limit of a transaction ends
it (09 R284). -/
structure Ready (s : State) (i : Issue) (e : Enc) (s1 : State) : Prop extends Fetched s i e.len s1 where
  legal : decodeCause e (procProfile i.proc) (getCore s1 i.proc) = 0
  inLimit : txLimit e (getCore s1 i.proc) = none

/-- The registers with the pc moved past the instruction. -/
def moved (len : Nat) (c : Core) : Core := { c with pc := c.pc + BitVec.ofNat 48 len }

/-- The registers of a processor after `n` instructions have retired: an open transaction has counted them, and no retry of a soft
error is under way (09 R284, 10 R313). -/
def counted (p : Proc) (n : Nat) (c : Core) : Core :=
  match p with
  | .core .. => { c with txn := c.txn.map (fun t => { t with count := t.count + n }), retrying := none }
  | _ => c

/-- The state without a processor's registers, its unit's UCC, and its own signature and count: all that an instruction which works
on registers alone leaves as it was, every byte of every memory among it. -/
def elsewhere (p : Proc) (s : State) : State :=
  match p with
  | .core u l => modUnit s u (fun x => { x with
      ucc := 0
      exe := { x.exe with
        cores := tabErase x.exe.cores l
        sig := { x.exe.sig with core := tabErase x.exe.sig.core l, retired := tabErase x.exe.sig.retired l } } })
  | .engine u e => modUnit s u (fun x => { x with
      ucc := 0
      exe := { x.exe with
        engines := tabErase x.exe.engines e
        sig := { x.exe.sig with trav := tabErase x.exe.sig.trav (e / 16) } } })
  | .service => { s with svcCore := {} }

/-- The instruction `c` of issue `i`, wherever it reaches its own effect, retires with the registers that `f` gives, and nothing else
changes. -/
def Effect (c : Instr) (i : Issue) (e : Enc) (f : Core → Core) : Prop :=
  ∀ s s1, Ready s i e s1 → ∃ t, exec c s = .next t ∧
    getCore t i.proc = counted i.proc 1 (f (moved e.len (getCore s1 i.proc))) ∧ elsewhere i.proc t = elsewhere i.proc s

/-- The instruction has the effect of `Effect` wherever its operands pass `ok`. -/
def EffectIf (c : Instr) (i : Issue) (e : Enc) (ok : Core → Prop) (f : Core → Core) : Prop :=
  ∀ s s1, Ready s i e s1 → ok (moved e.len (getCore s1 i.proc)) → ∃ t, exec c s = .next t ∧
    getCore t i.proc = counted i.proc 1 (f (moved e.len (getCore s1 i.proc))) ∧ elsewhere i.proc t = elsewhere i.proc s

end Sys2Proof.Safety
end

