-- ==== Sys2Proof/Certificates/Slice0/Obligations.lean ====
section
/-! DEFINITION. The statements for the provers, one `def Obligations.<Name>` each; the words they share come first. -/

namespace Sys2Proof.Claims

open Sys2Proof.Machine Sys2Proof.Safety

/-- A true result lies outside the signed range of `w` bits (08 R239, V). -/
def outside (w : Nat) (r : Int) : Bool := decide (r < -(2 : Int) ^ (w - 1) ∨ (2 : Int) ^ (w - 1) - 1 < r)

/-- The flags of a sum with a carry in (08 R239). -/
def sumFlags {w : Nat} (p : Psw) (x y : BitVec w) (cin : Bool) : Psw :=
  let r := x + y + BitVec.ofNat w cin.toNat
  { p with n := r.getMsbD 0, z := decide (r.toNat = 0), c := decide (2 ^ w ≤ x.toNat + y.toNat + cin.toNat)
           v := outside w (x.toInt + y.toInt + cin.toNat) }

/-- The flags of a difference with a borrow in (08 R239): C is 1 when no borrow occurs. -/
def diffFlags {w : Nat} (p : Psw) (x y : BitVec w) (bin : Bool) : Psw :=
  let r := x - y - BitVec.ofNat w bin.toNat
  { p with n := r.getMsbD 0, z := decide (r.toNat = 0), c := decide (y.toNat + bin.toNat ≤ x.toNat)
           v := outside w (x.toInt - y.toInt - bin.toNat) }

/-- N and Z from a result, V cleared, C as it was (07 R228, NZ). -/
def nzFlags (p : Psw) (r : Word) : Psw := { p with n := r.getMsbD 0, z := decide (r.toNat = 0), v := false }

/-- A sum written to a data register, with its flags. -/
def sumTo (c : Core) (d : Reg) (x y : Word) (cin : Bool) : Core :=
  { wrD c d (x + y + BitVec.ofNat 64 cin.toNat) with psw := sumFlags c.psw x y cin }

/-- A difference written to a data register, with its flags. -/
def diffTo (c : Core) (d : Reg) (x y : Word) (bin : Bool) : Core :=
  { wrD c d (x - y - BitVec.ofNat 64 bin.toNat) with psw := diffFlags c.psw x y bin }

/-- A result written to a data register, with N and Z. -/
def nzTo (c : Core) (d : Reg) (r : Word) : Core := { wrD c d r with psw := nzFlags c.psw r }

/-- The first operand, the second operand and the destination of the two forms of ADD and its kin (07 R228). -/
def dest : Alu3 → Reg
  | .short d _ => d
  | .long d _ _ => d
/-- The first operand. -/
def first : Alu3 → Reg
  | .short d _ => d
  | .long _ s _ => s
/-- The second operand. -/
def second : Alu3 → Reg
  | .short _ s => s
  | .long _ _ t => t
/-- The syllables of the two forms. -/
def twoForms : Alu3 → Enc
  | .short .. => { len := 1 }
  | .long .. => { len := 2 }

/-- One syllable, for every profile. -/
def one : Enc := { len := 1 }
/-- Two syllables, for every profile. -/
def two : Enc := { len := 2 }

/-- The count of a shift or rotate: bits [5:0] (08 R240). -/
def count (w : Word) : Nat := w.toNat % 64

/-- The shift or rotate that a number names (07 R228, SHIFTI). -/
def shifted (op : Nat) (x : Word) (n : Nat) : Word :=
  if op = 0 then x <<< n else if op = 1 then x >>> n else if op = 2 then x.sshiftRight n
  else if op = 3 then x.rotateLeft n else x.rotateRight n

/-- The number of leading zero bits; 64 for zero (08 R240). -/
def leading (x : Word) : Nat := if x.toNat = 0 then 64 else 63 - Nat.log2 x.toNat

/-- The number of one bits (08 R240). -/
def ones (x : Word) : Nat := ((List.range 64).filter (fun k => x.getLsbD k)).length

/-- A value of `8 * 2^size` bits extended to 64 bits (07 R228, SEXT and ZEXT). -/
def widen (sgn : Bool) (size : Nat) (x : Word) : Word :=
  let w := 8 * 2 ^ size
  if sgn then (x.setWidth w).signExtend 64 else (x.setWidth w).setWidth 64

end Sys2Proof.Claims

open Sys2Proof Sys2Proof.Machine Sys2Proof.Safety Sys2Proof.Claims

/-- 08 R239, R240: sums, differences and comparisons, with N, Z, C and V. Every register but the destination, every other status bit,
and all that lies outside the processor's registers are as before. -/
def Obligations.SumsDifferencesAndComparisons : Prop :=
  (∀ i o, Effect (.add i o) i (twoForms o) (fun c => sumTo c (dest o) (rdD c (first o)) (rdD c (second o)) false)) ∧
  (∀ i o, Effect (.sub i o) i (twoForms o) (fun c => diffTo c (dest o) (rdD c (first o)) (rdD c (second o)) false)) ∧
  (∀ i d x y, Effect (.addc i d x y) i two (fun c => sumTo c d (rdD c x) (rdD c y) c.psw.c)) ∧
  (∀ i d x y, Effect (.subb i d x y) i two (fun c => diffTo c d (rdD c x) (rdD c y) (!c.psw.c))) ∧
  (∀ i d q, Effect (.addq i d q) i one (fun c => sumTo c d (rdD c d) (q.signExtend 64) false)) ∧
  (∀ i d x imm, Effect (.addi i d x imm) i two (fun c => sumTo c d (rdD c x) (imm.signExtend 64) false)) ∧
  (∀ i d x y, Effect (.adiff i d x y) i two (fun c => diffTo c d (rdA c x) (rdA c y) false)) ∧
  (∀ i d, Effect (.neg i d) i one (fun c => diffTo c d 0 (rdD c d) false)) ∧
  (∀ i x y, Effect (.cmp i x y) i one (fun c => { c with psw := diffFlags c.psw (rdD c x) (rdD c y) false })) ∧
  (∀ i x imm, Effect (.cmpi i x imm) i two (fun c => { c with psw := diffFlags c.psw (rdD c x) (imm.signExtend 64) false })) ∧
  (∀ i x y, Effect (.acmp i x y) i one (fun c => { c with psw := diffFlags c.psw (rdA c x) (rdA c y) false }))

/-- 07 R228, 08 R240: logic, shifts, rotates and MUL, with N and Z set, V cleared and C unchanged. -/
def Obligations.LogicShiftsAndProducts : Prop :=
  (∀ i o, Effect (.and i o) i (twoForms o) (fun c => nzTo c (dest o) (rdD c (first o) &&& rdD c (second o)))) ∧
  (∀ i o, Effect (.or i o) i (twoForms o) (fun c => nzTo c (dest o) (rdD c (first o) ||| rdD c (second o)))) ∧
  (∀ i o, Effect (.xor i o) i (twoForms o) (fun c => nzTo c (dest o) (rdD c (first o) ^^^ rdD c (second o)))) ∧
  (∀ i d x y, Effect (.andn i d x y) i two (fun c => nzTo c d (rdD c x &&& ~~~(rdD c y)))) ∧
  (∀ i d x imm, Effect (.andi i d x imm) i two (fun c => nzTo c d (rdD c x &&& imm.setWidth 64))) ∧
  (∀ i d x imm, Effect (.ori i d x imm) i two (fun c => nzTo c d (rdD c x ||| imm.setWidth 64))) ∧
  (∀ i d x imm, Effect (.xori i d x imm) i two (fun c => nzTo c d (rdD c x ^^^ imm.setWidth 64))) ∧
  (∀ i d, Effect (.not i d) i one (fun c => nzTo c d (~~~(rdD c d)))) ∧
  (∀ i d x y, Effect (.shl i d x y) i two (fun c => nzTo c d (shifted 0 (rdD c x) (count (rdD c y))))) ∧
  (∀ i d x y, Effect (.shr i d x y) i two (fun c => nzTo c d (shifted 1 (rdD c x) (count (rdD c y))))) ∧
  (∀ i d x y, Effect (.sar i d x y) i two (fun c => nzTo c d (shifted 2 (rdD c x) (count (rdD c y))))) ∧
  (∀ i d x y, Effect (.rol i d x y) i two (fun c => nzTo c d (shifted 3 (rdD c x) (count (rdD c y))))) ∧
  (∀ i d x y, Effect (.ror i d x y) i two (fun c => nzTo c d (shifted 4 (rdD c x) (count (rdD c y))))) ∧
  (∀ i d x imm, Effect (.shifti i d x imm) i { len := 2, bad := !decide (imm.toNat / 64 < 5) }
    (fun c => nzTo c d (shifted (imm.toNat / 64) (rdD c x) (imm.toNat % 64)))) ∧
  (∀ i d x y, Effect (.mul i d x y) i two (fun c => nzTo c d (BitVec.ofNat 64 ((rdD c x).toNat * (rdD c y).toNat))))

/-- 08 R241: the four divisions; PSW is not written. -/
def Obligations.DivisionResults : Prop :=
  (∀ i d x y, Effect (.div i d x y) i two (fun c => wrD c d
    (if rdD c y = 0 then -1 else BitVec.ofInt 64 ((rdD c x).toInt.tdiv (rdD c y).toInt)))) ∧
  (∀ i d x y, Effect (.rem i d x y) i two (fun c => wrD c d
    (if rdD c y = 0 then rdD c x else BitVec.ofInt 64 ((rdD c x).toInt.tmod (rdD c y).toInt)))) ∧
  (∀ i d x y, Effect (.divu i d x y) i two (fun c => wrD c d
    (if rdD c y = 0 then -1 else BitVec.ofNat 64 ((rdD c x).toNat / (rdD c y).toNat)))) ∧
  (∀ i d x y, Effect (.remu i d x y) i two (fun c => wrD c d
    (if rdD c y = 0 then rdD c x else BitVec.ofNat 64 ((rdD c x).toNat % (rdD c y).toNat))))

/-- 07 R228, 08 R240: counts, extensions, selections, moves and immediates; PSW is not written. -/
def Obligations.MovesCountsAndImmediates : Prop :=
  (∀ i, Effect (.nop i) i one (fun c => c)) ∧
  (∀ i d x, Effect (.mov i d x) i one (fun c => wrD c d (rdD c x))) ∧
  (∀ i d, Effect (.clz i d) i one (fun c => wrD c d (BitVec.ofNat 64 (leading (rdD c d))))) ∧
  (∀ i d, Effect (.popc i d) i one (fun c => wrD c d (BitVec.ofNat 64 (ones (rdD c d))))) ∧
  (∀ i d, Effect (.bswap i d) i one (fun c => wrD c d (BitVec.ofNat 64 (leNat (leBytes 8 (rdD c d).toNat).reverse)))) ∧
  (∀ i d x t, Effect (.sext i d x t) i { len := 2, bad := !decide (t.toNat < 3) } (fun c => wrD c d (widen true t.toNat (rdD c x)))) ∧
  (∀ i d x t, Effect (.zext i d x t) i { len := 2, bad := !decide (t.toNat < 3) } (fun c => wrD c d (widen false t.toNat (rdD c x)))) ∧
  (∀ i cc d x y, Effect (.csel i cc d x y) i { len := 2, bad := cc == 0xF }
    (fun c => wrD c d (if condHolds c.psw cc then rdD c x else rdD c y))) ∧
  (∀ i d imm, Effect (.movi i d imm) i { len := 3 } (fun c => wrD c d (imm.signExtend 64))) ∧
  (∀ i d imm, Effect (.ldi i d imm) i { len := 4 } (fun c => wrD c d (imm.signExtend 64))) ∧
  (∀ i d imm, Effect (.ldih i d imm) i { len := 4, bad := !decide (imm.toNat < 2 ^ 20) }
    (fun c => wrD c d (BitVec.ofNat 64 (imm.toNat * 2 ^ 44 + (rdD c d).toNat % 2 ^ 44))))

/-- 07 R216, R224, R228: the address registers; PSW is not written. -/
def Obligations.AddressRegisterResults : Prop :=
  (∀ i d x, Effect (.amov i d x) i one (fun c => wrA c d (rdA c x))) ∧
  (∀ i d x, Effect (.amovd i d x) i one (fun c => wrA c d (rdD c x))) ∧
  (∀ i d x, Effect (.dmova i d x) i one (fun c => wrD c d (rdA c x))) ∧
  (∀ i o, Effect (.aadd i o) i (twoForms o) (fun c => wrA c (dest o) (rdA c (first o) + rdD c (second o)))) ∧
  (∀ i d x y, Effect (.asub i d x y) i two (fun c => wrA c d (rdA c x - rdD c y))) ∧
  (∀ i d q, Effect (.aaddq i d q) i one (fun c => wrA c d (rdA c d + q.signExtend 64))) ∧
  (∀ i d x imm, Effect (.aaddi i d x imm) i two (fun c => wrA c d (rdA c x + imm.signExtend 64))) ∧
  (∀ i d imm, Effect (.aldi i d imm) i { len := 4 } (fun c => wrA c d (imm.signExtend 64))) ∧
  (∀ i r ea, Effect (.aref i r ea) i { len := 3, bad := !wfEa ea } (fun c => wrA c r
    (rdA c ea.a + (if ea.xv then rdD c ea.x * BitVec.ofNat 64 (2 ^ ea.sc.toNat) else 0) + ea.disp.signExtend 64)))

/-- 07 R221, R224, R226: the branches that touch no memory: the target counts from the branch's own first syllable. -/
def Obligations.BranchesSetThePc : Prop :=
  (∀ i cc disp, Effect (.b i cc disp) i { len := 3, bad := cc == 0xF }
    (fun c => { c with pc := if condHolds c.psw cc then c.pc - 3 + disp.signExtend 48 else c.pc })) ∧
  (∀ i a, Effect (.jmpr i a) i one (fun c => { c with pc := BitVec.ofNat 48 (rdA c a).toNat })) ∧
  (∀ i t, Effect (.jmpf i t) i { len := 4 } (fun c => { c with pc := t }))

/-- 07 R226: what each condition value tests, and the orders that hold after a comparison of x with y, unsigned and signed. -/
def Obligations.ConditionsAfterAComparison : Prop :=
  (∀ (p : Psw), condHolds p 0xF = false ∧ condHolds p 0 = true ∧
    condHolds p 1 = p.z ∧ condHolds p 2 = !p.z ∧ condHolds p 3 = !p.c ∧ condHolds p 4 = p.c ∧
    condHolds p 5 = (!p.c || p.z) ∧ condHolds p 6 = (p.c && !p.z) ∧ condHolds p 7 = (p.n ^^ p.v) ∧
    condHolds p 8 = !(p.n ^^ p.v) ∧ condHolds p 9 = (p.z || (p.n ^^ p.v)) ∧ condHolds p 10 = (!p.z && !(p.n ^^ p.v)) ∧
    condHolds p 11 = p.n ∧ condHolds p 12 = !p.n ∧ condHolds p 13 = p.v ∧ condHolds p 14 = !p.v) ∧
  (∀ (p : Psw) (x y : Word),
    condHolds (diffFlags p x y false) 0x1 = decide (x = y) ∧
    condHolds (diffFlags p x y false) 0x3 = decide (x.toNat < y.toNat) ∧
    condHolds (diffFlags p x y false) 0x4 = decide (y.toNat ≤ x.toNat) ∧
    condHolds (diffFlags p x y false) 0x5 = decide (x.toNat ≤ y.toNat) ∧
    condHolds (diffFlags p x y false) 0x6 = decide (y.toNat < x.toNat) ∧
    condHolds (diffFlags p x y false) 0x7 = decide (x.toInt < y.toInt) ∧
    condHolds (diffFlags p x y false) 0x8 = decide (y.toInt ≤ x.toInt) ∧
    condHolds (diffFlags p x y false) 0x9 = decide (x.toInt ≤ y.toInt) ∧
    condHolds (diffFlags p x y false) 0xA = decide (y.toInt < x.toInt))


namespace Sys2Proof.Claims

open Sys2Proof.Machine Sys2Proof.Safety

/-- Two syllables, not on the service processor, with the accumulator fields checked (07 R210, R218). -/
def accEnc (ok : Bool) : Enc := { len := 2, sv := false, bad := !ok }
/-- Two syllables, on logical cores alone. -/
def coreEnc (ok : Bool) : Enc := { len := 2, t := false, sv := false, bad := !ok }

/-- The low and the high half of an accumulator. -/
def low (q : Quad) : Word := BitVec.ofNat 64 (q.toNat % 2 ^ 64)
/-- The high half. -/
def high (q : Quad) : Word := BitVec.ofNat 64 (q.toNat / 2 ^ 64)
/-- An accumulator of two halves. -/
def halves (h l : Word) : Quad := BitVec.ofNat 128 (h.toNat * 2 ^ 64 + l.toNat)

/-- A 128-bit sum written to an accumulator, with its flags. -/
def accSumTo (c : Core) (k : Reg) (x y : Quad) (cin : Bool) : Core :=
  { wrK c k (x + y + BitVec.ofNat 128 cin.toNat) with psw := sumFlags c.psw x y cin }

/-- A 128-bit difference written to an accumulator, with its flags. -/
def accDiffTo (c : Core) (k : Reg) (x y : Quad) (bin : Bool) : Core :=
  { wrK c k (x - y - BitVec.ofNat 128 bin.toNat) with psw := diffFlags c.psw x y bin }

/-- A product added to an accumulator modulo 2^128: C is the carry out of bit 127, and no other flag changes (08 R242). -/
def accAdd (c : Core) (k : Reg) (p : Quad) : Core :=
  { wrK c k (rdK c k + p) with psw := { c.psw with c := decide (2 ^ 128 ≤ (rdK c k).toNat + p.toNat) } }

/-- Nibble `n` of an accumulator. -/
def nibble (q : Quad) (n : Nat) : Nat := q.toNat / 2 ^ (4 * n) % 16
/-- The magnitude of a packed-decimal number: digit k is nibble k + 1 (07 R218). -/
def magnitude (q : Quad) : Nat := ((List.range 31).map (fun k => nibble q (k + 1) * 10 ^ k)).sum
/-- Every digit and the sign are valid (08 R244). -/
def packedOk (q : Quad) : Prop := (∀ k < 31, nibble q (k + 1) ≤ 9) ∧ 10 ≤ nibble q 0
/-- The sign is minus (08 R244). -/
def minus (q : Quad) : Bool := nibble q 0 == 0xB || nibble q 0 == 0xD
/-- The signed value of a packed-decimal number. -/
def packedValue (q : Quad) : Int := if minus q then -(magnitude q : Int) else magnitude q
/-- The 31 low-order digits of a magnitude, with the sign that a result carries (08 R245). -/
def packed (neg : Bool) (m : Nat) : Quad :=
  BitVec.ofNat 128 (((List.range 31).map (fun k => m / 10 ^ k % 10 * 2 ^ (4 * (k + 1)))).sum +
    (if neg && decide (m % 10 ^ 31 ≠ 0) then 0xD else 0xC))

/-- A decimal result in an accumulator: N when the written sign is minus, Z when every digit is zero, V as given, C as it was
(08 R239, R245). -/
def packedTo (c : Core) (k : Reg) (neg : Bool) (m : Nat) (v : Bool) : Core :=
  { wrK c k (packed neg m) with psw := { c.psw with n := neg && decide (m % 10 ^ 31 ≠ 0), z := decide (m % 10 ^ 31 = 0), v := v } }

/-- A signed decimal sum (08 R246). -/
def packedSumTo (c : Core) (k : Reg) (r : Int) : Core := packedTo c k (decide (r < 0)) r.natAbs (decide (10 ^ 31 ≤ r.natAbs))

/-- A floating-point result in Dd, its flags joined to the sticky ones; the subnormal trap gives none. -/
def floatTo (c : Core) (d : Reg) (o : FpOut) : Core :=
  match o with
  | .value v fl => { wrD c d (BitVec.ofNat 64 v) with fpsw := c.fpsw ||| fl }
  | .trap => c

/-- The instruction of a logical core delivers the operation's value and flags to Dd, wherever the operation does not trap. -/
def FloatEffect (c : Instr) (i : Issue) (d : Reg) (o : Core → FpOut) : Prop :=
  EffectIf c i { len := 2, t := false, sv := false } (fun c => o c ≠ .trap) (fun c => floatTo c d (o c))

/-- The operand of a format in a data register: the low 32 bits for binary32 (07 R217). -/
def operand (single : Bool) (w : Word) : Nat := if single then w.toNat % 2 ^ 32 else w.toNat

/-- FCVT from the format that P names to the other one (08 R260). -/
def convertFloat (p : Bool) (rm : Nat) (flush : Bool) (v : Nat) : FpOut :=
  let f := fmtOf p
  let g := fmtOf (!p)
  if fpIsNan f v then
    .value (fpPack g (fpSign f v) (fpEmax g) (if p then fpFrac f v * 2 ^ 29 else fpFrac f v / 2 ^ 29) ||| (if p then 2 ^ 51 else 2 ^ 22))
      (if fpIsSnan f v then 1 else 0)
  else if fpIsInf f v then .value (fpInf g (fpSign f v)) 0
  else if fpIsZero f v then .value (fpZero g (fpSign f v)) 0
  else if fpIsSub f v then (if flush then .value (fpZero g (fpSign f v)) 0 else .trap)
  else fpDeliver g rm flush (fpSign f v) (fpMant f v) (fpPow f v) false

/-- FPSW.INVALID joined when a comparison meets a signalling NaN (08 R261). -/
def compareTo (c : Core) (n z cy v : Bool) (inv : Bool) : Core :=
  { c with psw := { c.psw with n := n, z := z, c := cy, v := v }, fpsw := if inv then c.fpsw ||| 1 else c.fpsw }

/-- What MTC leaves in the registers (07 R219): the RW fields alone. -/
def controlWritten (c : Core) (code : Nat) (w : Word) : Core :=
  if code = 0x30 then { c with psw := { c.psw with
    c := w.getLsbD 0, v := w.getLsbD 1, z := w.getLsbD 2, n := w.getLsbD 3, ie := if c.psw.s then w.getLsbD 9 else c.psw.ie } }
  else if code = 0x31 then { c with rm := w.setWidth 2, subn := w.getLsbD 2 }
  else if code = 0x32 then { c with fpsw := w.setWidth 5 }
  else if code = 0x37 then { c with ea15 := w }
  else if code = 0x38 then { c with ssp := w }
  else if code = 0x39 then { c with vbase := (w >>> 10).setWidth 38 }
  else if code = 0x3A then { c with epc := w.setWidth 48 }
  else if code = 0x3B then { c with epsw := { c.epsw with
    c := w.getLsbD 0, v := w.getLsbD 1, z := w.getLsbD 2, n := w.getLsbD 3, s := w.getLsbD 8, ie := w.getLsbD 9 } }
  else if code = 0x3C then { c with ecause :=
    { code := w.setWidth 8, ilen := (w >>> 8).setWidth 2, tx := w.getLsbD 10, mcip := w.getLsbD 11, iaddr := (w >>> 16).setWidth 48 } }
  else if code = 0x3D then { c with eaddr := w }
  else if code = 0x3F then { c with tcmp := w }
  else c

end Sys2Proof.Claims
/-- 08 R242: products into the accumulators; MACWU and MACWS write C alone of the flags. -/
def Obligations.ProductsIntoAccumulators : Prop :=
  (∀ i k x y, Effect (.mulwu i k x y) i (accEnc (k.toNat < 4)) (fun c =>
    wrK c k (BitVec.ofNat 128 ((rdD c x).toNat * (rdD c y).toNat)))) ∧
  (∀ i k x y, Effect (.mulws i k x y) i (accEnc (k.toNat < 4)) (fun c =>
    wrK c k (BitVec.ofInt 128 ((rdD c x).toInt * (rdD c y).toInt)))) ∧
  (∀ i k x y, Effect (.macwu i k x y) i (accEnc (k.toNat < 4)) (fun c =>
    accAdd c k (BitVec.ofNat 128 ((rdD c x).toNat * (rdD c y).toNat)))) ∧
  (∀ i k x y, Effect (.macws i k x y) i (accEnc (k.toNat < 4)) (fun c =>
    accAdd c k (BitVec.ofInt 128 ((rdD c x).toInt * (rdD c y).toInt))))

/-- 08 R243: 128-bit sums, differences and comparisons, and the moves of accumulators and their halves. -/
def Obligations.AccumulatorResults : Prop :=
  (∀ i k x, Effect (.kadd i k x) i (accEnc (decide (k.toNat < 4) && decide (x.toNat < 4))) (fun c =>
    accSumTo c k (rdK c k) (rdK c x) false)) ∧
  (∀ i k x, Effect (.kaddc i k x) i (accEnc (decide (k.toNat < 4) && decide (x.toNat < 4))) (fun c =>
    accSumTo c k (rdK c k) (rdK c x) c.psw.c)) ∧
  (∀ i k x, Effect (.ksub i k x) i (accEnc (decide (k.toNat < 4) && decide (x.toNat < 4))) (fun c =>
    accDiffTo c k (rdK c k) (rdK c x) false)) ∧
  (∀ i k x, Effect (.ksubb i k x) i (accEnc (decide (k.toNat < 4) && decide (x.toNat < 4))) (fun c =>
    accDiffTo c k (rdK c k) (rdK c x) (!c.psw.c))) ∧
  (∀ i k x, Effect (.kcmp i k x) i (accEnc (decide (k.toNat < 4) && decide (x.toNat < 4))) (fun c =>
    { c with psw := diffFlags c.psw (rdK c k) (rdK c x) false })) ∧
  (∀ i k x, Effect (.kmov i k x) i (accEnc (decide (k.toNat < 4) && decide (x.toNat < 4))) (fun c => wrK c k (rdK c x))) ∧
  (∀ i d k, Effect (.mfkl i d k) i (accEnc (k.toNat < 4)) (fun c => wrD c d (low (rdK c k)))) ∧
  (∀ i d k, Effect (.mfkh i d k) i (accEnc (k.toNat < 4)) (fun c => wrD c d (high (rdK c k)))) ∧
  (∀ i k x, Effect (.mtkl i k x) i (accEnc (k.toNat < 4)) (fun c => wrK c k (halves (high (rdK c k)) (rdD c x)))) ∧
  (∀ i k x, Effect (.mtkh i k x) i (accEnc (k.toNat < 4)) (fun c => wrK c k (halves (rdD c x) (low (rdK c k))))) ∧
  (∀ i k, Effect (.kclr i k) i { len := 1, sv := false, bad := !decide (k.toNat < 4) } (fun c => wrK c k 0))

/-- 08 R244 to R249: the packed-decimal instructions on valid operands. -/
def Obligations.DecimalResults : Prop :=
  (∀ i k x, EffectIf (.dadd i k x) i (coreEnc (decide (k.toNat < 4) && decide (x.toNat < 4)))
    (fun c => packedOk (rdK c k) ∧ packedOk (rdK c x)) (fun c => packedSumTo c k (packedValue (rdK c k) + packedValue (rdK c x)))) ∧
  (∀ i k x, EffectIf (.dsub i k x) i (coreEnc (decide (k.toNat < 4) && decide (x.toNat < 4)))
    (fun c => packedOk (rdK c k) ∧ packedOk (rdK c x)) (fun c => packedSumTo c k (packedValue (rdK c k) - packedValue (rdK c x)))) ∧
  (∀ i k x, EffectIf (.dcmp i k x) i (coreEnc (decide (k.toNat < 4) && decide (x.toNat < 4)))
    (fun c => packedOk (rdK c k) ∧ packedOk (rdK c x))
    (fun c => { c with psw := { c.psw with
      n := decide (packedValue (rdK c k) < packedValue (rdK c x)), z := decide (packedValue (rdK c k) = packedValue (rdK c x)), v := false } })) ∧
  (∀ i k n, EffectIf (.dshl i k n) i (coreEnc (decide (k.toNat < 4) && decide (n.toNat < 32))) (fun c => packedOk (rdK c k))
    (fun c => packedTo c k (minus (rdK c k)) (magnitude (rdK c k) * 10 ^ n.toNat)
      (decide (10 ^ 31 ≤ magnitude (rdK c k) * 10 ^ n.toNat)))) ∧
  (∀ i k n, EffectIf (.dshr i k n) i (coreEnc (decide (k.toNat < 4) && decide (n.toNat < 32))) (fun c => packedOk (rdK c k))
    (fun c => packedTo c k (minus (rdK c k)) (magnitude (rdK c k) / 10 ^ n.toNat) false)) ∧
  (∀ i k x, Effect (.cvbd i k x) i (coreEnc (k.toNat < 4))
    (fun c => packedTo c k (decide ((rdD c x).toInt < 0)) (rdD c x).toInt.natAbs false)) ∧
  (∀ i d k, EffectIf (.cvdb i d k) i (coreEnc (k.toNat < 4)) (fun c => packedOk (rdK c k))
    (fun c =>
      let r := BitVec.ofInt 64 (packedValue (rdK c k))
      { wrD c d r with psw := { nzFlags c.psw r with v := outside 64 (packedValue (rdK c k)) } }))

/-- 08 R245: the number that a decimal instruction writes is valid, its value is the signed low-order 31 digits, its sign nibble is
0xD exactly when it is negative, and it is 0xC otherwise. -/
def Obligations.DecimalResultsCarryThePreferredSign : Prop :=
  ∀ (neg : Bool) (m : Nat), packedOk (packed neg m) ∧
    packedValue (packed neg m) = (if neg then -1 else 1) * ((m % 10 ^ 31 : Nat) : Int) ∧
    nibble (packed neg m) 0 = (if packedValue (packed neg m) < 0 then 0xD else 0xC) ∧
    (∀ k < 31, nibble (packed neg m) (k + 1) = m / 10 ^ k % 10)

/-- 08 R254 to R260, 07 R217: the floating-point instructions on logical cores: the operation's value goes to Dd, its flags join the
sticky ones of FPSW, and PSW is unchanged. Without a subnormal operand or result (or under FLUSH) they complete. -/
def Obligations.FloatingPointResults : Prop :=
  (∀ i p d x y, FloatEffect (.fadd i p d x y) i d (fun c => fpOperate (fmtOf p) c.subn [operand p (rdD c x), operand p (rdD c y)] (fun _ => 0)
      (fun v => fpAdd (fmtOf p) c.rm.toNat c.subn (v.getD 0 0) (v.getD 1 0)))) ∧
  (∀ i p d x y, FloatEffect (.fsub i p d x y) i d (fun c => fpOperate (fmtOf p) c.subn [operand p (rdD c x), operand p (rdD c y)] (fun _ => 0)
      (fun v => fpAdd (fmtOf p) c.rm.toNat c.subn (v.getD 0 0) (v.getD 1 0 ^^^ (if p then 2 ^ 31 else 2 ^ 63))))) ∧
  (∀ i p d x y, FloatEffect (.fmul i p d x y) i d (fun c => fpOperate (fmtOf p) c.subn [operand p (rdD c x), operand p (rdD c y)] (fun _ => 0)
      (fun v => fpMul (fmtOf p) c.rm.toNat c.subn (v.getD 0 0) (v.getD 1 0)))) ∧
  (∀ i p d x y, FloatEffect (.fdiv i p d x y) i d (fun c => fpOperate (fmtOf p) c.subn [operand p (rdD c x), operand p (rdD c y)] (fun _ => 0)
      (fun v => fpDiv (fmtOf p) c.rm.toNat c.subn (v.getD 0 0) (v.getD 1 0)))) ∧
  (∀ i p d x, FloatEffect (.fsqrt i p d x) i d (fun c => fpOperate (fmtOf p) c.subn [operand p (rdD c x)] (fun _ => 0)
      (fun v => fpSqrt (fmtOf p) c.rm.toNat c.subn (v.getD 0 0)))) ∧
  (∀ i p d x y, FloatEffect (.fma i p d x y) i d (fun c =>
      fpOperate (fmtOf p) c.subn [operand p (rdD c x), operand p (rdD c y), operand p (rdD c d)]
        (fun v => if zeroTimesInf (fmtOf p) (v.getD 0 0) (v.getD 1 0) then 1 else 0)
        (fun v => fpFma (fmtOf p) c.rm.toNat c.subn (v.getD 0 0) (v.getD 1 0) (v.getD 2 0)))) ∧
  (∀ i p d x, Effect (.fneg i p d x) i (coreEnc true) (fun c =>
    wrD c d (BitVec.ofNat 64 (operand p (rdD c x) ^^^ (if p then 2 ^ 31 else 2 ^ 63))))) ∧
  (∀ i p d x, Effect (.fabs i p d x) i (coreEnc true) (fun c =>
    wrD c d (BitVec.ofNat 64 (operand p (rdD c x) % (if p then 2 ^ 31 else 2 ^ 63))))) ∧
  (∀ i p d x, FloatEffect (.fcvti i p d x) i d (fun c =>
    if fpIsSub (fmtOf p) (operand p (rdD c x)) then (if c.subn then .value 0 0 else .trap)
    else .value (fpToWord (fmtOf p) c.rm.toNat (operand p (rdD c x))).1 (fpToWord (fmtOf p) c.rm.toNat (operand p (rdD c x))).2)) ∧
  (∀ i p d x, FloatEffect (.fcvt i p d x) i d (fun c => convertFloat p c.rm.toNat c.subn (operand p (rdD c x)))) ∧
  (∀ i p d x, Effect (.icvtf i p d x) i (coreEnc true) (fun c => floatTo c d
    (if rdD c x = 0 then .value 0 0
     else fpDeliver (fmtOf p) c.rm.toNat c.subn (decide ((rdD c x).toInt < 0)) (rdD c x).toInt.natAbs 0 false)))

/-- 08 R261, 07 R228: FCMP sets N for less, Z and C for equal, C for greater, C and V for unordered; +0 equals -0; INVALID only for a
signalling NaN. -/
def Obligations.FloatingPointComparison : Prop :=
  ∀ i p x y s s1, Ready s i (coreEnc true) s1 →
    let c := moved 2 (getCore s1 i.proc)
    let a := if c.subn then fpFlushIn (fmtOf p) (operand p (rdD c x)) else operand p (rdD c x)
    let b := if c.subn then fpFlushIn (fmtOf p) (operand p (rdD c y)) else operand p (rdD c y)
    let sg := fpIsSnan (fmtOf p) a || fpIsSnan (fmtOf p) b
    ¬ fpIsSub (fmtOf p) a → ¬ fpIsSub (fmtOf p) b →
    ∃ t, exec (.fcmp i p x y) s = .next t ∧ elsewhere i.proc t = elsewhere i.proc s ∧
      (fpIsNan (fmtOf p) a ∨ fpIsNan (fmtOf p) b →
        getCore t i.proc = counted i.proc 1 (compareTo c false false true true sg)) ∧
      (¬ fpIsNan (fmtOf p) a → ¬ fpIsNan (fmtOf p) b →
        (fpKey (fmtOf p) a < fpKey (fmtOf p) b → getCore t i.proc = counted i.proc 1 (compareTo c true false false false false)) ∧
        (fpKey (fmtOf p) a = fpKey (fmtOf p) b → getCore t i.proc = counted i.proc 1 (compareTo c false true true false false)) ∧
        (fpKey (fmtOf p) b < fpKey (fmtOf p) a → getCore t i.proc = counted i.proc 1 (compareTo c false false true false false)))

/-- 08 R259: an operation with a NaN operand delivers the first one, quiet, and INVALID exactly when an operand is a signalling NaN;
one without a NaN operand that is invalid delivers the default NaN. -/
def Obligations.NanOperandsGiveTheFirstOneQuiet : Prop :=
  (∀ (p : Bool) (flush : Bool) (vs : List Nat) (op : List Nat → FpOut) (x : Nat),
    vs.find? (fpIsNan (fmtOf p)) = some x → (flush = true ∨ ∀ v ∈ vs, fpIsSub (fmtOf p) v = false) →
    fpOperate (fmtOf p) flush vs (fun _ => 0) op =
      .value (x ||| (if p then 2 ^ 22 else 2 ^ 51)) (if vs.any (fpIsSnan (fmtOf p)) then 1 else 0)) ∧
  (∀ flush rm, fpAdd fmtD rm flush (fpInf fmtD false) (fpInf fmtD true) = .value 0x7FF8000000000000 1 ∧
    fpAdd fmtS rm flush (fpInf fmtS false) (fpInf fmtS true) = .value 0x7FC00000 1 ∧
    fpMul fmtD rm flush 0 (fpInf fmtD false) = .value 0x7FF8000000000000 1 ∧
    fpDiv fmtD rm flush 0 0 = .value 0x7FF8000000000000 1 ∧ fpSqrt fmtD rm flush 0xBFF0000000000000 = .value 0x7FF8000000000000 1)

/-- 07 R219, R220, 00 R11: MFC and MTC on every control register, EI and DI. A write reaches the RW fields alone. -/
def Obligations.ControlRegisterAccess : Prop :=
  (∀ i d code, Effect (.mfc i d code) i (encCtlReg code) (fun c => wrD c d (ctlRegWord i.proc c code.toNat))) ∧
  (∀ i code x, Effect (.mtc i code x) i (encCtlReg code) (fun c => controlWritten c code.toNat (rdD c x))) ∧
  (∀ i, Effect (.ei i) i { len := 1, priv := true, txBad := true } (fun c => { c with psw := { c.psw with ie := true } })) ∧
  (∀ i, Effect (.di i) i { len := 1, priv := true, txBad := true } (fun c => { c with psw := { c.psw with ie := false } })) ∧
  (∀ p c, ctlRegWord p c 0x31 = BitVec.ofNat 64 (c.rm.toNat + 4 * c.subn.toNat) ∧ ctlRegWord p c 0x32 = c.fpsw.setWidth 64 ∧
    ctlRegWord p c 0x33 = BitVec.ofNat 64 (c.rsvValid.toNat + 64 * c.rsvGranule.toNat) ∧
    ctlRegWord p c 0x34 = BitVec.ofNat 64 (c.psw.tx.toNat + 256 * c.tcode.toNat) ∧ ctlRegWord p c 0x35 = c.retryCnt.setWidth 64 ∧
    ctlRegWord p c 0x37 = c.ea15 ∧ ctlRegWord p c 0x38 = c.ssp ∧ ctlRegWord p c 0x39 = BitVec.ofNat 64 (1024 * c.vbase.toNat) ∧
    ctlRegWord p c 0x3A = c.epc.setWidth 64 ∧ ctlRegWord p c 0x3D = c.eaddr ∧ ctlRegWord p c 0x3F = c.tcmp)

/-- 07 R219: the bits of PSW as MFC reads it: the flags in [3:0], S, IE and TX in [10:8], zero elsewhere; EPSW has the same layout. -/
def Obligations.StatusRegisterLayout : Prop :=
  ∀ (p : Proc) (c : Core) (n : Nat),
    ((ctlRegWord p c 0x30).getLsbD n = (if n = 0 then c.psw.c else if n = 1 then c.psw.v else if n = 2 then c.psw.z else if n = 3 then c.psw.n
      else if n = 8 then c.psw.s else if n = 9 then c.psw.ie else if n = 10 then c.psw.tx else false)) ∧
    ctlRegWord p { c with psw := c.epsw } 0x30 = ctlRegWord p c 0x3B

/-- 10 R298: RTE restores the status from EPSW with TX 0, A15 from EA15 when it returns to problem state, clears MCIP and branches to
EPC; neither it nor an entry writes SSP. -/
def Obligations.ReturnFromException : Prop :=
  (∀ i, Effect (.rte i) i { len := 1, priv := true, txBad := true } (fun c =>
    let n : Core := { c with psw := { c.epsw with tx := false }, ecause := { c.ecause with mcip := false }, pc := c.epc }
    if c.epsw.s then n else wrA n 15 c.ea15)) ∧
  (∀ c code ilen tx iaddr epc eaddr, (enterCore c code ilen tx iaddr epc eaddr).ssp = c.ssp) ∧ (∀ c, (returnCore c).ssp = c.ssp)


namespace Sys2Proof.Claims

open Sys2Proof.Machine Sys2Proof.Safety

/-- The state in which the body of an instruction works: fetched, the pc moved past it. -/
def inBody (s1 : State) (i : Issue) (len : Nat) : State := setCore s1 i.proc (moved len (getCore s1 i.proc))

/-- An instruction that loads: wherever its bytes can be read, it retires with the registers that `f` gives from the little-endian number
of the bytes, and stores nothing. -/
def LoadEffect (c : Instr) (i : Issue) (e : Enc) (va : Core → Word) (a : Access) (f : Nat → Core → Core) : Prop :=
  ∀ s s1 s2 bs, Ready s i e s1 → loadBytes (inBody s1 i e.len) i.proc (va (getCore s1 i.proc)) a = .ok s2 bs →
    ∃ t, exec c s = .next t ∧ getCore t i.proc = counted i.proc 1 (f (leNat bs) (getCore s2 i.proc)) ∧
      elsewhere i.proc t = elsewhere i.proc s2

/-- An instruction that stores: wherever the low bytes of `v` can be stored at `va`, it retires with the registers that `f` gives
from those before and those after the store, and nothing else changes than what that store changes. -/
def StoreEffect (c : Instr) (i : Issue) (e : Enc) (va : Core → Word) (a : Access) (v : Core → Nat) (f : Core → Core → Core) : Prop :=
  ∀ s s1 s2, Ready s i e s1 →
    storeBytes (inBody s1 i e.len) i.proc (va (getCore s1 i.proc)) a (leBytes a.n (v (moved e.len (getCore s1 i.proc)))) = .ok s2 →
    ∃ t, exec c s = .next t ∧ getCore t i.proc = counted i.proc 1 (f (moved e.len (getCore s1 i.proc)) (getCore s2 i.proc)) ∧
      elsewhere i.proc t = elsewhere i.proc s2

/-- The effective address of 07 R224. -/
def address (ea : Ea) (c : Core) : Word :=
  rdA c ea.a + (if ea.xv then rdD c ea.x * BitVec.ofNat 64 (2 ^ ea.sc.toNat) else 0) + ea.disp.signExtend 64

/-- The encoding of an instruction with a data address: three syllables, the fields of R224 checked. -/
def memEnc (ea : Ea) : Enc := { len := 3, bad := !wfEa ea }
/-- The same for an accumulator. -/
def memAccEnc (k : Reg) (ea : Ea) : Enc := { len := 3, sv := false, bad := !(decide (k.toNat < 4) && wfEa ea) }

/-- An access of `n` bytes, and one of 8 bytes that may reach a device (07 R230). -/
def bytes (n : Nat) : Access := { n := n }
/-- An 8-byte access by LDD, ALD, STD or AST. -/
def deviceWord : Access := { n := 8, dev := true }

/-- A number of `w` bits sign-extended to 64. -/
def signed (w v : Nat) : Word := (BitVec.ofNat w v).signExtend 64

/-- The top of the stack, and the place of the next push (07 R221). -/
def stackTop (c : Core) : Word := rdA c 15
/-- The place of the next push. -/
def pushPlace (c : Core) : Word := rdA c 15 - 8

/-- The byte of DRAM that a unit's memory holds at a module-physical address. -/
def byteAt (s : State) (u : UnitId) (a : Nat) : Byte := tabGet byteDef (getUnit s u).mem.data a

end Sys2Proof.Claims
/-- 07 R228, R230: the loads. Bytes are little-endian; the byte, half and word loads extend with the sign or with zeros. -/
def Obligations.LoadsWriteTheBytesRead : Prop :=
  (∀ i r ea, LoadEffect (.ldb i r ea) i (memEnc ea) (address ea) (bytes 1) (fun v c => wrD c r (signed 8 v))) ∧
  (∀ i r ea, LoadEffect (.ldbu i r ea) i (memEnc ea) (address ea) (bytes 1) (fun v c => wrD c r (BitVec.ofNat 64 v))) ∧
  (∀ i r ea, LoadEffect (.ldh i r ea) i (memEnc ea) (address ea) (bytes 2) (fun v c => wrD c r (signed 16 v))) ∧
  (∀ i r ea, LoadEffect (.ldhu i r ea) i (memEnc ea) (address ea) (bytes 2) (fun v c => wrD c r (BitVec.ofNat 64 v))) ∧
  (∀ i r ea, LoadEffect (.ldw i r ea) i (memEnc ea) (address ea) (bytes 4) (fun v c => wrD c r (signed 32 v))) ∧
  (∀ i r ea, LoadEffect (.ldwu i r ea) i (memEnc ea) (address ea) (bytes 4) (fun v c => wrD c r (BitVec.ofNat 64 v))) ∧
  (∀ i r ea, LoadEffect (.ldd i r ea) i (memEnc ea) (address ea) deviceWord (fun v c => wrD c r (BitVec.ofNat 64 v))) ∧
  (∀ i r ea, LoadEffect (.ald i r ea) i (memEnc ea) (address ea) deviceWord (fun v c => wrA c r (BitVec.ofNat 64 v))) ∧
  (∀ i r ea, LoadEffect (.ldk i r ea) i (memAccEnc r ea) (address ea) (bytes 16) (fun v c => wrK c r (BitVec.ofNat 128 v)))

/-- 07 R228, R230: the stores; the address and the value are those of the registers before the instruction. -/
def Obligations.StoresStoreTheLowBytes : Prop :=
  (∀ i r ea, StoreEffect (.stb i r ea) i (memEnc ea) (address ea) (bytes 1) (fun c => (rdD c r).toNat) (fun _ c => c)) ∧
  (∀ i r ea, StoreEffect (.sth i r ea) i (memEnc ea) (address ea) (bytes 2) (fun c => (rdD c r).toNat) (fun _ c => c)) ∧
  (∀ i r ea, StoreEffect (.stw i r ea) i (memEnc ea) (address ea) (bytes 4) (fun c => (rdD c r).toNat) (fun _ c => c)) ∧
  (∀ i r ea, StoreEffect (.std i r ea) i (memEnc ea) (address ea) deviceWord (fun c => (rdD c r).toNat) (fun _ c => c)) ∧
  (∀ i r ea, StoreEffect (.ast i r ea) i (memEnc ea) (address ea) deviceWord (fun c => (rdA c r).toNat) (fun _ c => c)) ∧
  (∀ i r ea, StoreEffect (.stk i r ea) i (memAccEnc r ea) (address ea) (bytes 16) (fun c => (rdK c r).toNat) (fun _ c => c))

/-- 07 R221, R228, R238: the stack, calls and returns. A push stores at A15 - 8 and A15 moves there; APUSH of A15 stores it as it was
before; a pop reads at A15 and A15 moves up by 8, and APOP of A15 takes the loaded word; a call pushes the address of the next
instruction, and RET pops a word whose bits [63:48] are zero into the pc. -/
def Obligations.StackCallsAndReturns : Prop :=
  (∀ i r, StoreEffect (.pushd i r) i one pushPlace (bytes 8) (fun c => (rdD c r).toNat) (fun b c => wrA c 15 (rdA b 15 - 8))) ∧
  (∀ i r, StoreEffect (.apush i r) i one pushPlace (bytes 8) (fun c => (rdA c r).toNat) (fun b c => wrA c 15 (rdA b 15 - 8))) ∧
  (∀ i d, LoadEffect (.popd i d) i one stackTop (bytes 8) (fun v c => wrA (wrD c d (BitVec.ofNat 64 v)) 15 (rdA c 15 + 8))) ∧
  (∀ i d, LoadEffect (.apop i d) i one stackTop (bytes 8) (fun v c =>
    if d = 15 then wrA c 15 (BitVec.ofNat 64 v) else wrA (wrA c d (BitVec.ofNat 64 v)) 15 (rdA c 15 + 8))) ∧
  (∀ i cc disp, StoreEffect (.call i cc disp) i { len := 3, bad := !decide (cc = 0) } pushPlace (bytes 8) (fun c => c.pc.toNat)
    (fun b c => { wrA c 15 (rdA b 15 - 8) with pc := b.pc - 3 + disp.signExtend 48 })) ∧
  (∀ i a, StoreEffect (.callr i a) i one pushPlace (bytes 8) (fun c => c.pc.toNat)
    (fun b c => { wrA c 15 (rdA b 15 - 8) with pc := BitVec.ofNat 48 (rdA b a).toNat })) ∧
  (∀ i target, StoreEffect (.callf i target) i { len := 4 } pushPlace (bytes 8) (fun c => c.pc.toNat)
    (fun b c => { wrA c 15 (rdA b 15 - 8) with pc := target })) ∧
  (∀ i s s1 s2 bs, Ready s i one s1 → loadBytes (inBody s1 i 1) i.proc (stackTop (getCore s1 i.proc)) (bytes 8) = .ok s2 bs →
    leNat bs < 2 ^ 48 → ∃ t, exec (.ret i) s = .next t ∧
      getCore t i.proc = counted i.proc 1 { wrA (getCore s2 i.proc) 15 (rdA (getCore s2 i.proc) 15 + 8) with pc := BitVec.ofNat 48 (leNat bs) } ∧
      elsewhere i.proc t = elsewhere i.proc s2)

/-- 07 R230, 09 R266, R267: what a logical core's load of DRAM reads and leaves, outside a transaction. It takes the bytes of the
youngest buffered store that covers it, or those of memory where no buffered store shares a byte with it; no byte of memory changes, and
the registers are as before but for the translations that the core holds. -/
def Obligations.CoreLoadsOfDram : Prop :=
  ∀ s u (l : CoreId) va a mpa s0 s2 bs, dataAddr s (.core u l) va a = .at mpa s0 → isCtlAddr mpa = false → isFbAddr mpa = false →
    (unitCore (getUnit s u) l).txn = none → sbForward (unitCore (getUnit s u) l) mpa a.n ≠ .part →
    loadBytes s (.core u l) va a = .ok s2 bs →
    (∀ n, byteAt s2 u n = byteAt s u n) ∧
    (sbForward (unitCore (getUnit s u) l) mpa a.n = .value bs ∨
      sbForward (unitCore (getUnit s u) l) mpa a.n = .none ∧ bs = (List.range a.n).map (fun k => byteAt s u (mpa + k))) ∧
    { unitCore (getUnit s2 u) l with tlb := [], ctxLine := none } = { unitCore (getUnit s u) l with tlb := [], ctxLine := none }

/-- 09 R267: a logical core's store outside a transaction retires into its buffer while it has room: the youngest entry, with its address
and bytes; no byte of memory changes, and no register but the translations that the core holds. -/
def Obligations.CoreStoresRetireIntoTheBuffer : Prop :=
  ∀ s u (l : CoreId) va a mpa s0 bs, dataAddr s (.core u l) va { a with write := true } = .at mpa s0 → isCtlAddr mpa = false →
    (unitCore (getUnit s u) l).txn = none → (unitCore (getUnit s u) l).sb.length < 64 →
    ∃ t, storeBytes s (.core u l) va a bs = .ok t ∧ (∀ n, byteAt t u n = byteAt s u n) ∧
      (unitCore (getUnit t u) l).sb = (unitCore (getUnit s u) l).sb ++ [{ addr := mpa, bytes := bs }] ∧
      { unitCore (getUnit t u) l with sb := [], tlb := [], ctxLine := none } =
        { unitCore (getUnit s u) l with sb := [], tlb := [], ctxLine := none }

/-- 09 R266, R267, 15 R453: STORE_BUFFER_DRAIN performs the oldest store, in order: where its home in DRAM takes it and the line can be
had, the buffer loses it, its bytes are in memory, and every other byte is as before. -/
def Obligations.DrainPerformsTheOldestStore : Prop :=
  ∀ s u (l : CoreId) e r y, unitRuns s u (getUnit s u).ucc = true → (unitCore (getUnit s u) l).sb = e :: r → isFbAddr e.addr = false →
    homeTakes (getUnit s u) (unitCore (getUnit s u) l).parcel.toNat e.addr = true →
    coreTouch (getUnit s u) l (e.addr / 64) true none = (y, .go) →
    ∃ t, exec (.storeBufferDrain u l) s = .next t ∧ (unitCore (getUnit t u) l).sb = r ∧
      (∀ n, byteAt t u n = if e.addr ≤ n ∧ n < e.addr + e.bytes.length then e.bytes.getD (n - e.addr) 0 else byteAt s u n)


namespace Sys2Proof.Claims

open Sys2Proof.Machine Sys2Proof.Safety

/-- The bytes of a string element (07 R231). -/
def elemBytes (o : StrOp) : Nat := 2 ^ o.sz.toNat

/-- A string instruction: two syllables, three with its REP prefix; its fields checked, and a repeat hazard only under REP (07 R222,
R231, R234). -/
def strEnc (o : StrOp) (ok hazard : Bool) : Enc := { len := if o.rep then 3 else 2, bad := !ok, hazard := o.rep && hazard }

/-- The registers after an element (07 R231, R233): the pointers that the instruction uses have moved by the element in the direction of
DIR, D12 counts down under REP, and the pc stays at the REP until D12 is 0 or the instruction's stop condition holds. -/
def element (o : StrOp) (src dst stops : Bool) (c : Core) : Core :=
  let by_ : Word := if o.dir then -(BitVec.ofNat 64 (elemBytes o)) else BitVec.ofNat 64 (elemBytes o)
  let c1 := if src then wrA c 12 (rdA c 12 + by_) else c
  let c2 := if dst then wrA c1 13 (rdA c1 13 + by_) else c1
  if o.rep then
    let c3 := wrD c2 12 (rdD c 12 - 1)
    if rdD c 12 - 1 = 0 ∨ stops then c3 else { c3 with pc := c3.pc - 3 }
  else c2

/-- The flags of an element comparison, at the element's width (07 R231). -/
def elementFlags (o : StrOp) (x y : Nat) (c : Core) : Core :=
  { c with psw := diffFlags c.psw (BitVec.ofNat (8 * elemBytes o) x) (BitVec.ofNat (8 * elemBytes o) y) false }

/-- The stop condition of CMPS and SCANS (07 R231). -/
def stopsAt (o : StrOp) (x y : Nat) : Bool := if o.stop then decide (x = y) else decide (x ≠ y)

/-- The instruction processes an element: no REP precedes it, or D12 is not zero (07 R232). -/
def goesOn (o : StrOp) (c : Core) : Prop := o.rep = true → rdD c 12 ≠ 0

/-- What a processor's body finds to load at an address. -/
def reads (s : State) (p : Proc) (va : Word) (n : Nat) (t : State) (bs : List Byte) : Prop := loadBytes s p va (bytes n) = .ok t bs

/-- The state after a processor's body has stored the low bytes of a number at an address. -/
def stored (s : State) (p : Proc) (va : Word) (n v : Nat) (t : State) : Prop := storeBytes s p va (bytes n) (leBytes n v) = .ok t

/-- The command completes in a state whose registers of the processor are `r` with one instruction counted, and which is elsewhere as `b`. -/
def retires (c : Instr) (s : State) (p : Proc) (r : Core) (b : State) : Prop :=
  ∃ t, exec c s = .next t ∧ getCore t p = counted p 1 r ∧ elsewhere p t = elsewhere p b

/-- The registers after an entry to supervisor state (10 R297): `epc` the return address, `iaddr` the address of the instruction. -/
def entered (c : Core) (code ilen : Nat) (iaddr epc : CodeAddr) (eaddr : Word) (offset : Nat) : Core :=
  let e : Core := { c with
    epc := epc, epsw := { c.psw with tx := false }
    ecause := { code := BitVec.ofNat 8 code, ilen := BitVec.ofNat 2 ilen, tx := false, mcip := c.ecause.mcip, iaddr := iaddr }
    eaddr := eaddr, psw := { c.psw with s := true, ie := false, tx := false }
    rsvValid := false, waiting := false, pinWait := none, pc := BitVec.ofNat 48 (c.vbase.toNat * 1024 + offset) }
  if c.psw.s then e else { wrA e 15 c.ssp with ea15 := rdA c 15 }

/-- The core takes an exception of 10 R302 that no transaction and no repeated failure at the entry point turns aside: its registers are
those of the entry at +256, the registers of every other processor of the module and every byte of memory are as before. -/
def raises (c : Instr) (s s1 : State) (u : UnitId) (l : CoreId) (code len : Nat) (eaddr : Word) : Prop :=
  let k := getCore s1 (.core u l)
  ∃ t, exec c s = .next t ∧ getCore t (.core u l) = entered k code (len - 1) k.pc k.pc eaddr 256 ∧
    (∀ n, byteAt t u n = byteAt s1 u n) ∧ (∀ m, m ≠ l.val → unitCore (getUnit t u) m = unitCore (getUnit s1 u) m) ∧
    getUnit t u.other = getUnit s1 u.other

/-- The core is in no transaction, and does not stand at its own exception entry point (10 R299, 09 R289). -/
def plainCore (s1 : State) (u : UnitId) (l : CoreId) : Prop :=
  let k := getCore s1 (.core u l)
  k.txn = none ∧ k.pc ≠ BitVec.ofNat 48 (k.vbase.toNat * 1024 + 256)

end Sys2Proof.Claims
/-- 07 R231 to R233, 08 R251: one element of each string instruction, where its bytes can be read and stored; and under REP with D12 = 0
nothing is processed. -/
def Obligations.StringInstructionElements : Prop :=
  (∀ i o s s1 s2 bs s3, Ready s i (strEnc o (wfStr o false false false false) false) s1 → goesOn o (getCore s1 i.proc) →
    reads (inBody s1 i (if o.rep then 3 else 2)) i.proc (rdA (getCore s1 i.proc) 12) (elemBytes o) s2 bs →
    stored s2 i.proc (rdA (getCore s2 i.proc) 13) (elemBytes o) (leNat bs) s3 →
    retires (.movs i o) s i.proc (element o true true false (getCore s3 i.proc)) s3) ∧
  (∀ i o s s1 s2 bs s3 cs, Ready s i (strEnc o (wfStr o false true false false) false) s1 → goesOn o (getCore s1 i.proc) →
    reads (inBody s1 i (if o.rep then 3 else 2)) i.proc (rdA (getCore s1 i.proc) 12) (elemBytes o) s2 bs →
    reads s2 i.proc (rdA (getCore s2 i.proc) 13) (elemBytes o) s3 cs →
    retires (.cmps i o) s i.proc (elementFlags o (leNat bs) (leNat cs)
      (element o true true (stopsAt o (leNat bs) (leNat cs)) (getCore s3 i.proc))) s3) ∧
  (∀ i o s s1 s2 bs, Ready s i (strEnc o (wfStr o true true false false) (o.e == 12)) s1 → goesOn o (getCore s1 i.proc) →
    reads (inBody s1 i (if o.rep then 3 else 2)) i.proc (rdA (getCore s1 i.proc) 12) (elemBytes o) s2 bs →
    let y := (rdD (getCore s2 i.proc) o.e).toNat % 2 ^ (8 * elemBytes o)
    retires (.scans i o) s i.proc (elementFlags o (leNat bs) y (element o true false (stopsAt o (leNat bs) y) (getCore s2 i.proc))) s2) ∧
  (∀ i o s s1 s2, Ready s i (strEnc o (wfStr o true false false false) (o.e == 12)) s1 → goesOn o (getCore s1 i.proc) →
    stored (inBody s1 i (if o.rep then 3 else 2)) i.proc (rdA (getCore s1 i.proc) 13) (elemBytes o) (rdD (getCore s1 i.proc) o.e).toNat s2 →
    retires (.fills i o) s i.proc (element o false true false (getCore s2 i.proc)) s2) ∧
  (∀ i o s s1 s2 bs s3 cs s4, Ready s i (strEnc o (wfStr o true false true false) (o.e == 12 || o.e == 13)) s1 →
    goesOn o (getCore s1 i.proc) →
    reads (inBody s1 i (if o.rep then 3 else 2)) i.proc (rdA (getCore s1 i.proc) 12) 1 s2 bs →
    reads s2 i.proc (rdA (getCore s2 i.proc) o.e + BitVec.ofNat 64 (leNat bs)) 1 s3 cs →
    stored s3 i.proc (rdA (getCore s3 i.proc) 13) 1 (leNat cs) s4 →
    retires (.xlats i o) s i.proc (element o true true false (getCore s4 i.proc)) s4) ∧
  (∀ i o s s1 s2 bs s3 cs s4, Ready s i { strEnc o (wfStr o false false true true) false with t := false, sv := false } s1 →
    goesOn o (getCore s1 i.proc) →
    reads (inBody s1 i (if o.rep then 3 else 2)) i.proc (rdA (getCore s1 i.proc) 12) 1 s2 bs →
    reads s2 i.proc (rdA (getCore s2 i.proc) 13) 1 s3 cs →
    leNat bs % 16 < 10 → leNat bs / 16 < 10 → leNat cs % 16 < 10 → leNat cs / 16 < 10 →
    let n := (leNat cs / 16 * 10 + leNat cs % 16) + (leNat bs / 16 * 10 + leNat bs % 16) + (getCore s3 i.proc).psw.c.toNat
    stored s3 i.proc (rdA (getCore s3 i.proc) 13) 1 (n % 100 / 10 * 16 + n % 10) s4 →
    let k := element o true true false (getCore s4 i.proc)
    retires (.dadds i o) s i.proc { k with psw := { k.psw with c := decide (100 ≤ n) } } s4) ∧
  (∀ i o, o.rep = true →
    EffectIf (.movs i o) i (strEnc o (wfStr o false false false false) false) (fun c => rdD c 12 = 0) (fun c => c) ∧
    EffectIf (.cmps i o) i (strEnc o (wfStr o false true false false) false) (fun c => rdD c 12 = 0) (fun c => c) ∧
    EffectIf (.scans i o) i (strEnc o (wfStr o true true false false) (o.e == 12)) (fun c => rdD c 12 = 0) (fun c => c) ∧
    EffectIf (.fills i o) i (strEnc o (wfStr o true false false false) (o.e == 12)) (fun c => rdD c 12 = 0) (fun c => c) ∧
    EffectIf (.xlats i o) i (strEnc o (wfStr o true false true false) (o.e == 12 || o.e == 13)) (fun c => rdD c 12 = 0) (fun c => c))

/-- 09 R273 to R275: ORDER and CSYNC retire once every earlier store of the processor has been performed, PLUMB once they have reached
their end points besides; nothing else of the registers changes but translations that a store of its own context has made stale. -/
def Obligations.BarriersRetireAfterEarlierStores : Prop :=
  (∀ i s s1 s2, Ready s i one s1 → orderNow (inBody s1 i 1) i.proc = some s2 → retires (.order i) s i.proc (getCore s2 i.proc) s2) ∧
  (∀ i s s1 s2, Ready s i { len := 1, txBad := true } s1 → orderNow (inBody s1 i 1) i.proc = some s2 →
    retires (.csync i) s i.proc (getCore s2 i.proc) s2) ∧
  (∀ i s s1 s2, Ready s i { len := 1, txBad := true } s1 → orderNow (inBody s1 i 1) i.proc = some s2 → plumbed s2 i.proc = true →
    retires (.plumb i) s i.proc (getCore s2 i.proc) s2) ∧
  (∀ s u (l : CoreId) t, (unitCore (getUnit s u) l).sb = [] → orderNow s (.core u l) = some t →
    (∀ n, byteAt t u n = byteAt s u n) ∧ (unitCore (getUnit t u) l).sb = [])

/-- 11 R339, R341, 07 R228: CLEAN and FLUSH of a byte's line of DRAM by a logical core that has no buffered store to it, the line being
free of transactions and service. No byte changes; after CLEAN the L3 holds no dirty copy of the line; after FLUSH it holds none at
all. -/
def Obligations.CleanAndFlushALine : Prop :=
  ∀ s s1 u (l : CoreId) ucc r imm mpa s2, Ready s ⟨.core u l, ucc⟩ { len := 2, txBad := true } s1 →
    dataAddr (inBody s1 ⟨.core u l, ucc⟩ 2) (.core u l) (rdA (getCore s1 (.core u l)) r + imm.signExtend 64) (bytes 1) = .at mpa s2 →
    isFbAddr mpa = false → (unitCore (getUnit s2 u) l).sb.any (fun e => e.addr / 64 == mpa / 64) = false →
    (txResolve (getUnit s2 u) (mpa / 64) false (some l.val) none).2 = .go → inService (getUnit s2 u) (mpa / 64) = false →
    (∃ t, exec (.clean ⟨.core u l, ucc⟩ r imm) s = .next t ∧ (∀ n, byteAt t u n = byteAt s u n) ∧
      l3Of (getUnit t u) (mpa / 64) ≠ .dirty ∧ getCore t (.core u l) = counted (.core u l) 1 (getCore s2 (.core u l))) ∧
    (∃ t, exec (.flush ⟨.core u l, ucc⟩ r imm) s = .next t ∧ (∀ n, byteAt t u n = byteAt s u n) ∧
      l3Of (getUnit t u) (mpa / 64) = .absent ∧ getCore t (.core u l) = counted (.core u l) 1 (getCore s2 (.core u l)))

/-- 15 R451, 07 R213: LCODE puts the code word of Dt with its parity into the store buffer, at the slot of the syllable address in As, when
that address is a multiple of 4, its page is mapped with L and lies in a code frame. -/
def Obligations.LcodeStoresACodeWord : Prop :=
  ∀ s s1 u (l : CoreId) ucc a t ppa us frame,
    let i : Issue := ⟨.core u l, ucc⟩
    let c := getCore s1 (.core u l)
    let x := getUnit (inBody s1 i 2) u
    Ready s i { len := 2, t := false, sv := false, priv := true, txBad := true } s1 → (rdA c a).toNat % 4 = 0 → (rdA c a).toNat < 2 ^ 48 →
    codeXlate x c.parcel.toNat l (BitVec.ofNat 48 (rdA c a).toNat) = some (ppa, true, us) →
    codeFrame x c.parcel.toNat ppa = some frame → c.sb.length < 64 →
    retires (.lcode i a t) s (.core u l) { moved 2 c with
      sb := c.sb ++ [{ addr := frame + (rdA c a).toNat % 8192 / 4 * 8, bytes := leBytes 8 (codeSlot (rdD c t)).toNat }] } s1

/-- 09 R277 to R280, 11 R344: the reservation. LDRES of a logical core reads the doubleword and holds the 64-byte granule, pinned at
its home; CLRES releases it; a STCOND without a reservation of the granule writes 1 to Dd and stores nothing; one whose reservation
holds, at a home that takes it, stores the doubleword and writes 0. RSV.VALID is 0 after every STCOND. -/
def Obligations.ReservationsOfLogicalCores : Prop :=
  (∀ s s1 u (l : CoreId) ucc d r mpa s2 y s3 bs, Ready s ⟨.core u l, ucc⟩ { len := 2, txBad := true } s1 →
    dataAddr (inBody s1 ⟨.core u l, ucc⟩ 2) (.core u l) (rdA (getCore s1 (.core u l)) r) (bytes 8) = .at mpa s2 → isFbAddr mpa = false →
    let x := clearRsv (getUnit s2 u) l
    pinsInSet x (mpa / 64) (corePos x l, 0) < 8 → coreTouch x l (mpa / 64) false none = (y, .go) →
    dramLoad (setUnit s2 u y) u l (rdA (getCore s1 (.core u l)) r) mpa 8 = .ok s3 bs →
    ∃ t, exec (.ldres ⟨.core u l, ucc⟩ d r) s = .next t ∧
      getCore t (.core u l) = counted (.core u l) 1 { wrD (getCore s3 (.core u l)) d (BitVec.ofNat 64 (leNat bs)) with
        rsvValid := true, rsvGranule := BitVec.ofNat 46 (mpa / 64), pinWait := none } ∧
      (dirOf (getUnit t u) (mpa / 64)).pin = some (corePos x l, 0)) ∧
  (∀ s s1 i, Ready s i { len := 1, txBad := true } s1 →
    ∃ t, exec (.clres i) s = .next t ∧ getCore t i.proc = counted i.proc 1 { moved 1 (getCore s1 i.proc) with rsvValid := false }) ∧
  (∀ s s1 u (l : CoreId) ucc d r v mpa s2, Ready s ⟨.core u l, ucc⟩ { len := 2, txBad := true } s1 →
    (getCore s1 (.core u l)).sb = [] → (getCore s1 (.core u l)).rsvValid = false →
    dataAddr (inBody s1 ⟨.core u l, ucc⟩ 2) (.core u l) (rdA (getCore s1 (.core u l)) r) { n := 8, write := true, atHome := true } = .at mpa s2 →
    dataAddr (inBody s1 ⟨.core u l, ucc⟩ 2) (.core u l) (rdA (getCore s1 (.core u l)) r) { n := 8, write := true } = .at mpa s2 →
    ∃ t, exec (.stcond ⟨.core u l, ucc⟩ d r v) s = .next t ∧
      getCore t (.core u l) = counted (.core u l) 1 (wrD (getCore s2 (.core u l)) d 1) ∧
      (∀ n, byteAt t u n = byteAt s u n)) ∧
  (∀ s s1 u (l : CoreId) ucc d r v mpa s2 y, Ready s ⟨.core u l, ucc⟩ { len := 2, txBad := true } s1 →
    (getCore s1 (.core u l)).sb = [] →
    dataAddr (inBody s1 ⟨.core u l, ucc⟩ 2) (.core u l) (rdA (getCore s1 (.core u l)) r) { n := 8, write := true, atHome := true } = .at mpa s2 →
    (getCore s2 (.core u l)).rsvValid = true → (getCore s2 (.core u l)).rsvGranule.toNat = mpa / 64 → isFbAddr mpa = false →
    rsvlFlying (getUnit s2 u) mpa (corePos (getUnit s2 u) l, 0) = false →
    homeTakes (getUnit s2 u) (getCore s2 (.core u l)).parcel.toNat mpa = true →
    coreTouch (getUnit s2 u) l (mpa / 64) true none = (y, .go) →
    ∃ t, exec (.stcond ⟨.core u l, ucc⟩ d r v) s = .next t ∧ rdD (getCore t (.core u l)) d = 0 ∧
      (getCore t (.core u l)).rsvValid = false ∧
      (∀ n, byteAt t u n = if mpa ≤ n ∧ n < mpa + 8 then
        (leBytes 8 (rdD (getCore s2 (.core u l)) v).toNat).getD (n - mpa) 0 else byteAt s u n))


namespace Sys2Proof.Claims

open Sys2Proof.Machine Sys2Proof.Safety

/-- The registers after an abort of an open transaction (09 R286, R290): the checkpoint with TX = 0, TSTAT.CODE, the abort path, and the
stamp carried after CONFLICT and DIR_RECLAIM alone. -/
def aborted (c : Core) (t : Txn) (code : BitVec 8) : Core :=
  { c with
    a := t.ckpt.a, d := t.ckpt.d, k := t.ckpt.k, psw := { t.ckpt.psw with tx := false }, rm := t.ckpt.rm, subn := t.ckpt.subn
    fpsw := t.ckpt.fpsw, tcode := code, pc := t.abortPath, txn := none
    carried := if code = 1 ∨ code = 2 then some (t.stamp, t.tbegPc) else none }

/-- The transaction that TBEG opens at a UCC on a logical core, its registers already past the TBEG (09 R282, R290). -/
def opened (ucc l : Nat) (disp : BitVec 30) (c : Core) : Core :=
  let pc0 := c.pc - 3
  let kept := c.carried.filter (fun k => decide (k.2 = pc0))
  { c with
    psw := { c.psw with tx := true }, carried := kept
    txn := some {
      stamp := (kept.map (fun k => k.1)).getD (ucc, l), abortPath := pc0 + disp.signExtend 48, tbegPc := pc0
      ckpt := { a := c.a, d := c.d, k := c.k, psw := c.psw, rm := c.rm, subn := c.subn, fpsw := c.fpsw }
      readSet := [], writeSet := [], data := [], count := 0 } }

/-- Neither set of a core's transaction is held at the home any more (09 R285, R286). -/
def released (x : UnitState) (l : Nat) (t : Txn) : Prop :=
  ∀ line ∈ t.readSet ++ t.writeSet, (dirOf x line).tvec.getLsbD (corePos x l) = false

/-- The command aborts the core's transaction with a code, and no byte of memory changes. -/
def aborts (c : Instr) (s : State) (k : Core) (u : UnitId) (l : CoreId) (t : Txn) (code : BitVec 8) : Prop :=
  ∃ s', exec c s = .next s' ∧ getCore s' (.core u l) = aborted k t code ∧ released (getUnit s' u) l t ∧
    (∀ n, byteAt s' u n = byteAt s u n)

/-- An interrupt that a core takes: the pending source it takes loses its request, and the entry is at +768 (10 R303 to R306). -/
def interrupted (x : UnitState) (c : Core) : Option Core :=
  if timerPending x c then some (entered { c with tcmp := 0 } 0x10 0 c.pc c.pc c.tcmp 768)
  else (lowestPending c).map (fun v => entered { c with pend := withBit c.pend v false } 0x11 0 c.pc c.pc (BitVec.ofNat 64 v) 768)

end Sys2Proof.Claims
/-- 09 R282, R285, R290, R293: TBEG opens a transaction with its checkpoint and begin-stamp, once the earlier stores are performed; TEND
commits: the bytes of the write set are in memory, every other byte is as before, both sets are released; TABT aborts, and does nothing
outside a transaction. -/
def Obligations.TransactionsOpenCommitAndAbort : Prop :=
  (∀ s s1 u (l : CoreId) ucc disp s2, let i : Issue := ⟨.core u l, ucc⟩
    Ready s i { len := 3, t := false, sv := false, txBad := true } s1 → orderNow (inBody s1 i 3) i.proc = some s2 →
    retires (.tbeg i 0 disp) s i.proc (opened ucc l disp (getCore s2 i.proc)) s2) ∧
  (∀ s s1 u (l : CoreId) ucc txn, let i : Issue := ⟨.core u l, ucc⟩
    let c := moved 1 (getCore s1 i.proc)
    Ready s i { len := 1, t := false, sv := false } s1 → c.txn = some txn → c.sb = [] →
    ∃ t, exec (.tend i) s = .next t ∧
      (let k := getCore t i.proc
       k.txn = none ∧ k.carried = none ∧ k.psw = { c.psw with tx := false } ∧ k.pc = c.pc ∧ k.a = c.a ∧ k.d = c.d ∧ k.k = c.k) ∧
      (∀ n, byteAt t u n = if n / 64 ∈ txn.writeSet then tabGet (byteAt s u) txn.data.reverse n else byteAt s u n) ∧
      released (getUnit t u) l txn) ∧
  (∀ s s1 u (l : CoreId) ucc code txn, let i : Issue := ⟨.core u l, ucc⟩
    Ready s i { len := 2, t := false, sv := false, bad := decide (code.toNat < 0x80) } s1 → (getCore s1 i.proc).txn = some txn →
    aborts (.tabt i code) s (getCore s1 i.proc) u l txn code) ∧
  (∀ i code, EffectIf (.tabt i code) i { len := 2, t := false, sv := false, bad := decide (code.toNat < 0x80) }
    (fun c => c.txn = none) (fun c => c))

/-- 09 R286, R292: TRANSACTION_ABORT ends an open transaction with each code of the table: the checkpoint comes back, the write set is
discarded, TSTAT.CODE is written and the core is at its abort path. The codes that the table reserves have no effect, nor has a core
without a transaction (log 2). -/
def Obligations.AbortsRestoreTheCheckpoint : Prop :=
  (∀ s u (l : CoreId) code txn, unitRuns s u (getUnit s u).ucc = true → (unitCore (getUnit s u) l).txn = some txn →
    (1 ≤ code.toNat ∧ code.toNat ≤ 10 ∨ 128 ≤ code.toNat) →
    aborts (.transactionAbort u l code) s (unitCore (getUnit s u) l) u l txn code) ∧
  (∀ s u (l : CoreId) code, (unitCore (getUnit s u) l).txn = none ∨ code.toNat = 0 ∨ (10 < code.toNat ∧ code.toNat < 128) →
    exec (.transactionAbort u l code) s = .next s)

/-- 10 R297, R299, R301, R302: the supervisor call of a logical core enters at VBASE + 512 with EPC past the SVC and IMM12 in EADDR. -/
def Obligations.SupervisorCallEntry : Prop :=
  ∀ s s1 u (l : CoreId) ucc imm, let k := getCore s1 (.core u l)
    Ready s ⟨.core u l, ucc⟩ { len := 2, txBad := true } s1 → k.pc ≠ BitVec.ofNat 48 (k.vbase.toNat * 1024 + 512) →
    ∃ t, exec (.svc ⟨.core u l, ucc⟩ imm) s = .next t ∧
      getCore t (.core u l) = entered k 0x0C 1 k.pc (k.pc + 2) (imm.setWidth 64) 512 ∧
      (∀ n, byteAt t u n = byteAt s u n) ∧ (∀ m, m ≠ l.val → unitCore (getUnit t u) m = unitCore (getUnit s1 u) m)

/-- 07 R211, R225, R237, 10 R302: an unassigned encoding raises ILLEGAL, and a privileged instruction in problem state PRIVILEGED, at
VBASE + 256, with nothing of the instruction done; on a traverse engine either ends the program, and on the service processor it
stops the model (10, introduction). -/
def Obligations.IllegalAndPrivilegedInstructions : Prop :=
  (∀ s s1 u (l : CoreId) ucc why (len : Fin 4), let i : Issue := ⟨.core u l, ucc⟩
    Fetched s i (len.val + 1) s1 → plainCore s1 u l → raises (.unassignedInstruction i why len) s s1 u l 1 (len.val + 1) 0) ∧
  (∀ s s1 u (l : CoreId) ucc (d r t : Reg), let i : Issue := ⟨.core u l, ucc⟩
    Fetched s i 2 s1 → plainCore s1 u l →
    raises (.serviceIoRead i d r t) s s1 u l 1 2 0 ∧ raises (.serviceIoWrite i d r t) s s1 u l 1 2 0 ∧
    raises (.serviceStakeIssue i d r t) s s1 u l 1 2 0 ∧ raises (.serviceKeyTransfer i d r t) s s1 u l 1 2 0) ∧
  (∀ s s1 u (l : CoreId) ucc, let i : Issue := ⟨.core u l, ucc⟩
    Fetched s i 1 s1 → plainCore s1 u l → (getCore s1 i.proc).psw.s = false →
    raises (.ei i) s s1 u l 2 1 0 ∧ raises (.di i) s s1 u l 2 1 0 ∧ raises (.rte i) s s1 u l 2 1 0 ∧ raises (.wait i) s s1 u l 2 1 0) ∧
  (∀ s s1 u (l : CoreId) ucc (a t : Reg) (code : BitVec 12), let i : Issue := ⟨.core u l, ucc⟩
    Fetched s i 2 s1 → plainCore s1 u l → (getCore s1 i.proc).psw.s = false → (getCore s1 i.proc).pc.toNat % 8192 + 2 ≤ 8192 →
    raises (.lcode i a t) s s1 u l 2 2 0 ∧
    (0x37 ≤ code.toNat → code.toNat ≤ 0x3F → code.toNat ≠ 0x3E → raises (.mfc i a code) s s1 u l 2 2 0 ∧ raises (.mtc i code t) s s1 u l 2 2 0)) ∧
  (∀ s s1 u (e : EngineId) ucc why (len : Fin 4), let i : Issue := ⟨.engine u e, ucc⟩
    Fetched s i (len.val + 1) s1 → ∃ t, exec (.unassignedInstruction i why len) s = .next t ∧
      getCore t i.proc = { getCore s1 i.proc with progEnd := true } ∧ elsewhere i.proc t = elsewhere i.proc s) ∧
  (∀ s s1 ucc why (len : Fin 4), let i : Issue := ⟨.service, ucc⟩
    Fetched s i (len.val + 1) s1 → exec (.unassignedInstruction i why len) s = .fault .firmwareException)

/-- 07 R210, R228: the service group on the service processor in supervisor state: the spec gives its operands no resource that software
reaches, and the model stops there by name. -/
def Obligations.ServiceGroupStops : Prop :=
  ∀ s s1 ucc (d r t : Reg), let i : Issue := ⟨.service, ucc⟩
    Ready s i { len := 2, c := false, t := false, priv := true } s1 →
    exec (.serviceIoRead i d r t) s = .refused .serviceGroup ∧ exec (.serviceIoWrite i d r t) s = .refused .serviceGroup ∧
    exec (.serviceStakeIssue i d r t) s = .refused .serviceGroup ∧ exec (.serviceKeyTransfer i d r t) s = .refused .serviceGroup

/-- 10 R303 to R307, 09 R280: WAIT ends at once while an interrupt is pending, and else stops the core past it without retiring; WAIT_END,
INTERRUPT_ENTRY and TIMER_INTERRUPT take the timer first and then the lowest vector, where IE is 1 and TX 0; a WAIT ends with IE = 0
without an entry; a waiting LDRES goes on when its set has a pin free. On the service processor a free value decides (log 8). -/
def Obligations.WaitsAndInterrupts : Prop :=
  (∀ s s1 u (l : CoreId) ucc, let i : Issue := ⟨.core u l, ucc⟩
    let c := moved 1 (getCore s1 i.proc)
    Ready s i { len := 1, priv := true, txBad := true } s1 →
    ∃ t, exec (.wait i) s = .next t ∧ elsewhere i.proc t = elsewhere i.proc s ∧
      getCore t i.proc = if anyPending (getUnit s1 u) (getCore s1 i.proc) then counted i.proc 1 c else counted i.proc 0 { c with waiting := true }) ∧
  (∀ u e ucc, let i : Issue := ⟨.engine u e, ucc⟩
    Effect (.wait i) i { len := 1, priv := true, txBad := true } (fun c => c)) ∧
  (∀ s s1 ucc, let i : Issue := ⟨.service, ucc⟩
    Ready s i { len := 1, priv := true, txBad := true } s1 → ∃ t, exec (.wait i) s = .next t ∧
      (t.svcCore = moved 1 s1.svcCore ∨ t.svcCore = s1.svcCore)) ∧
  (∀ s u (l : CoreId), let c := unitCore (getUnit s u) l
    atBoundary s u l = true → anyPending (getUnit s u) c = true → c.waiting = true →
    (c.psw.ie = false → ∃ t, exec (.waitEnd u l) s = .next t ∧ unitCore (getUnit t u) l = { c with waiting := false }) ∧
    (intEnabled c = true → ∃ t, exec (.waitEnd u l) s = .next t ∧ some (unitCore (getUnit t u) l) = interrupted (getUnit s u) c)) ∧
  (∀ s u (l : CoreId), let c := unitCore (getUnit s u) l
    atBoundary s u l = true → anyPending (getUnit s u) c = true → intEnabled c = true →
    ∃ t, exec (.interruptEntry u l) s = .next t ∧ some (unitCore (getUnit t u) l) = interrupted (getUnit s u) c ∧
      (∀ n, byteAt t u n = byteAt s u n)) ∧
  (∀ s s1 u (l : CoreId) ucc, let c := unitCore (getUnit s1 u) l
    timeTo s u ucc = some s1 → atBoundary s1 u l = true → timerPending (getUnit s1 u) c = true → intEnabled c = true →
    ∃ t, exec (.timerInterrupt u l ucc) s = .next t ∧ unitCore (getUnit t u) l = entered { c with tcmp := 0 } 0x10 0 c.pc c.pc c.tcmp 768) ∧
  (∀ s u (l : CoreId) line, let x := getUnit s u
    (unitCore x l).pinWait = some line → pinsInSet x line.toNat (corePos x l, 0) < 8 →
    ∃ t, exec (.pinWaitEnd u l) s = .next t ∧ unitCore (getUnit t u) l = { unitCore x l with pinWait := none })


namespace Sys2Proof.Claims

open Sys2Proof.Machine Sys2Proof.Safety

/-- The chain generator runs: neither it nor the module is stopped (02 R30, 17 R495, 16 R456). -/
def ticking (s : State) : Prop := s.gen.stopped = false ∧ s.bench.checkstop = false ∧ s.sahya.lockStop = false

/-- The service die can stake at once: units execute, its line has room, nothing waits before it, and neither a freeze, late edges nor a
re-lock shifts the STAMP (03 R60, R67). -/
def stakeOpen (s : State) (b : StakeBody) : Prop :=
  s.bench.checkstop = false ∧ s.sahya.lockStop = false ∧ isOff s = false ∧ svcRoom s b = true ∧ s.sahya.heldIn = [] ∧
  s.hub.relevel = none ∧ s.hub.edgeLate = false ∧ s.gen.relock = 0

/-- Firmware runs on the service die (16 R457). -/
def firmwareUp (s : State) : Prop := s.sahya.running = true ∧ s.sahya.fwDown = false

/-- The service die has staked a record (03 R60, R67, R68): its STAMP lies 1,024 cycles after the active unit's UCC, its SEQ is the next,
every unit that is fed has it last in its queue, and the stake line holds it while a Backsight runs. -/
def svcStaked (s t : State) (b : StakeBody) : Prop :=
  let k : Stake := { source := 0, stamp := (foreState s).ucc + 1024, seq := s.sahya.seq, bkOnly := false, body := b }
  (∀ u, (getUnit t u).feed = if isFed s u then (getUnit s u).feed ++ [k] else (getUnit s u).feed) ∧
  t.sahya.seq = (s.sahya.seq + 1) % 2 ^ 32 ∧ t.sahya.line = if (backUnit s).isSome then s.sahya.line ++ [k] else s.sahya.line

/-- A record of a source with its header, as a row names it (03 R64). -/
def record (source : Fin 5) (h : StakeHdr) (bk : Bool) (b : StakeBody) : Stake :=
  { source := source, stamp := h.stamp, seq := h.seq, bkOnly := bk, body := b }

/-- A unit can take a record now: it executes, the record stands first in its queue in stake order, and its STAMP lies in the chain in
progress, not in the past (03 R61). -/
def takes (s : State) (u : UnitId) (k : Stake) : Prop :=
  isOff s = false ∧ (getUnit s u).dropped = false ∧ (getUnit s u).executing = true ∧ k ∈ (getUnit s u).feed ∧
  firstStake (getUnit s u).feed = some k ∧ (getUnit s u).ucc ≤ k.stamp ∧ unitOpen s u k.stamp = true

/-- The command takes a unit to a record's STAMP, and `p` holds of the unit then. -/
def applied (c : Instr) (s : State) (u : UnitId) (h : StakeHdr) (p : UnitState → Prop) : Prop :=
  ∃ t, exec c s = .next t ∧ (getUnit t u).ucc = h.stamp ∧ p (getUnit t u)

end Sys2Proof.Claims
/-- 02 R30, R39, R41 to R45, 03 R70: the boundaries of the chain generator: an accepted start begins at its CN, a tick counts CN and takes
up the period chosen a chain before, a follower waits for its pulse, a re-lock that finds none goes on by its own count, and three bad
pulses in a row are needed before lock is lost. -/
def Obligations.ChainGeneratorTicks : Prop :=
  (∀ s n, ticking s → s.gen.starting = some n → (syncMode s = 2 → s.gen.pulseSeen = true) →
    ∃ t, exec .chainTick s = .next t ∧ t.gen.run = true ∧ t.gen.cn = n ∧ t.gen.starting = none ∧
      bitOf t.u0.chn.status 0 = true ∧ bitOf t.u1.chn.status 0 = true) ∧
  (∀ s, ticking s → s.gen.starting = none → s.gen.run = true → s.gen.relock = 0 → s.hub.frozen = false → s.hub.resume = false →
    s.sahya.startMode = none →
    ∃ t, exec .chainTick s = .next t ∧ t.gen.cn = s.gen.cn + 1 ∧ t.gen.period = s.gen.nextPeriod ∧ t.u0 = s.u0 ∧ t.u1 = s.u1 ∧
      t.sahya.entDue = decide (s.sahya.pool ≤ 48)) ∧
  (∀ s n, ticking s → s.gen.starting = some n → syncMode s = 2 → s.gen.pulseSeen = false → exec .chainTick s = .next s) ∧
  (∀ s, ticking s → s.gen.run = true → s.gen.relock = 2 → s.hub.frozen = false → s.hub.resume = false → s.sahya.startMode = none →
    ∃ t, exec .relockTimeout s = .next t ∧ t.gen.cn = s.gen.cn + 1 ∧ t.gen.relock = 0 ∧ t.u0 = s.u0 ∧ t.u1 = s.u1) ∧
  (∀ s, syncMode s = 1 → s.gen.run = true → s.gen.stopped = false →
    exec .syncPulseOut s = .next { s with gen := { s.gen with pulseOut := true } }) ∧
  (∀ s, syncMode s = 2 → exec .syncPulseIn s = .next { s with gen := { s.gen with pulseSeen := true } }) ∧
  (∀ s ok, syncMode s = 2 → s.gen.run = true → bitOf (foreState s).chn.status 2 = true → (ok = true ∨ s.gen.badPulses < 2) →
    exec (.syncPulseCheck ok) s = .next { s with gen := { s.gen with badPulses := if ok then 0 else s.gen.badPulses + 1 } })

/-- 02 R31, R33: the Foresight's edge of its next boundary, in level, with no record, no held output and no map boundary due: UB grows by
the length of the chain that ends, UCC is UB, and CN counts. -/
def Obligations.UnitEdgeAdvancesTheBoundary : Prop :=
  ∀ s u, edgeDue s u = true → isFore s u = true → (backUnit s).isSome = true → (getUnit s u).feed = [] → (getUnit s u).trv.outHeld = [] →
    ((getUnit s u).cn + 1) % 32768 ≠ 0 → s.hub.relevel = none →
    ∃ t, exec (.unitEdge u) s = .next t ∧
      (getUnit t u).ub = (getUnit s u).ub + chainCycles s.bin (periodEff (getUnit s u)) ∧
      (getUnit t u).ucc = (getUnit t u).ub ∧ (getUnit t u).cn = (getUnit s u).cn + 1

/-- 02 R36, R37, 04 R94: an output to a port waits in its engine while back-pressure toward the die is in force, and else stands in the
chain in progress in the unit's side of the die's closure buffer; an output of a mailbox goes to the hub; back-pressure for
space ends when both sides have 64 KiB free, and not before. -/
def Obligations.OutputsAndBackPressure : Prop :=
  (∀ s s1 u ucc p bs, timeTo s u ucc = some s1 → pressed (getUnit s1 u) (portDie p) = true →
    ∃ t, exec (.outputEmit u ucc (.link p bs)) s = .next t ∧ (getUnit t u).trv.outHeld = (getUnit s u).trv.outHeld ++ [.link p bs]) ∧
  (∀ s s1 u ucc p bs, timeTo s u ucc = some s1 → pressed (getUnit s1 u) (portDie p) = false → (getUnit s1 u).dropped = false →
    s.bench.checkstop = false → (dieOf s (portDie p)).lanesDown = false → (dieOf s (portDie p)).stopped = false →
    (dieOf s (portDie p)).noCompareBefore ≤ (getUnit s1 u).cn →
    ∃ t, exec (.outputEmit u ucc (.link p bs)) s = .next t ∧ dieSide (dieOf t (portDie p)) u =
      addEntry (dieSide (dieOf s (portDie p)) u) (getUnit s1 u).cn { ucc := (getUnit s1 u).ucc, body := .link p bs }) ∧
  (∀ s s1 u ucc ch mid off w, timeTo s u ucc = some s1 → (getUnit s1 u).dropped = false → s.bench.checkstop = false →
    ∃ t, exec (.outputEmit u ucc (.mailbox ch mid off w)) s = .next t ∧
      hubSide t.hub u = addEntry (hubSide s.hub u) (getUnit s1 u).cn { ucc := ucc, body := .mailbox ch mid off w }) ∧
  (∀ s d, (dieOf s d).pressSpace = true → 65536 ≤ sideFree (dieOf s d) .u0 → 65536 ≤ sideFree (dieOf s d) .u1 →
    ∃ t, exec (.backpressureEnd d) s = .next t ∧ (dieOf t d).pressSpace = false) ∧
  (∀ s d, (dieOf s d).pressSpace = false ∨ sideFree (dieOf s d) .u0 < 65536 ∨ sideFree (dieOf s d) .u1 < 65536 →
    exec (.backpressureEnd d) s = .next s)

/-- 03 R60, R67, R70, R71, 02 R38: what the service die stakes 1,024 cycles ahead of the active unit's UCC: an RWS write, the time of day
at each change and each 1,024 chains, and an alarm once when its time has come. While no unit executes an RWS write pends in both units
at once (log 16), and a reserved bit in it stops the model (log 9). ENT_DATA gives the oldest word of the pool, and 0 with UNDERRUN from an
empty one. -/
def Obligations.StakesOfTheServiceDie : Prop :=
  (∀ s r w, rwsBad r w = false → stakeOpen s (.rws r w) → firmwareUp s → ∃ t, exec (.rwsRegisterWrite r w) s = .next t ∧ svcStaked s t (.rws r w)) ∧
  (∀ s w, rwsBad .chnCfg w = false → isOff s = true → ∃ t, exec (.rwsRegisterWrite .chnCfg w) s = .next t ∧
    ∀ u, (getUnit t u).chn.pend = some w ∧ bitOf (getUnit t u).chn.status 1 = true) ∧
  (∀ s r w, rwsBad r w = true → exec (.rwsRegisterWrite r w) s = .fault .reservedWrite) ∧
  (∀ s tod, stakeOpen s (.timer false tod) → firmwareUp s → ∃ t, exec (.timeOfDayChange tod) s = .next t ∧
    svcStaked s t (.timer false tod) ∧ t.sahya.tod = tod) ∧
  (∀ s tod, stakeOpen s (.timer false tod) → firmwareUp s → (s.gen.cn - (foreState s).lvl.start.toNat) % 1024 = 0 →
    ∃ t, exec (.todUpdate tod) s = .next t ∧ svcStaked s t (.timer false tod) ∧ t.sahya.tod = tod) ∧
  (∀ s tod, (s.gen.cn - (foreState s).lvl.start.toNat) % 1024 ≠ 0 → exec (.todUpdate tod) s = .next s) ∧
  (∀ s tod, exec (.todAlarmSet tod) s = .next { s with sahya := { s.sahya with alarm := some tod } }) ∧
  (∀ s tod a, s.sahya.alarm = some a → stakeOpen s (.timer true a) → firmwareUp s → a ≤ tod →
    ∃ t, exec (.todAlarm tod) s = .next t ∧ svcStaked s t (.timer true a) ∧ t.sahya.alarm = none) ∧
  (∀ s tod a, s.sahya.alarm = some a → tod < a → exec (.todAlarm tod) s = .next s) ∧
  (∀ s u (l : CoreId) d, (getUnit s u).executing = true → (getUnit s u).dropped = false → coreRuns (unitCore (getUnit s u) l) = true →
    ∃ t, exec (.entDataRead u l d) s = .next t ∧
      unitCore (getUnit t u) l = wrD (unitCore (getUnit s u) l) d ((getUnit s u).lvl.pool.headD 0) ∧
      (getUnit t u).lvl.pool = (getUnit s u).lvl.pool.tail ∧
      (getUnit t u).lvl.underrun = ((getUnit s u).lvl.underrun || (getUnit s u).lvl.pool.isEmpty))

/-- 03 R61, R65, R70, R71, R74, 02 R36 to R38, R43, R45, 10 R311, R316, 16 R463: the records of input, entropy, host, timer, echo and pressure,
and those of CTL on the chain and the cores, each taken by a unit at its STAMP. -/
def Obligations.StakeRecordsApplied : Prop :=
  (∀ s u d h p f v, takes s u (record (dieSource d) h false (.input p (.frame f))) → f.fcsOk = false →
    applied (.inputStake u d h p (.frame f) v) s u h (fun y =>
      (uPort y p).frames = (uPort (getUnit s u) p).frames + 1 ∧ (uPort y p).fcs = (uPort (getUnit s u) p).fcs + 1)) ∧
  (∀ s u h w0 w1 w2 w3, takes s u (record 0 h false (.entropy [w0, w1, w2, w3])) →
    applied (.entropyStake u h w0 w1 w2 w3) s u h (fun y => y.lvl.pool = ((getUnit s u).lvl.pool ++ [w0, w1, w2, w3]).take 64)) ∧
  (∀ s u h ch sd ws, takes s u (record 0 h false (.host ch sd false ws)) → midParcel (bindMid (unitBind (getUnit s u) ch) sd) = none →
    applied (.hostStake u h ch sd false ws) s u h (fun y =>
      let v := tabGet (fun _ => ({} : MbxView)) y.views (viewKey ch sd)
      v.words = ws ∧ bitOf v.status 0 = true ∧ bitsOf v.status 2 5 = ws.length % 32)) ∧
  (∀ s u h tod, takes s u (record 0 h false (.timer false tod)) →
    applied (.timerStake u h false tod) s u h (fun y => y.lvl.tod = tod ∧ y.lvl.todUcc = BitVec.ofNat 64 h.stamp)) ∧
  (∀ s u h (l : CoreId) kind index, backUnit s = some u → takes s u (record 0 h true (.echo l kind index)) →
    applied (.echoStake u h l kind index) s u h (fun y => unitCore y l = { unitCore (getUnit s u) l with
      resumeAt := h.stamp + 128, retryCnt := (unitCore (getUnit s u) l).retryCnt + 1, retrying := some (kind, (unitCore (getUnit s u) l).pc)
      tlb := if kind = 5 then (unitCore (getUnit s u) l).tlb.eraseIdx index.toNat else (unitCore (getUnit s u) l).tlb })) ∧
  (∀ s u (d : DieId) h space, takes s u (record (dieSource d) h false (.pressure true space)) →
    applied (.pressureStake u d h true space) s u h (fun y =>
      bitOf y.chn.status (8 + d.val) = true ∧ (if space then y.chn.pressSpace else y.chn.pressBudget).getLsbD d = true)) ∧
  (∀ s u h w, takes s u (record 0 h false (.rws .chnCfg w)) →
    applied (.ctlRwsWrite u h .chnCfg w) s u h (fun y => y.chn.pend = some w ∧ bitOf y.chn.status 1 = true)) ∧
  (∀ s u h v, takes s u (record 0 h false (.cfg (.diverge v))) →
    applied (.ctlCfg u h (.diverge v)) s u h (fun y => y.lvl.cfg = withBits (getUnit s u).lvl.cfg 8 2 v.toNat)) ∧
  (∀ s u h (l : CoreId) p, takes s u (record 0 h false (.spare l p)) →
    applied (.ctlSpare u h l p) s u h (fun y =>
      (unitCore y l).sparing = true ∧ y.exe.spareRun = some { core := l, target := p, start := h.stamp })) ∧
  (∀ s u h (l : CoreId), takes s u (record 0 h false (.deconfig l)) → (unitCore (getUnit s u) l).deconf = false →
    applied (.ctlDeconfig u h l) s u h (fun y => (unitCore y l).offline = true ∧ (unitCore y l).deconf = true)) ∧
  (∀ s u h cause, takes s u (record 0 h false (.drop u.other cause)) → (getUnit s u.other).dropped = true →
    applied (.ctlDrop u h u.other cause) s u h (fun y => lvlState y = 2 ∧ lvlRole y = 2 + u.toNat)) ∧
  (∀ s u h level, takes s u (record 0 h false (.throttle level)) →
    applied (.ctlThrottle u h level) s u h (fun y => y.exe.throttle = level)) ∧
  (∀ s u h img, takes s u (record 0 h false (.mcode img)) →
    applied (.ctlMcode u h img) s u h (fun y => y.exe.ucode.patchId = img.patchId ∧ y.exe.ucode.stallEnd = some (h.stamp + 4096))) ∧
  (∀ s u h base len, takes s u (record 0 h false (.scrub base len)) →
    applied (.ctlScrub u h base len) s u h (fun y => y.mem.scrub = some { base := base, len := len, start := h.stamp })) ∧
  (∀ s u h cn, takes s u (record 0 h false (.bench cn)) →
    applied (.ctlBench u h cn) s u h (fun y => y.lvl.bench = BitVec.ofNat 64 cn)) ∧
  (∀ s u h cores, takes s u (record 0 h false (.debug true cores)) →
    applied (.ctlDebug u h true cores) s u h (fun y =>
      ∀ l : CoreId, (unitCore y l).debugHalt = ((unitCore (getUnit s u) l).debugHalt && !cores.getLsbD l))) ∧
  (∀ s u h lock, takes s u (record 0 h false (.sync lock)) →
    applied (.ctlSync u h lock) s u h (fun y => bitOf y.chn.status 2 = lock ∧ (lock = false → bitOf y.chn.status 3 = true)))

/-- 03 R62, R63, R66, 10 R308, 17 R494, 18 R518: a record that stands behind another in stake order waits; a die power request is made of
the domain sequencer; BLOCK_RESET stops the block; MC_STAKED enters a named core at VBASE + 0; CTL CODE writes its page into memory; the
deadline of a record that is good changes nothing, and a missing or unreadable one drops the Backsight with STAKE_LOST or STAKE_POISON. -/
def Obligations.StakeRecordsOrderAndReset : Prop :=
  (∀ s u h level k, record 0 h false (.throttle level) ∈ (getUnit s u).feed → firstStake (getUnit s u).feed = some k →
    k ≠ record 0 h false (.throttle level) → exec (.ctlThrottle u h level) s = .next s) ∧
  (∀ s u h (k : Fin 24) on, takes s u (record 0 h false (.power k on)) → u ≠ foreUnit s →
    (on = true ∨ powerRefused (getUnit s u) k = ccOk) →
    ∃ s1, exec (.ctlPower u h k on) s = .next (domRequest s1 u k on true h.stamp) ∧ (getUnit s1 u).ucc = h.stamp) ∧
  (∀ s u h (k : Fin 16), takes s u (record 0 h false (.blockReset 0 k)) →
    applied (.blockReset u h 0 k) s u h (fun y => ∀ n, n / 65536 = k.val → tabGet (fun _ => ({} : Station)) y.trv.stations n = {})) ∧
  (∀ s u h (l : CoreId) src, takes s u (record 0 h false (.mchk (BitVec.ofNat 48 (2 ^ l.val)) src)) →
    let c := unitCore (getUnit s u) l
    c.offline = false → c.vectorStop = false → c.ecause.mcip = false → c.txn = none →
    applied (.ctlMchk u h (BitVec.ofNat 48 (2 ^ l.val)) src) s u h (fun y =>
      (unitCore y l).pc = BitVec.ofNat 48 (c.vbase.toNat * 1024) ∧ (unitCore y l).ecause.code = 0x20 ∧ (unitCore y l).ecause.mcip = true ∧
      (unitCore y l).epc = c.pc ∧ (unitCore y l).eaddr = src.setWidth 64)) ∧
  (∀ s u h (frame : BitVec 52) ws, takes s u (record 0 h false (.code frame ws)) → ws.length = 2048 → frame.toNat % 64 = 0 →
    applied (.ctlCode u h frame ws) s u h (fun y => ∀ n, tabGet byteDef y.mem.data n =
      if frame.toNat ≤ n ∧ n < frame.toNat + 16384 then (wordsBytes ws).getD (n - frame.toNat) 0
      else tabGet byteDef (getUnit s u).mem.data n)) ∧
  (∀ s u source seq, backUnit s = some u → (getUnit s u).feed.any (fun m => decide (m.source = source) && m.seq == seq) = true →
    exec (.stakeDeadline source seq .good) s = .next s ∧
    exec (.stakeDeadline source seq .missing) s = .next (dropUnit s u 6) ∧
    (∃ s1, exec (.stakeDeadline source seq .poison) s = .next (dropUnit s1 u 5)) ∧
    (source = 0 → ∃ t, exec (.stakeDeadline source seq .corrected) s = .next t ∧ t.sahya.lineCe = s.sahya.lineCe + 1))


namespace Sys2Proof.Claims

open Sys2Proof.Machine Sys2Proof.Safety

/-- The die compares chain `n` with both comparators, and no referee runs there (04 R99). -/
def compares (s : State) (d : DieId) (n : Nat) : Prop :=
  (dieOf s d).stopped = false ∧ (dieOf s d).lanesDown = false ∧ (dieOf s d).retA = false ∧ (dieOf s d).retB = false ∧
  nextCompare s d = n ∧ chainEnded s n = true ∧ (dieOf s d).referee = none

/-- The streams of a chain that the two units sent to a die are equal, byte for byte (04 R95). -/
def sameStreams (s : State) (d : DieId) (n : Nat) : Prop :=
  streamBytes (chainEntries (dieOf s d).side0 n) = streamBytes (chainEntries (dieOf s d).side1 n)

/-- The die has looked at chain `n`: the next chain follows, a test slot opens, and a rotating vector may be due (04 R99, R105). -/
def looked (s : State) (d : DieId) (n : Nat) : State :=
  modDie s d (fun x => { x with compared := some n, slotOpen := true, rotDue := x.rotDue || rotAt s n })

end Sys2Proof.Claims
/-- 03 R80 to R83, R90 to R92, 10 R311 to R318, R325: a retry restores its core, counts, and is reported while a Backsight runs; the same
kind at the same instruction again is MC_RETRY; the Backsight's own retry drops it unless an echo is due; an echo in time is staked for the
Backsight alone at the retry's UCC, a late one drops it; a sparing sequence ends 208,000 cycles after its STAMP with the core at its new
position; a patch stall ends; a debug request while no unit executes halts the named cores in both units. -/
def Obligations.RetriesEchoesAndSparing : Prop :=
  (∀ s s1 u (l : CoreId) ucc kind index, let c := unitCore (getUnit s u) l
    timeTo s u ucc = some s1 → backUnit s ≠ some u → kind ≠ 0 → kind.toNat ≤ 6 → unitOpen s u ucc = true → coreRuns c = true →
    c.resumeAt ≤ ucc → (getUnit s u).ucc ≤ ucc →
    (c.retrying ≠ some (kind, c.pc) → ∃ s2, exec (.instructionRetry u l ucc kind index) s = .next (raiseUnitFree s2 u l) ∧
      (unitCore (getUnit s2 u) l).resumeAt = ucc + 128 ∧ (unitCore (getUnit s2 u) l).retryCnt = c.retryCnt + 1 ∧
      (unitCore (getUnit s2 u) l).retrying = some (kind, c.pc) ∧
      s2.hub.reports = if (backUnit s).isSome then s.hub.reports ++ [(l.val, ucc, kind, index)] else s.hub.reports) ∧
    (c.retrying = some (kind, c.pc) → exec (.instructionRetry u l ucc kind index) s =
      .next (takeCause s1 u l 0x24 0 c.pc c.pc (kind.setWidth 64)))) ∧
  (∀ s u (l : CoreId) ucc kind index, backUnit s = some u → kind ≠ 0 → kind.toNat ≤ 6 → unitOpen s u ucc = true →
    coreRuns (unitCore (getUnit s u) l) = true → (unitCore (getUnit s u) l).resumeAt ≤ ucc → (getUnit s u).ucc ≤ ucc →
    exec (.instructionRetry u l ucc kind index) s =
      .next (if echoDue (getUnit s u) l ucc then raiseUnitFree s u l else dropUnit (raiseUnitFree s u l) u 7)) ∧
  (∀ s b (l : CoreId) ucc kind index, backUnit s = some b → isFed s b = true → (l.val, ucc, kind, index) ∈ s.hub.reports →
    (getUnit s b).ucc + 256 ≤ ucc → echoCount (getUnit s b) < 64 →
    ∃ t, exec (.echoIssue l ucc kind index true) s = .next t ∧ t.hub.reports = s.hub.reports.erase (l.val, ucc, kind, index) ∧
      (getUnit t b).feed = (getUnit s b).feed ++ [{ source := 0, stamp := ucc, seq := s.sahya.seq, bkOnly := true, body := .echo l kind index }] ∧
      (getUnit t b.other).feed = (getUnit s b.other).feed) ∧
  (∀ s b (l : CoreId) ucc kind index, backUnit s = some b → (l.val, ucc, kind, index) ∈ s.hub.reports →
    exec (.echoIssue l ucc kind index false) s =
      .next (dropUnit { s with hub := { s.hub with reports := s.hub.reports.erase (l.val, ucc, kind, index) } } b 7)) ∧
  (∀ s s1 u r, (getUnit s u).exe.spareRun = some r → timeTo s u (r.start + 208000) = some s1 → s.sahya.failing = [] → s.hub.debugWait = none →
    ∃ t, exec (.spareComplete u) s = .next t ∧ corePos (getUnit t u) r.core = r.target ∧ (unitCore (getUnit t u) r.core).sparing = false ∧
      (getUnit t u).exe.spareRun = none ∧ (r.target < 56 → (getUnit t u).exe.spares.getLsbD r.target = false)) ∧
  (∀ s s1 u e, (getUnit s u).exe.ucode.stallEnd = some e → timeTo s u e = some s1 →
    ∃ t, exec (.mpatchResume u) s = .next t ∧ (getUnit t u).exe.ucode = { (getUnit s u).exe.ucode with stallEnd := none }) ∧
  (∀ s cores, isOff s = true → ∃ t, exec (.jtagDebugRequest cores) s = .next t ∧
    ∀ u (l : CoreId), (unitCore (getUnit t u) l).debugHalt = ((unitCore (getUnit s u) l).debugHalt || cores.getLsbD l)) ∧
  (∀ s cores, isOff s = false → relevelPhase s = 5 →
    exec (.jtagDebugRequest cores) s = .next { s with hub := { s.hub with debugWait := some cores } })

/-- 04 R95 to R109: equal streams on which both comparators agree are released; unequal ones leave a decision to the hub; comparators that
disagree, or one that gives no verdict, go to the referee; the hub keeps the pair of records it compared; the decision falls on the unit
that alone had an error indication; a chain whose record is late drops that unit with BENCH_LATE; a test slot that nothing waits for
closes. -/
def Obligations.ClosureComparesAndDecides : Prop :=
  (∀ s d n, compares s d n → sameStreams s d n → decisionHolds s n = false →
    exec (.compareEnd (.die d) none none) s = .next (dieMatch (looked s d n) d n)) ∧
  (∀ s d n, compares s d n → ¬ sameStreams s d n → s.hub.decision = none →
    ∃ t, exec (.compareEnd (.die d) none none) s = .next t ∧ t.hub.decision = some { cn := n }) ∧
  (∀ s d n, compares s d n → sameStreams s d n →
    ∃ t, exec (.compareEnd (.die d) (some .mismatch) none) s = .next t ∧
      (dieOf t d).referee = some { cn := n, va := .mismatch, vb := .isMatch, truth := .isMatch }) ∧
  (∀ s d n, compares s d n → sameStreams s d n →
    ∃ t, exec (.verdictTimeout d) s = .next t ∧
      (dieOf t d).referee = some { cn := n, va := .missing, vb := .isMatch, truth := .isMatch }) ∧
  (∀ s n a b r0 r1, s.hub.recs0 = (n, a) :: r0 → s.hub.recs1 = (n, b) :: r1 → chainEnded s n = true → recsEqual a b = false →
    s.hub.decision = none → ∃ t, exec (.compareEnd .bench none none) s = .next t ∧ t.hub.decision = some { cn := n } ∧
      t.hub.pairs = ((n, a, b) :: s.hub.pairs).take 16 ∧ t.hub.recs0 = r0 ∧ t.hub.recs1 = r1) ∧
  (∀ s d h, (dieOf s d).referee = some h → h.va = h.truth → h.vb = h.truth → backUnit s = none →
    exec (.refereeEnd d) s = .next (modDie s d (fun x => { x with referee := none }))) ∧
  (∀ s p, (dieOf s (portDie p)).waitOut = [] → (dieOf s (portDie p)).pressSpace = false → exec (.queueRoomRelease p) s = .next s) ∧
  (∀ s q bs ucc, let d := portDie q
    (dieOf s d).waitOut = [{ ucc := ucc, body := .link q bs }] → txRoom (portOf s q) bs.length = true → (dieOf s d).pressSpace = false →
    exec (.queueRoomRelease q) s = .next (portSend (modDie s d (fun x => { x with waitOut := [] })) q bs)) ∧
  (∀ s d ns a b, (dieOf s d).stopped = false → (dieOf s d).slotOpen = true → 250 ≤ ns → (dieOf s d).inj = none → (dieOf s d).rotDue = false →
    exec (.injectionTestSlot d ns a b) s = .next (modDie s d (fun x => { x with slotOpen := false }))) ∧
  (∀ s d ns a b, (dieOf s d).slotOpen = false → exec (.injectionTestSlot d ns a b) s = .next s) ∧
  (∀ s b n, s.hub.decision = some { cn := n } → backUnit s = some b → relevelPhase s ≠ 6 →
    let s0 : State := { s with hub := { s.hub with decision := none } }
    (indicated s (foreUnit s) n = true → indicated s b n = false → exec .divergenceDecision s = .next (dropUnit s0 (foreUnit s) 1)) ∧
    (indicated s (foreUnit s) n = false → indicated s b n = true → exec .divergenceDecision s = .next (dropUnit s0 b 1))) ∧
  (∀ s, (backUnit s).isSome = true → s.bench.checkstop = false →
    exec (.benchLate false false) s = .next s ∧
    exec (.benchLate true false) s = .next (dropUnit (raiseUnitFree s .u0 0x202) .u0 4) ∧
    exec (.benchLate false true) s = .next (dropUnit (raiseUnitFree s .u1 0x202) .u1 4) ∧
    exec (.benchLate true true) s = .next (lastUnit (raiseUnitFree (raiseUnitFree s .u0 0x202) .u1 0x202)))

/-- 04 R119 to R123, R129: the phases of a re-level: an automatic one starts for the unit that was dropped; a prepared unit leads to the
union, the union to the first copy pass, a pass within four times the residue to write-through, one within the residue to the freeze
of a boundary; the steps of the freeze follow one another; a sweep of a dirty map ends. -/
def Obligations.RelevelPhasesFollow : Prop :=
  (∀ s, s.sahya.auto = true → sahyaUp s = true → isOff s = false → lvlState (foreState s) = 2 → bitsOf (foreState s).clo.cfg 1 2 = 2 →
    bitsOf (foreState s).clo.drop 0 8 ≠ 8 →
    let s0 : State := { s with sahya := { s.sahya with auto := false } }
    relevelCode s0 (foreUnit s).other 2 = ccOk →
    ∃ r, exec .autoRelevel s = .next (relevelStart s0 r) ∧ r.join = (foreUnit s).other ∧ r.phase = 1 ∧ r.auto = true) ∧
  (∀ s, s.sahya.auto = false → exec .autoRelevel s = .next s) ∧
  (∀ s r, s.hub.relevel = some r → r.phase = 1 → ∃ t, exec (.prepareEnd true) s = .next t ∧ t.hub.relevel = some { r with phase := 2 }) ∧
  (∀ s r, s.hub.relevel = some r → r.phase = 1 → exec (.prepareEnd false) s = .next (relevelAbort s 0x20)) ∧
  (∀ s r, s.hub.relevel = some r → r.phase = 2 → ∃ t, exec .unionEnd s = .next t ∧ t.hub.relevel = some { r with phase := 3 }) ∧
  (∀ s r, s.hub.relevel = some r → r.phase = 3 → r.freezeAt = none → r.passes + 1 < r.maxpass →
    let r1 : Relevel := { r with passes := r.passes + 1 }
    ((copyRes s r1).1 ≤ 4 * r.maxres → ∃ t, exec .copyPassEnd s = .next t ∧ t.hub.relevel = some { r1 with phase := 4 }) ∧
    (4 * r.maxres < (copyRes s r1).1 → ∃ t, exec .copyPassEnd s = .next t ∧ t.hub.relevel = some r1)) ∧
  (∀ s r, s.hub.relevel = some r → r.phase = 4 → r.freezeAt = none →
    let r1 : Relevel := { r with passes := r.passes + 1 }
    (copyRes s r1).1 ≤ r.maxres → (copyRes s r1).2 ≤ 512 → ∃ t e, exec .copyPassEnd s = .next t ∧
      t.hub.relevel = some { r1 with freezeAt := some e } ∧ e = boundaryStamp { s with hub := { s.hub with relevel := some r1 } }) ∧
  (∀ s r, s.hub.frozen = true → s.hub.resume = false → s.hub.relevel = some r → r.phase = 5 → r.step < 7 →
    exec .freezeStepEnd s = .next { s with hub := { s.hub with relevel := some { r with step := r.step + 1 } } }) ∧
  (∀ s, s.hub.frozen = true → s.hub.resume = true → exec .freezeStepEnd s = .next { s with hub := { s.hub with frozen := false } }) ∧
  (∀ s u, ∃ t, exec (.mapSweepEnd u true) s = .next t ∧ (getUnit t u).mem.mapB = { (getUnit s u).mem.mapB with sweeping := false } ∧
    (getUnit t u).mem.fbMapB = { (getUnit s u).mem.fbMapB with sweeping := false } ∧ (getUnit t u).mem.mapA = (getUnit s u).mem.mapA) ∧
  (∀ s u, ∃ t, exec (.mapSweepEnd u false) s = .next t ∧ (getUnit t u).mem.mapA = { (getUnit s u).mem.mapA with sweeping := false } ∧
    (getUnit t u).mem.fbMapA = { (getUnit s u).mem.fbMapA with sweeping := false } ∧ (getUnit t u).mem.mapB = (getUnit s u).mem.mapB)


namespace Sys2Proof.Claims

open Sys2Proof.Machine Sys2Proof.Safety

/-- A station at the start of a command that its DB_CMD takes: BUSY, with room kept for the completion (05 R135, R552). -/
def begun (s : State) (u : UnitId) (n : Nat) : State :=
  modS s u n (fun t => { t with busy := true, waitCmd := none, reserved := if t.cqKnown then t.reserved + 1 else t.reserved })

/-- The station takes a command now: it is not BUSY, and CQ 0 has room where it is known (05 R135, R552). -/
def takesCmd (s : State) (u : UnitId) (n : Nat) : Prop :=
  (stnS s u n).busy = false ∧ ((stnS s u n).cqKnown = true → cqRoom (stnS s u n) 0 1 = true)

/-- The station's TX entry at TXC can be taken: it is OPEN with work in its ring and a transport that carries it, the entry is read from
memory, bears the operation, and CQ 0 has room for its completions (05 R144, R145, R552). -/
def takesEntry (s : State) (u : UnitId) (n op : Nat) (s1 : State) (e : TxEntry) : Prop :=
  let t := stnS s u n
  t.st = .opened ∧ t.txProd ≠ t.txc ∧ ringLog (dW t 1) ≠ 0 ∧ (stnTransport t = 2 ∨ t.conn.estab = true) ∧
  (∃ s0 bs, eRead s u n (ringBase (dW t 1) + t.txc.toNat % 2 ^ ringLog (dW t 1) * 64) 64 = some (s0, some bs) ∧ e = txEntry (bytesWords 8 bs) ∧
    s1 = modS s0 u n (fun t => { t with txc := t.txc + 1, reserved := t.reserved + txNeeds e })) ∧
  e.op = op ∧ e.bad = false ∧ cqRoom t 0 (txNeeds e) = true

end Sys2Proof.Claims
/-- 05 R133 to R135, R165, R552, 06 R187: the station commands: OPEN of a granted station whose descriptor passes its checks, and its
refusal without a grant; QUIESCE and its completion; CLOSE; REPLAY of a station with nothing left to deliver; a command that waited for
room; a command to a BUSY station is ignored. -/
def Obligations.StationCommands : Prop :=
  (∀ s u (n : StationId) (desc : BitVec 52) p x bs s2, let b := begun s u n
    let t0 : Station := { stnS (setUnit b u x) u n with desc := (bytesWords 16 bs).take 13, peer := [], descAddr := desc.toNat / 128 * 128 }
    takesCmd s u n → (stnS s u n).st = .closed → tabGet (fun _ => (none : Grant)) (getUnit b u).trv.grants n = some p →
    dmaRead (getUnit b u) (stnAgent n) p.toNat (desc.toNat / 128 * 128) 128 = (x, bs, .ok) → stnParcel t0 = p.toNat →
    descOk t0 = true → descBookOk x t0 = true → openPeer (modS (setUnit b u x) u n (fun _ => t0)) u n = some (s2, true) →
    stnJournal (stnS s2 u n) = false →
    ∃ s3, exec (.stationOpen u n false desc) s = .next ((cmdDone (openConn s3 u n false) u n 0).getD s) ∧ (stnS s3 u n).st = .opened) ∧
  (∀ s u (n : StationId) resume desc, takesCmd s u n → (stnS s u n).cqKnown = false → (stnS s u n).st = .closed →
    tabGet (fun _ => (none : Grant)) (getUnit s u).trv.grants n = none →
    ∃ t, exec (.stationOpen u n resume desc) s = .next t ∧
      stnS t u n = { stnS s u n with waitCmd := none, busy := false, st := .closed, cqKnown := false, code := 2 }) ∧
  (∀ s u (n : StationId), takesCmd s u n → (stnS s u n).st = .opened →
    exec (.stationQuiesce u n) s = .next (modS (begun s u n) u n (fun t => { t with st := .quiescing }))) ∧
  (∀ s u (n : StationId) t, (stnS s u n).st = .quiescing → stnInFlight (getUnit s u) n = false →
    cmdDone (modS s u n (fun t => { t with st := .quiesced })) u n 0 = some t → exec (.quiesceComplete u n) s = .next t) ∧
  (∀ s u (n : StationId), takesCmd s u n → (stnS s u n).st = .quiesced → stationSlots (getUnit s u) n = 0 →
    outOpen (getUnit s u) n (stnS s u n) = false → (stnS s u n).txProd = (stnS s u n).txc →
    ((stnS s u n).conn.st = .established → ∃ s1, exec (.stationClose u n) s = .next (resetLadder s1 u n) ∧ (stnS s1 u n).conn.st = .closing) ∧
    ((stnS s u n).conn.st ≠ .established → exec (.stationClose u n) s = .next ((finishClose (begun s u n) u n).getD s))) ∧
  (∀ s u (n : StationId) t, takesCmd s u n → (stnS s u n).st = .replaying → (stnS s u n).replay.isSome = true → stnJournal (stnS s u n) = false →
    (ackNow (modS (begun s u n) u n (fun t => { t with st := .opened, replay := none })) u n true).bind (fun s => cmdDone s u n 0) = some t →
    exec (.stationReplay u n) s = .next t) ∧
  (∀ s u (n : StationId), (stnS s u n).waitCmd = some 2 → cqRoom (stnS s u n) 0 1 = true → (stnS s u n).st = .opened →
    exec (.deferredCommand u n) s = .next (modS (begun s u n) u n (fun t => { t with st := .quiescing }))) ∧
  (∀ s u (n : StationId) resume desc, (stnS s u n).busy = true →
    exec (.stationOpen u n resume desc) s = .next s ∧ exec (.stationQuiesce u n) s = .next s ∧ exec (.stationClose u n) s = .next s ∧
    exec (.stationReplay u n) s = .next s)

/-- 05 R134, R144, R145: the doorbells set their one count; a TX entry is taken once, in its order, and does what its OP says. -/
def Obligations.DoorbellsAndEntries : Prop :=
  (∀ s u (n : StationId) prod, ∃ t, exec (.txDoorbell u n prod) s = .next t ∧ stnS t u n = { stnS s u n with txProd := prod } ∧
    ∀ m, m ≠ n.val → stnS t u m = stnS s u m) ∧
  (∀ s u (n : StationId) (q : Fin 4) prod, ∃ t, exec (.rxPostDoorbell u n q prod) s = .next t ∧
    stnS t u n = { stnS s u n with rxProd := (stnS s u n).rxProd.set q prod } ∧ ∀ m, m ≠ n.val → stnS t u m = stnS s u m) ∧
  (∀ s u (n : StationId) (q : Fin 4) cons, ∃ t, exec (.cqConsume u n q cons) s = .next t ∧
    stnS t u n = { stnS s u n with cqCons := (stnS s u n).cqCons.set q cons } ∧ ∀ m, m ≠ n.val → stnS t u m = stnS s u m) ∧
  (∀ s u (n : StationId) s1 e t, takesEntry s u n 0 s1 e → doSend s1 u n e = some t → exec (.send u n) s = .next t) ∧
  (∀ s u (n : StationId) s1 e t, takesEntry s u n 1 s1 e → doSendSettle s1 u n e = some t → exec (.sendSettle u n) s = .next t) ∧
  (∀ s u (n : StationId) s1 e v, takesEntry s u n 2 s1 e → settleSlot (getUnit s1 u) n e.slot = some v →
    ∃ t, exec (.settle u n) s = .next t ∧ (stnS t u n).txc = (stnS s1 u n).txc ∧ (stnS t u n).reserved = (stnS s1 u n).reserved - 1)

/-- 13 R400, R401, 05 R156 to R160: the oldest fieldbook write becomes durable at its due UCC, every other byte of the fieldbook as
before; a corrected read is counted, an uncorrectable one is FB_UE; a mirror message is taken by the book it is for and discarded without
one; a confirmation ends what it confirms; a mirror unconfirmed for 4,096 chains is lost. -/
def Obligations.FieldbookAndMirror : Prop :=
  (∀ s s1 u w r (fails : Fin 5), (getUnit s u).fb.flight = w :: r → (getUnit s u).fb.waiting = [] → w.cont = .nothing → fails.val < 2 →
    timeTo s u w.due = some s1 →
    ∃ t, exec (.fbWriteComplete u fails) s = .next t ∧ (getUnit t u).fb.flight = r ∧
      (∀ n, tabGet byteDef (getUnit t u).fb.mem n = if w.off ≤ n ∧ n < w.off + w.bytes.length then w.bytes.getD (n - w.off) 0
        else tabGet byteDef (getUnit s u).fb.mem n) ∧
      (getUnit t u).fb.wretry = satUp (getUnit s u).fb.wretry (decide (1 ≤ fails.val))) ∧
  (∀ s u off, (fbUnreadable (getUnit s u) off.toNat 64 = false → exec (.fbReadReturn u off .clean) s = .next s ∧
      ∃ s1, exec (.fbReadReturn u off .ce) s = .next (raiseUnitFree s1 u 0x210) ∧ (getUnit s1 u).fb.ce = satUp (getUnit s u).fb.ce true) ∧
    (∃ s1, exec (.fbReadReturn u off .ue) s = .next (raiseUnitFree s1 u 0x208) ∧ (getUnit s1 u).fb.ue = satUp (getUnit s u).fb.ue true)) ∧
  (∀ s s1 u (n : StationId) m, (stnS s u n).st = .opened → stnMsink (stnS s u n) = true → hwTake s u n = some s1 →
    (mirrorBook (getUnit s1 u) m = none → exec (.mirrorMessageReceive u n m) s = .next (discOther s1 u n)) ∧
    (∀ b t, mirrorBook (getUnit s1 u) m = some b → mirrorTake s1 u n b m = some t → exec (.mirrorMessageReceive u n m) s = .next t)) ∧
  (∀ s s1 u book confBsn confMseq, bookMirrored (getUnit s u) book.toNat = true → (stnS s u (bookMstn (getUnit s u) book.toNat)).st = .opened →
    hwTake s u (bookMstn (getUnit s u) book.toNat) = some s1 →
    ∃ s2, exec (.confirmationReceive u book confBsn confMseq) s =
        .next ((confirmStns u book.toNat (liveStns (getUnit s2 u)) s2).getD s) ∧
      (mirrorOf (getUnit s2 u) book.toNat).unconf = (mirrorOf (getUnit s1 u) book.toNat).unconf.filter (fun p => decide (confMseq < p.1))) ∧
  (∀ s u book, bookMirrored (getUnit s u) book.toNat = true →
    (mirrorOf (getUnit s u) book.toNat).unconf.any (fun p => decide (p.2 + 4096 ≤ (getUnit s u).cn)) = true →
    bookLost (getUnit s u) book.toNat = false → liveStns (getUnit s u) = [] →
    ∃ t, exec (.mirrorLostTimeout u book) s = .next t ∧ bookLost (getUnit t u) book.toNat = true)


namespace Sys2Proof.Claims

open Sys2Proof.Machine Sys2Proof.Safety

/-- A Traverse die can stake an input at once (03 R60, R67, 06 R179): as `stakeOpen` for the service die. -/
def dieOpen (s : State) (p : PortId) (b : InputBody) : Prop :=
  isOff s = false ∧ s.bench.checkstop = false ∧ (dieOf s (portDie p)).stopped = false ∧ dieRoom s (portDie p) (.input p b) = true ∧
  s.hub.relevel = none ∧ s.hub.edgeLate = false ∧ s.gen.relock = 0

/-- The die of a port holds nothing back that a change of the port could set free. -/
def dieIdle (s : State) (p : PortId) : Prop := (dieOf s (portDie p)).waitOut = [] ∧ (dieOf s (portDie p)).pressSpace = false

/-- A segment reaches its station and passes the checks of its type; `s1` is the state in which it acts (06 R185, R193). -/
def segTaken (s : State) (u : UnitId) (n : Nat) (ty : SegType) (g : Segment) (s1 : State) : Prop :=
  (stnS s u n).st ≠ .closed ∧ ∃ s0, segValid s u n ty g = (s0, true) ∧
    s1 = modConn s0 u n (fun c => { endProbe c with lastValid := (getUnit s0 u).ucc })

end Sys2Proof.Claims
/-- 06 R172 to R180, R199 to R201, R207, R551: frames are filtered and buffered, staked in their order 512 cycles ahead, and dropped without
room; PAUSE holds the transmit queue and its end lets it go; ports go up and down; a flit in turn is buffered and counted, one with a
bad CRC is answered with LLNAK, and LLACK, LLNAK and credits act on the replay buffer and the credits. -/
def Obligations.PortsAndLanes : Prop :=
  (∀ s (p : PortId) f, let x := portOf s p
    x.conf = true → x.up = true → portNative x = false →
    (frameWanted x f = false → exec (.frameReceive p f) s = .next s) ∧
    (frameWanted x f = true → rxCap x < x.rxBytes + f.len → exec (.frameReceive p f) s = .next (setPort s p { x with rxDrop := x.rxDrop + 1 })) ∧
    (frameWanted x f = true → f.len + 4 ≤ frameMax x f → x.rxBytes + f.len ≤ rxCap x → bitOf x.cfg 9 = false →
      exec (.frameReceive p f) s = .next (setPort s p { x with rx := x.rx ++ [.frame f], rxBytes := x.rxBytes + f.len }))) ∧
  (∀ s (p : PortId) f r, let x := portOf s p
    let d := portDie p
    x.rx = .frame f :: r → bitOf x.cfg 9 = false → dieOpen s p (.frame f) →
    ∃ t, exec (.stakeDrain p) s = .next t ∧ portOf t p = { x with rx := r, rxBytes := x.rxBytes - f.len } ∧
      (dieOf t d).seq = ((dieOf s d).seq + 1) % 2 ^ 32 ∧
      ∀ u, (getUnit t u).feed = if isFed s u then (getUnit s u).feed ++
        [{ source := dieSource d, stamp := (foreState s).ucc + 512, seq := (dieOf s d).seq, body := .input p (.frame f) }] else (getUnit s u).feed) ∧
  (∀ s (p : PortId) quanta, let x := portOf s p
    x.conf = true → x.up = true → portNative x = false → quanta ≠ 0 → dieIdle s p →
    exec (.pauseReceive p quanta) s = .next (setPort s p { x with paused := quanta.toNat, pauseRx := x.pauseRx + 1 })) ∧
  (∀ s (p : PortId) bs, let x := portOf s p
    x.up = true → portNative x = false → x.tx = [bs] → dieIdle s p →
    ∃ t, exec (.pauseExpiry p) s = .next t ∧ t.sent = s.sent ++ [(p.val, bs)] ∧
      portOf t p = { x with paused := 0, tx := [], txBytes := x.txBytes - bs.length, txFrames := x.txFrames + 1 }) ∧
  (∀ s (p : PortId), let x := portOf s p
    x.conf = true → x.up = false → portNative x = false → (dieOf s (portDie p)).stopped = false → (dieOf s (portDie p)).lanesDown = false →
    isOff s = true → ∃ t, exec (.portUp p) s = .next t ∧ (portOf t p).up = true ∧ ∀ u, (uPort (getUnit t u) p).up = true) ∧
  (∀ s (p : PortId), (portOf s p).up = true → isOff s = true → dieIdle s p →
    ∃ s1, exec (.portDown p) s = .next (raiseFree s1 (dieSrcNum (portDie p) 5) (foreState s1).ucc) ∧
      (portOf s1 p).up = false ∧ (portOf s1 p).tx = [] ∧ (portOf s1 p).replayBuf = [] ∧ ∀ u, (uPort (getUnit s1 u) p).up = false) ∧
  (∀ s (p : PortId), (portOf s p).up = false → exec (.portDown p) s = .next s) ∧
  (∀ s (p : PortId), portNative (portOf s p) = true → exec (.blockLockLoss p) s = exec (.portDown p) s ∧ ∃ t, exec (.blockLockLoss p) s = .next t) ∧
  (∀ s (p : PortId), portNative (portOf s p) = false → exec (.blockLockLoss p) s = .next s) ∧
  (∀ s d, (dieOf s d).stopped = false → isOff s = true → ∃ s0 s1, exec (.dieStop d) s =
      .next (match backUnit s1 with | some u => dropUnit s1 u 6 | none => s1) ∧
    s1 = raiseFree s0 (dieSrcNum d 4) (foreState s0).ucc ∧ (dieOf s0 d).stopped = true ∧ (dieOf s0 d).line = [] ∧ (dieOf s0 d).side0 = [] ∧
    (dieOf s0 d).side1 = [] ∧ ∀ p, p / 256 = d.val → (portOf s0 p).up = false) ∧
  (∀ s (p : PortId) f, let x := portOf s p
    x.conf = true → x.up = true → portNative x = true →
    (f.llseq = x.llExpect → f.dst = s.pow.modId → x.sinceAck + 1 < 32 → ∃ t, exec (.flitReceive p f true) s = .next t ∧
      portOf t p = { x with llExpect := x.llExpect + 1, sinceAck := x.sinceAck + 1, rx := x.rx ++ [.flit f], rxBytes := x.rxBytes + 256 }) ∧
    (f.llseq ≠ x.llExpect → exec (.flitReceive p f true) s = .next s) ∧
    exec (.flitReceive p f false) s = .next { s with sent := s.sent ++ [(p.val, linkFlit 4 x.llExpect [])] }) ∧
  (∀ s (p : PortId), let x := portOf s p
    x.up = true → portNative x = true → 0 < x.sinceAck → exec (.llackTimer p) s = .next (sendLlack s p)) ∧
  (∀ s (p : PortId) llseq, let x := portOf s p
    x.up = true → portNative x = true → x.tx = [] → dieIdle s p →
    ∃ t, exec (.llack p llseq) s = .next t ∧ (portOf t p).replayBuf = afterFlit x.replayBuf llseq) ∧
  (∀ s (p : PortId) llseq, let x := portOf s p
    x.up = true → portNative x = true → x.replays + 1 < 16 →
    ∃ t, exec (.llnak p llseq) s = .next t ∧ portOf t p = { x with replays := x.replays + 1, llReplay := x.llReplay + 1 } ∧
      t.sent = s.sent ++ (x.replayBuf.dropWhile (fun e => e.1 != llseq)).map (fun e => (p.val, flitWire e.1 e.2))) ∧
  (∀ s (p : PortId) vc0 vc1, let x := portOf s p
    x.up = true → portNative x = true → x.tx = [] → dieIdle s p →
    exec (.credit p vc0 vc1) s = .next (setPort s p { x with vc0 := x.vc0 + vc0.toNat, vc1 := x.vc1 + vc1.toNat }))

/-- 06 R183 to R196: a segment that fails its checks is discarded and counted, whatever its type; one that passes acts: data and its
acknowledgement, the handshake, the close, the probe. The timers: the retransmission ladder, the keepalive, the resumption after 64 ms,
the nonce tie, the reassembly deadline, a deferred acknowledgement. -/
def Obligations.SegmentsAndTimers : Prop :=
  (∀ s u (n : StationId) g v s0, (stnS s u n).st ≠ .closed →
    (segValid s u n .data g = (s0, false) → exec (.tvtData u n g v) s = .next (discOther s0 u n)) ∧
    (segValid s u n .ack g = (s0, false) → exec (.tvtAck u n g) s = .next (discOther s0 u n)) ∧
    (segValid s u n .init g = (s0, false) → exec (.tvtInit u n g) s = .next (discOther s0 u n)) ∧
    (segValid s u n .initAck g = (s0, false) → exec (.tvtInitAck u n g) s = .next (discOther s0 u n)) ∧
    (segValid s u n .ready g = (s0, false) → exec (.tvtReady u n g) s = .next (discOther s0 u n)) ∧
    (segValid s u n .close g = (s0, false) → exec (.tvtClose u n g) s = .next (discOther s0 u n)) ∧
    (segValid s u n .closeAck g = (s0, false) → exec (.tvtCloseAck u n g) s = .next (discOther s0 u n)) ∧
    (segValid s u n .probe g = (s0, false) → exec (.tvtProbe u n g) s = .next (discOther s0 u n))) ∧
  (∀ s u (n : StationId) g v s1 s2 t, segTaken s u n .data g s1 → applyAck s1 u n g = some s2 → dataSeg s2 u n g v = some t →
    exec (.tvtData u n g v) s = .next t) ∧
  (∀ s u (n : StationId) g s1 t, segTaken s u n .ack g s1 → applyAck s1 u n g = some t → exec (.tvtAck u n g) s = .next t) ∧
  (∀ s u (n : StationId) g s1, segTaken s u n .init g s1 → g.body.isSome = true → (stnS s1 u n).conn.st = .listen →
    ∃ s2, exec (.tvtInit u n g) s = .next (resetLadder s2 u n) ∧ (stnS s2 u n).conn.st = .initRcvd) ∧
  (∀ s u (n : StationId) g b s1 t, segTaken s u n .initAck g s1 → g.body = some b → (stnS s1 u n).conn.st = .initSent →
    establish (modConn s1 u n (fun c => { c with peerNonce := b.nonce })) u n b (some b.nonce) = some t →
    exec (.tvtInitAck u n g) s = .next t) ∧
  (∀ s u (n : StationId) g b pb s1, segTaken s u n .ready g s1 → g.body = some b → (stnS s1 u n).conn.pendBody = some pb →
    (b.nonce ≠ (stnS s1 u n).conn.pendNonce → exec (.tvtReady u n g) s = .next (discOther s1 u n)) ∧
    (b.nonce = (stnS s1 u n).conn.pendNonce → ∃ s2, (stnS s2 u n).conn.myConn = (stnS s1 u n).conn.pendConn ∧
      exec (.tvtReady u n g) s = .next ((establish s2 u n pb none).getD s))) ∧
  (∀ s u (n : StationId) g s1, segTaken s u n .close g s1 → (stnS s1 u n).conn.st = .closing →
    exec (.tvtClose u n g) s = .next (emitSeg s1 u n .closeAck
      { segBase (getUnit s1 u) n (stnS s1 u n) with ackv := false, ack := 0, sack := [] })) ∧
  (∀ s u (n : StationId) g s1 t, segTaken s u n .closeAck g s1 →
    finishClose (modConn s1 u n (fun c => { c with st := .closed, ladder := none })) u n = some t → exec (.tvtCloseAck u n g) s = .next t) ∧
  (∀ s u (n : StationId) g s1 s2 t, segTaken s u n .probe g s1 → applyAck s1 u n g = some s2 →
    sendAck s2 u n (ackValue (getUnit s2 u) n (stnS s2 u n)) = some t → exec (.tvtProbe u n g) s = .next t) ∧
  (∀ s u (n : StationId) k e s1 s2, (stnS s u n).conn.ladder = some (k, e) → timeTo s u e = some s1 →
    k + 1 < rtoSteps (getUnit s1 u) (stnS s1 u n) → ladderSend s1 u n = some s2 →
    ∃ t, exec (.retransmitTimeout u n) s = .next t ∧ (stnS t u n).conn.ladder.map (fun l => l.1) = some (k + 1)) ∧
  (∀ s u (n : StationId) s1, let t0 := stnS s u n
    t0.conn.st = .established → stnTransport t0 = 0 → bitsOf (peerW t0 1) 48 16 ≠ 0 → t0.conn.probing = false →
    timeTo s u (t0.conn.lastValid + usCycles s (1000 * bitsOf (peerW t0 1) 48 16)) = some s1 →
    ∃ t, exec (.keepaliveTimeout u n) s = .next t ∧ (stnS t u n).conn.probing = true ∧ (stnS t u n).conn.ladder.isSome = true) ∧
  (∀ s u (n : StationId) s1, let t0 := stnS s u n
    t0.conn.st = .lost → stnActive t0 = true → timeTo s u (t0.conn.lostAt + usCycles s 64000) = some s1 →
    ∃ s2, exec (.lostResumeTimer u n) s = .next (resetLadder (sendInit s2 u n) u n) ∧ (stnS s2 u n).conn.st = .initSent ∧
      (stnS s2 u n).conn.resume = true) ∧
  (∀ s u (n : StationId) d s1, (stnS s u n).conn.tie = some d → (stnS s u n).conn.st = .initSent → timeTo s u d = some s1 →
    exec (.nonceTieRetry u n) s = .next (sendInit (modConn s1 u n (fun c => { c with tie := none })) u n)) ∧
  (∀ s u (n : StationId) seq p s1, (stnS s u n).conn.parts.find? (fun p => p.seq == seq) = some p → timeTo s u p.deadline = some s1 →
    ∃ t, exec (.reassemblyTimeout u n seq) s = .next t ∧ (stnS t u n).discOther = (stnS s u n).discOther + 1 ∧
      (stnS t u n).conn.parts = (stnS s u n).conn.parts.filter (fun q => q.seq ≠ seq)) ∧
  (∀ s u (n : StationId) s1 t, let t0 := stnS s u n
    t0.conn.ackDue = true → t0.conn.st = .established → timeTo s u (t0.conn.ackAt + ackInterval s t0) = some s1 →
    sendAck s1 u n (ackValue (getUnit s1 u) n t0) = some t → exec (.deferredAck u n) s = .next t)


namespace Sys2Proof.Claims

open Sys2Proof.Machine

/-- A request of an agent of the unit reaches an idle line: the fabric runs, the agent lives and evicts nothing, the tracker has room,
nothing is parked and the line is in no service (11 R334, R339, R340, R353). -/
def requestFree (s : State) (u : UnitId) (q : CohReq) : Prop :=
  let x := getUnit s u
  fabricRuns x = true ∧ q.agent.val < 74 ∧ isDead x q.agent.val = false ∧ evicting x q.agent.val q.line.toNat = false ∧
  trackerFull x q.line.toNat = false ∧ x.mem.coh.parked = [] ∧ svcOf x q.line.toNat = none

/-- The home serves the request at once: the tag passes, no transaction and no pin stands against it, and the directory set has a way. -/
def homeClear (s : State) (x : UnitState) (j : CohJob) : Prop :=
  tagOk x (bridgeOpen s) j = true ∧ txHolders x j.req.line.toNat (jobWrites j.kind) (coreAt x j.req.agent.val) = [] ∧
  pinFits x j.req = true ∧ ensureWay x j.req.line.toNat j.req.agent.val = (x, true)

/-- The request is in service: the home has done `y`, the service is `v`, and GNT goes out where nothing is owed (11 R340, R341). -/
def inServiceNow (s : State) (u : UnitId) (line : Nat) (y : UnitState) (v : Svc) : State :=
  setUnit s u (grantIfClear (setSvc y line (some v)) line)

/-- The first message in flight of a kind to an agent of a unit is `m`; `x` is the unit without it (11 R338). -/
def inFlight (s : State) (u : UnitId) (k : MsgKind) (agent line : Nat) (m : CohMsg) (x : UnitState) : Prop :=
  takeMsg (getUnit s u) (isMsg k agent line) = some (m, x)

/-- The agent is alive and evicts nothing of the line. -/
def answers (x : UnitState) (agent line : Nat) : Prop := isDead x agent = false ∧ evicting x agent line = false

end Sys2Proof.Claims
/-- 11 R334, R339 to R342: a request of an idle line goes into service as its kind and the directory say: DAT from the home in the state
that the entry gives, or FWS, FWX, FWO or CLNF to the owner, with INV to the holders; WRL, CLN and FLS without a holder and a STC without
its pin end at once with DONE; a request with a wrong tag gets ERR; a line in service makes it wait. -/
def Obligations.CoherenceRequests : Prop :=
  (∀ s u q, let x := getUnit s u
    let n := q.line.toNat
    let e := dirOf x n
    let j : CohJob := { kind := .rds, req := q }
    requestFree s u q → homeClear s x j → q.pin = false →
    (e.st = .free → exec (.rds u q) s = .next (inServiceNow s u n (homeData x j (if fbLine n then .w else .e)) { job := j, needData := true })) ∧
    (e.st = .shared → exec (.rds u q) s = .next (inServiceNow s u n (homeData x j .w) { job := j, needData := true })) ∧
    ((e.st = .witnessed ∨ e.st = .owned) → e.own ≠ q.agent.val → isDead x e.own = false →
      exec (.rds u q) s = .next (inServiceNow s u n (sendFwd x .fws n e.own) { job := j, fwd := some e.own, needData := true }))) ∧
  (∀ s u q, let x := getUnit s u
    let n := q.line.toNat
    let e := dirOf x n
    let j : CohJob := { kind := .rdx, req := { q with pin := false } }
    let others := (holderList e).filter (fun p => p ≠ q.agent.val)
    requestFree s u q → homeClear s x j → fbLine n = false →
    (e.st = .free → exec (.rdx u q) s = .next (inServiceNow s u n (homeData x j .e) { job := j, needData := true })) ∧
    (e.st = .shared → exec (.rdx u q) s = .next (inServiceNow s u n (homeData (sendInv x n false others).1 j .e)
      { job := j, owed := (sendInv x n false others).2, needData := true, needGnt := true })) ∧
    (e.st = .owned → e.own ≠ q.agent.val → isDead x e.own = false →
      exec (.rdx u q) s = .next (inServiceNow s u n (sendFwd x .fwx n e.own) { job := j, fwd := some e.own, needData := true }))) ∧
  (∀ s u q, let x := getUnit s u
    let n := q.line.toNat
    let e := dirOf x n
    let j : CohJob := { kind := .upg, req := { q with pin := false } }
    let others := (holderList e).filter (fun p => p ≠ q.agent.val)
    requestFree s u q → homeClear s x j → fbLine n = false → (e.st = .shared ∨ e.st = .witnessed) → e.holders.getLsbD q.agent.val = true →
    exec (.upg u q) s = .next (inServiceNow s u n (sendInv x n false others).1
      { job := j, owed := (sendInv x n false others).2, needGnt := true })) ∧
  (∀ s u q, let x := getUnit s u
    let n := q.line.toNat
    let e := dirOf x n
    let j : CohJob := { kind := .rdo, req := { q with pin := false } }
    requestFree s u q → homeClear s x j →
    ((e.st = .witnessed ∨ e.st = .owned) → isDead x e.own = false →
      exec (.rdo u q) s = .next (inServiceNow s u n (sendFwd x .fwo n e.own) { job := j, fwd := some e.own, needData := true })) ∧
    ((e.st = .free ∨ e.st = .shared) → exec (.rdo u q) s = .next (inServiceNow s u n (homeData x j .i) { job := j, needData := true }))) ∧
  (∀ s u q data, let x := getUnit s u
    let n := q.line.toNat
    let j : CohJob := { kind := .wrl, req := { q with pin := false }, data := data }
    requestFree s u q → homeClear s x j → fbLine n = false → data.length = 64 →
    let r := sendInv x n true (holderList (dirOf x n))
    (r.2 = [] → exec (.wrl u q data) s = .next (setUnit s u (setSvc (sendDone (ctxEffects (wrlLine (losePin r.1 j) q.agent.val n data) n) j true) n none))) ∧
    (r.2 ≠ [] → exec (.wrl u q data) s = .next (inServiceNow s u n r.1 { job := j, owed := r.2 }))) ∧
  (∀ s u q off data, let x := getUnit s u
    let n := q.line.toNat
    let j : CohJob := { kind := .wrt, req := { q with pin := false }, off := off.toNat, data := data }
    requestFree s u q → homeClear s x j → fbLine n = true → off.toNat + data.length ≤ 64 →
    ∀ y v, serveWrt x j = .serve y v → exec (.wrt u q off data) s = .next (inServiceNow s u n y v) ∧
      v.owed = (sendInv x n false ((holderList (dirOf x n)).filter (fun p => p ≠ q.agent.val))).2) ∧
  (∀ s u q off data, let x := getUnit s u
    let n := q.line.toNat
    let j : CohJob := { kind := .stc, req := { q with pin := false }, off := 8 * off.toNat, data := leBytes 8 data.toNat }
    requestFree s u q → homeClear s x j →
    ((dirOf x n).pin ≠ some (pinSelf j.req) →
      exec (.stc u q off data) s = .next (setUnit s u (setSvc (sendDone x j false) n none))) ∧
    (fbLine n = false → (dirOf x n).pin = some (pinSelf j.req) → (dirOf x n).st = .owned → (dirOf x n).own = q.agent.val →
      exec (.stc u q off data) s = .next (inServiceNow s u n (homeData x j .e) { job := j, needData := true }))) ∧
  (∀ s u q, let x := getUnit s u
    let n := q.line.toNat
    let e := dirOf x n
    let j : CohJob := { kind := .cln, req := { q with pin := false } }
    requestFree s u q → homeClear s x j →
    (e.st ≠ .owned → exec (.cln u q) s = .next (setUnit s u (setSvc (sendDone (l3Clean x n) j true) n none))) ∧
    (e.st = .owned → isDead x e.own = false → exec (.cln u q) s =
      .next (inServiceNow s u n (sendFwd x .clnf n e.own) { job := j, fwd := some e.own, owed := [e.own] }))) ∧
  (∀ s u q, let x := getUnit s u
    let n := q.line.toNat
    let j : CohJob := { kind := .fls, req := { q with pin := false } }
    requestFree s u q → homeClear s x j →
    let r := sendInv x n false (holderList (dirOf x n))
    (r.2 = [] → exec (.fls u q) s = .next (setUnit s u (setSvc (sendDone (flushHome r.1 n q.agent.val) j true) n none))) ∧
    (r.2 ≠ [] → exec (.fls u q) s = .next (inServiceNow s u n r.1 { job := j, owed := r.2 }))) ∧
  (∀ s u q, let x := getUnit s u
    let j : CohJob := { kind := .rds, req := q }
    requestFree s u q → tagOk x (bridgeOpen s) j = false →
    exec (.rds u q) s = .next (setUnit s u (setSvc
      (sendMsg x { kind := .err, line := q.line.toNat, agent := q.agent, flag := false }) q.line.toNat none))) ∧
  (∀ s u q v, let x := getUnit s u
    fabricRuns x = true → q.agent.val < 74 → answers x q.agent.val q.line.toNat → trackerFull x q.line.toNat = false → x.mem.coh.parked = [] →
    svcOf x q.line.toNat = some v →
    exec (.rds u q) s = .next (setUnit s u (setSvc x q.line.toNat (some { v with waiting := v.waiting ++ [{ kind := .rds, req := q }] }))))

/-- 11 R334, R341, R344, R348 to R350, R353, 15 R454: an eviction drops the copy and tells the home; a forward is answered from the state
of the copy, which moves to its next state, or by GONE; data, GNT and ACK complete a request, CMP ends its service, EACK frees the
eviction entry; RSVL ends the reservation and ERR to a core raises TAG_LATE; walks, sweeps and invalidations end. -/
def Obligations.CoherenceMessages : Prop :=
  (∀ s u (a : Fin 80) (line : BitVec 46), let x := getUnit s u
    let n := line.toNat
    fabricRuns x = true → mayEvict x a.val n = true →
    ((agOf x a.val n = .s ∨ agOf x a.val n = .w ∨ agOf x a.val n = .e) →
      exec (.evc u a line) s = .next (evictRow s u a.val n false) ∧ (a.val, n) ∈ (getUnit (evictRow s u a.val n false) u).mem.coh.ev) ∧
    (agOf x a.val n = .d → x.mem.coh.salv.contains (a.val, n) = false →
      exec (.evd u a line false) s = .next (evictRow s u a.val n true))) ∧
  (∀ s u (a : Fin 80) (line : BitVec 46), let x := getUnit s u
    let n := line.toNat
    fabricRuns x = true → x.mem.coh.wt = true → isDead x a.val = false → agOf x a.val n = .d →
    exec (.evw u a line) s = .next (setUnit s u (l3Dirty (setAg x a.val n .e) n))) ∧
  (∀ s u (a : Fin 80) (line : BitVec 46) m x, let n := line.toNat
    inFlight s u .fws a.val n m x → answers x a.val n →
    (agOf x a.val n = .w → exec (.fws u a line) s = .next (setUnit s u (replyData x n .s))) ∧
    (agOf x a.val n = .e → exec (.fws u a line) s = .next (setUnit s u (setAg (replyData x n .s) a.val n .w))) ∧
    (agOf x a.val n = .d → exec (.fws u a line) s = .next (setUnit s u (setAg (dataHome (replyData x n .s) a.val n) a.val n .w))) ∧
    (agOf x a.val n = .i → exec (.fws u a line) s = .next (setUnit s u (replyGone x a.val n)))) ∧
  (∀ s u (a : Fin 80) (line : BitVec 46) m x, let n := line.toNat
    inFlight s u .fwx a.val n m x → answers x a.val n →
    ((agOf x a.val n = .w ∨ agOf x a.val n = .e) → exec (.fwx u a line) s = .next (setUnit s u (setAg (replyData x n .e) a.val n .i))) ∧
    (agOf x a.val n = .d → exec (.fwx u a line) s = .next (setUnit s u (setAg (replyData x n .d) a.val n .i))) ∧
    (agOf x a.val n = .i → exec (.fwx u a line) s = .next (setUnit s u (replyGone x a.val n)))) ∧
  (∀ s u (a : Fin 80) (line : BitVec 46) m x, let n := line.toNat
    inFlight s u .fwo a.val n m x → answers x a.val n →
    ((agOf x a.val n = .w ∨ agOf x a.val n = .e ∨ agOf x a.val n = .d) → exec (.fwo u a line) s = .next (setUnit s u (replyData x n .i))) ∧
    (agOf x a.val n = .i → exec (.fwo u a line) s = .next (setUnit s u (replyGone x a.val n)))) ∧
  (∀ s u (a : Fin 80) (line : BitVec 46) drop m x, let n := line.toNat
    takeMsg (getUnit s u) (fun m => isMsg .inv a.val n m && m.flag == drop) = some (m, x) → answers x a.val n →
    (agOf x a.val n = .d → drop = false → exec (.inv u a line drop) s = .next (setUnit s u (setAg (dataHome x a.val n) a.val n .i))) ∧
    ((agOf x a.val n ≠ .d ∨ drop = true) → exec (.inv u a line drop) s =
      .next (setUnit s u (setAg (sendMsg x { kind := .ack, line := n, agent := a.val, home := true }) a.val n .i)))) ∧
  (∀ s u (a : Fin 80) (line : BitVec 46) m x, let n := line.toNat
    inFlight s u .clnf a.val n m x → answers x a.val n →
    (agOf x a.val n = .e → exec (.clnf u a line) s = .next (setUnit s u (sendMsg x { kind := .ack, line := n, agent := a.val, home := true }))) ∧
    (agOf x a.val n = .d → exec (.clnf u a line) s = .next (setUnit s u (setAg (dataHome x a.val n) a.val n .e)))) ∧
  (∀ s u (a : Fin 80) (line : BitVec 46) m x, let n := line.toNat
    inFlight s u .fws a.val n m x → (isDead x a.val = true ∨ evicting x a.val n = true) →
    exec (.fws u a line) s = .next (setUnit s u (replyGone x a.val n))) ∧
  (∀ s u (a : Fin 80) (line : BitVec 46) m x v, let n := line.toNat
    inFlight s u .dat a.val n m x → svcOf x n = some v → v.job.req.agent.val = a.val → m.st ≠ .i →
    exec (.dat u (some a) line) s =
      .next (setUnit s u (cmpIfDone (setSvc (writeThrough (setAg x a.val n m.st) a.val n) n (some { v with needData := false })) n))) ∧
  (∀ s u (line : BitVec 46) m x, let n := line.toNat
    takeMsg (getUnit s u) (fun m => decide (m.kind = .dat) && m.home && m.line == n) = some (m, x) →
    exec (.dat u none line) s = .next (setUnit s u (replyArrives (bridgeOpen s) (l3Dirty x n) n m.agent))) ∧
  (∀ s u (a : Fin 80) (line : BitVec 46) m x, let n := line.toNat
    takeMsg (getUnit s u) (fun m => decide (m.kind = .ack) && m.agent == a.val && m.line == n && m.home) = some (m, x) →
    exec (.ack u a line) s = .next (setUnit s u (replyArrives (bridgeOpen s) x n a.val))) ∧
  (∀ s u (a : Fin 80) (line : BitVec 46) m x, inFlight s u .gone a.val line.toNat m x →
    exec (.gone u a line) s = .next (setUnit s u (goneArrives (bridgeOpen s) x line.toNat a.val))) ∧
  (∀ s u (a : Fin 80) (line : BitVec 46) m x v, let n := line.toNat
    inFlight s u .gnt a.val n m x → svcOf x n = some v →
    (v.job.kind = .upg → (agOf x a.val n = .s ∨ agOf x a.val n = .w) → exec (.gnt u a line) s =
      .next (setUnit s u (cmpIfDone (setSvc (writeThrough (setAg x a.val n .d) a.val n) n (some { v with needGnt := false })) n))) ∧
    (v.job.kind ≠ .upg → exec (.gnt u a line) s = .next (setUnit s u (cmpIfDone (setSvc x n (some { v with needGnt := false })) n)))) ∧
  (∀ s u (a : Fin 80) (line : BitVec 46) m x v, let n := line.toNat
    inFlight s u .cmp a.val n m x → svcOf x n = some v → v.waiting = [] → v.heldEv = [] → x.mem.coh.parked = [] → v.job.kind = .rdo →
    exec (.cmpResponse u a line) s = .next (setUnit s u (retryParked (bridgeOpen s)
      (setSvc (touchEntry (enterTx (setDir x n v.job.req.agent.val (dirOf x n)) v.job) n) n none)))) ∧
  (∀ e j, let me := j.req.agent.val
    (j.kind = .rdx ∨ j.kind = .upg ∨ j.kind = .stc → endEntry e j = { e with st := .owned, holders := posBit me, own := me }) ∧
    (j.kind = .rds → j.req.pin = false → (e.st = .shared → endEntry e j = { e with st := .witnessed, holders := e.holders ||| posBit me, own := me }) ∧
      (e.st = .witnessed → endEntry e j = { e with holders := e.holders ||| posBit me }) ∧
      (e.st = .owned → e.own ≠ me → endEntry e j = { e with st := .witnessed, holders := e.holders ||| posBit me }))) ∧
  (∀ s u (a : Fin 80) (line : BitVec 46) m x, inFlight s u .eack a.val line.toNat m x →
    exec (.eack u a line) s = .next (setUnit s u (modCoh x (fun c => { c with ev := c.ev.erase (a.val, line.toNat) })))) ∧
  (∀ s u (a : Fin 80) (line : BitVec 46) m x, inFlight s u .done a.val line.toNat m x → exec (.done u a line) s = .next (setUnit s u x)) ∧
  (∀ s u (a : Fin 80) (e : Fin 16) (line : BitVec 46) m x l, let n := line.toNat
    takeMsg (getUnit s u) (fun m => isMsg .rsvl a.val n m && m.engine == e.val) = some (m, x) → coreAt x a.val = some l →
    (unitCore x l).rsvGranule.toNat = n →
    exec (.rsvl u a e line) s = .next (setUnit s u (setUnitCore x l { unitCore x l with rsvValid := false }))) ∧
  (∀ s u (a : Fin 80) (line : BitVec 46) m x, inFlight s u .err a.val line.toNat m x →
    exec (.err u a line) s = .next (if m.flag = true ∧ a.val < 56 then raiseUnitFree (setUnit s u x) u 0x20B else setUnit s u x)) ∧
  (∀ s u (a : Fin 80), (getUnit s u).mem.coh.walks.contains a.val = true →
    (∀ e ∈ (getUnit s u).mem.coh.dir, ¬ (e.2.st = .owned ∧ e.2.own = a.val)) →
    ∃ t, exec (.directoryWalkEnd u a) s = .next t ∧ (getUnit t u).mem.coh.walks = (getUnit s u).mem.coh.walks.erase a.val ∧
      (getUnit t u).mem.coh.lostLog = (getUnit s u).mem.coh.lostLog) ∧
  (∀ s u, (getUnit s u).mem.coh.wtSweep = true → ∃ t, exec (.wtSweepEnd u) s = .next t ∧ (getUnit t u).mem.coh.wtSweep = false) ∧
  (∀ s u, ∃ t, exec (.invalidationEnd u) s = .next t ∧ (getUnit t u).mem.coh.invBusy = false ∧
    t = setUnit s u (modCoh (getUnit s u) (fun c => { c with invBusy := false }))) ∧
  (∀ s u (a : Fin 80) (line : BitVec 46), takeMsg (getUnit s u) (isMsg .eack a.val line.toNat) = none → exec (.eack u a line) s = .next s)

/-- 12 R362 to R382, 13 R386 to R395: the scheduler issues the first candidate of the urgency rules, a column command taking its request
off the queue; blocked writes enter when there is room; the oldest issued read returns, with a poisoned line, a log entry and a fault
where it is in error; refresh, power-down, frequency change, bring-up and scrub do what their rows say. The syndrome and the eye edges
are free values. -/
def Obligations.DramControllers : Prop :=
  (∀ s u (c : Fin 12) now cs s1 r k, timeTo s u now = some s1 → channelOpen (getUnit s1 u) c now = true →
    firstCandidate s1 (getUnit s1 u) c now ((cs.filterMap (fun e => ((queued (mcOf (getUnit s1 u) c))[e.1]?).map (fun r => (r, e.2)))).filter
      (fun e => candidateOk s1 (getUnit s1 u) c now e.1 e.2)) = some (r, k) →
    exec (.dramCommandIssue u c now cs) s = .next (issueCmd s1 u c now r k) ∧
    (k = .activate → openRowOf (mcOf (getUnit (issueCmd s1 u c now r k) u) c) r.bank = some r.row) ∧
    (k = .precharge → openRowOf (mcOf (getUnit (issueCmd s1 u c now r k) u) c) r.bank = none) ∧
    (k = .read → { r with since := now } ∈ (mcOf (getUnit (issueCmd s1 u c now r k) u) c).issued)) ∧
  (∀ s u (c : Fin 12) r, let m := mcOf (getUnit s u) c
    portHead m true (fun _ => true) = some r → m.wq.length < 128 →
    ∃ t, exec (.writeAccept u c) s = .next t ∧ (mcOf (getUnit t u) c).wq = m.wq ++ [accepted (getUnit s u) m r] ∧
      ∀ q ∈ (mcOf (getUnit t u) c).blocked, q ∈ m.blocked.erase r) ∧
  (∀ s u (c : Fin 12) o, let x := getUnit s u
    ∀ r rest, (mcOf x c).issued = r :: rest →
    let s1 := modUnit s u (fun x => modMc x c (fun m => { m with issued := rest }))
    (r.port = 7 → eccTesting x c = true → bitOf (mcReg x c 0x800) 1 = true → r.retired = false → (mcOf x c).late = false → ∀ errs,
      exec (.readReturn u c (.data errs) false) s = .next (modUnit s1 u (fun x => eccTestRead x c r.line errs))) ∧
    (r.port ≠ 7 ∨ eccTesting x c = false →
      (readOutcome x c r.line r.retired o = .clean → exec (.readReturn u c o false) s = .next s1) ∧
      (readOutcome x c r.line r.retired o = .clean → exec (.readReturn u c o true) s = .next (raiseUnitFree s1 u (0x120 + c.val))) ∧
      (∀ dev w, readOutcome x c r.line r.retired o = .ce dev w → exec (.readReturn u c o false) s =
        .next (foundCe (modUnit s1 u (fun x => deliverCe x c r.line dev o)) u c r.line dev w false)) ∧
      (∀ w, readOutcome x c r.line r.retired o = .ue w → exec (.readReturn u c o false) s =
        .next (foundUe (modUnit s1 u (fun x => poisonLine x r.line 1)) u c r.line 0 w false)) ∧
      (∀ k w, k ≠ 3 → k ≠ 4 → readOutcome x c r.line r.retired o = .mark k w → exec (.readReturn u c o false) s =
        .next (foundUe (modUnit s1 u (fun x => poisonLine x r.line k)) u c r.line k w false)))) ∧
  (∀ s u ucc s1, timeTo s u ucc = some s1 → (∀ c, 2 * refInterval (getUnit s1 u) c ≠ 0 ∧ (ucc - (mcOf (getUnit s1 u) c).refBase) % (2 * refInterval (getUnit s1 u) c) ≠ 0) →
    exec (.refreshSlot u ucc) s = .next (setUnit s1 u (getUnit s1 u))) ∧
  (∀ s u ucc s1 (c : Fin 12), timeTo s u ucc = some s1 → 2 * refInterval (getUnit s1 u) c ≠ 0 → (ucc - (mcOf (getUnit s1 u) c).refBase) % (2 * refInterval (getUnit s1 u) c) = 0 →
    bitsOf (mcReg (getUnit s1 u) c 0x018) 0 3 = 2 → (mcOf (getUnit s1 u) c).fchgHold = false →
    ∃ t, exec (.refreshSlot u ucc) s = .next t ∧ (mcOf (getUnit t u) c).openRow = [] ∧ (mcOf (getUnit t u) c).pd = 0) ∧
  (∀ s u (c : Fin 12) (rank : Fin 4), let x := getUnit s u
    bitOf (mcReg x c 0x0D0) 0 = true → bitsOf (mcReg x c 0x018) 0 3 = 2 → (queued (mcOf x c)).any (fun r => bankSlot r.bank == rank.val) = false →
    ∃ t, exec (.rankPowerDown u c rank) s = .next t ∧ (mcOf (getUnit t u) c).pd = (mcOf x c).pd ||| BitVec.ofNat 4 (2 ^ rank.val) ∧
      bitOf (mcReg (getUnit t u) c 0x018) 16 = true) ∧
  (∀ s u (ready : BitVec 12), (∀ c : Fin 12, (mcOf (getUnit s u) c).fchgHold = true ∨ (mcOf (getUnit s u) c).late = true → ready.getLsbD c.val = true) →
    ∃ t, exec (.fchgHoldEnd u ready) s = .next t ∧ ∀ c : Fin 12, (mcOf (getUnit t u) c).fchgHold = false ∧ (mcOf (getUnit t u) c).late = false) ∧
  (∀ s u (ready : BitVec 12) (c : Fin 12), let m := mcOf (getUnit s u) c
    (m.fchgHold = false → m.late = false → holdEnd u ready s c = s) ∧
    (m.fchgHold = true → m.late = false → ready.getLsbD c.val = false → ∃ s1, holdEnd u ready s c = raiseUnitFree s1 u (0x140 + c.val) ∧
      (mcOf (getUnit s1 u) c).late = true ∧ (mcOf (getUnit s1 u) c).fchgHold = false)) ∧
  (∀ s u (c : Fin 12) spd sw eye f (rt : BitVec 8), let x := getUnit s u
    bitsOf (mcReg x c 0x018) 0 3 = 1 →
    (bringupFail x c spd sw eye f rt = 0 → ∃ t, exec (.channelBringup u c spd sw eye f rt) s = .next t ∧
      mcReg (getUnit t u) c 0x018 = BitVec.ofNat 64 (2 + 2 ^ 8 * rt.toNat)) ∧
    (bringupFail x c spd sw eye f rt ≠ 0 → ∃ t, exec (.channelBringup u c spd sw eye f rt) s = .next t ∧
      bitsOf (mcReg (getUnit t u) c 0x018) 0 8 = 5 + 16 * bringupFail x c spd sw eye f rt)) ∧
  (∀ s u r o, let x := getUnit s u
    let addr := r.base + 64 * r.lines
    x.mem.scrub = some r → r.ended = false → x.executing = true → x.dropped = false → x.held = false →
    (isFbAddr addr = false → bankRetired x (addr / 64) = false → ∀ f, let c := lineChan (addr / 64)
      (readOutcome x c (addr / 64) false o = .clean → exec (.scrubLine u o f) s = .next (scrubNext s u r false false addr)) ∧
      (∀ dev w, readOutcome x c (addr / 64) false o = .ce dev w → tabGet chkDef x.mem.dchk (addr / 64) = [] →
        exec (.scrubLine u o f) s = .next (scrubNext (foundCe s u c (addr / 64) dev w true) u r true false addr)) ∧
      (∀ w, readOutcome x c (addr / 64) false o = .ue w → exec (.scrubLine u o f) s =
        .next (scrubNext (foundUe s u c (addr / 64) 0 w true) u r false true addr))) ∧
    (isFbAddr addr = true → fbUnreadable x (addr - fbFirst) 64 = false → exec (.scrubLine u o .clean) s = .next (scrubNext s u r false false addr))) ∧
  (∀ s hot, (∀ c, bitOf (mcReg (foreState s) c 0x0C0) 17 = hot) → exec (.refreshFineChange hot) s = .next s) ∧
  (∀ s hot, isOff s = true → (∀ c, bitOf (mcReg (foreState s) c 0x0C0) 17 ≠ hot) → ∃ t, exec (.refreshFineChange hot) s = .next t ∧
    ∀ u (c : Fin 12), tabGet (fun _ => (none : Option Word)) (mcOf (getUnit t u) c).pendRws 0x0C0 =
      some (withBit (mcReg (foreState s) c 0x0C0) 17 hot))

namespace Sys2Proof.Claims

open Sys2Proof.Machine

/-- The command that a cipher page's argument words hold (14 R413, R414). -/
def argCmd (x : UnitState) (p : Nat) : CphCmd := cphCmd (pageOf x p).args.toList

/-- The command that a cipher page has latched. -/
def latched (x : UnitState) (p : Nat) : CphCmd := cphCmd (pageOf x p).cmd

/-- A page holds the latched command `latched x p` of a mode, its key `k`, its owner and nothing still to wait for, and the key may be used
so (14 R407, R417). -/
def keyed (x : UnitState) (p m : Nat) (k : HiddenKey) (par : BitVec 6) (ctx : BitVec 16) : Prop :=
  let g := pageOf x p
  g.busy = true ∧ g.done = none ∧ g.waitKey = false ∧ g.keyDone = true ∧ g.key = some k ∧ g.owner = some (par, ctx) ∧
  (latched x p).mode = m ∧ useCode (latched x p) k.alg k.use k.extIv = 0

/-- A command row of a mode starts: GO latches the argument words; a failed check ends the command with its code; a command that loads a
key waits for the key bus (14 R408, R412 to R418); a busy page of another mode is left alone. -/
def cipherStarts (row : UnitId → Fin 1024 → Instr) (m : Nat) : Prop :=
  ∀ s u p, let x := getUnit s u
    let g := pageOf x p.val
    let c := argCmd x p.val
    g.busy = false → c.mode = m →
    (cphCheck (cphGo x p.val) p.val (pageOf (cphGo x p.val) p.val) c ≠ 0 →
      ∃ t, exec (row u p) s = .next t ∧ (pageOf (getUnit t u) p.val).busy = true ∧
        (pageOf (getUnit t u) p.val).done = some (cphDone c (cphCheck (cphGo x p.val) p.val (pageOf (cphGo x p.val) p.val) c) false false 0 0 0)) ∧
    (cphCheck (cphGo x p.val) p.val (pageOf (cphGo x p.val) p.val) c = 0 → c.loadKey = true →
      ∃ t, exec (row u p) s = .next t ∧ (pageOf (getUnit t u) p.val).cmd = g.args.toList ∧ (pageOf (getUnit t u) p.val).waitKey = true ∧
        (getUnit t u).cph.keyQ = x.cph.keyQ ++ [{ page := p.val, slot := c.slot, load := true, draw := cphDraws c }])

/-- A whole message of a mode in one command (SEG ONLY) whose accesses all succeed: the input runs through the pipe of the mode to DST, the
tag of a mode that has one is written or agrees, and the command ends with code 0 and the length done (14 R405, R418 to R423). -/
def cipherRuns (row : UnitId → Fin 1024 → Instr) (m : Nat) : Prop :=
  ∀ s u p k par ctx x1 t1 x2 d x3 x4 r, let x := getUnit s u
    let c := latched x p.val
    let t0 := freshCtx c k (pageOf x p.val).drawn
    keyed x p.val m k par ctx → c.seg = 0 → lenCode c t0.len c.auxLen = 0 →
    cphAad (modPage x p.val (fun g => { g with ctx := none })) par.toNat c k t0 = (x1, t1, 0, .ok) →
    dmaRead x1 72 par.toNat c.src c.len = (x2, d, .ok) → dmaWrite x2 72 par.toNat c.dst (pipeRun c k t1 d).1 = (x3, .ok) →
    (if m = 4 ∨ m = 5 ∨ m = 6 ∨ m = 12 then r ≠ .wait ∧ cphTag x3 par.toNat c (pipeTag c k (pipeRun c k t1 d).2) = (x4, 0, r) else x4 = x3) →
    ∃ t, exec (row u p) s = .next t ∧ (getUnit t u).mem = x4.mem ∧ (pageOf (getUnit t u) p.val).ctx = none ∧
      (pageOf (getUnit t u) p.val).done.map (fun e => (e.code, e.full, e.doneLen)) = some (0, true, d.length)

/-- An engine takes the job of its next channel. -/
def jobTaken (row : UnitId → Fin 2 → Instr) (op : Nat) : Prop :=
  ∀ s u e c x1, let x := getUnit s u
    (x.cph.cmp.get e).job = none → cmpNext x e = some c → cmpJob x e c op = some x1 → exec (row u e) s = .next (setUnit s u x1)

/-- An access of a side of a bound channel that is not Sahya's (16 R460, R461). -/
def atChannel (s : State) (n : Fin 64) (mid : BitVec 16) (sd : Side) : Prop :=
  mbxReaches s mid.toNat = true ∧ midSide (mbxOf s n) mid.toNat = some sd ∧ bindEn (mbxOf s n).bind = true ∧ sahyaSide (mbxOf s n) = none

/-- The channel's state, message, length and flags after an access. -/
def channelIs (t : State) (n : Fin 64) (st : MbxSt) (words : List Word) (len : Nat) (fa fb : BitVec 3) : Prop :=
  let m := mbxOf t n
  m.st = st ∧ m.words = words ∧ m.len = len ∧ m.flagsA = fa ∧ m.flagsB = fb

/-- An access refused: REFUSED for the side, nothing else (16 R461). -/
def refusedAt (s t : State) (n : Fin 64) (sd : Side) : Prop :=
  let m := mbxOf s n
  channelIs t n m.st m.words m.len (if sd = .a then m.flagsA ||| 4 else m.flagsA) (if sd = .b then m.flagsB ||| 4 else m.flagsB)

end Sys2Proof.Claims
/-- 14 R405 to R424: every mode's row latches its page's words, checks them and asks for the key; with its key it runs its message through
the pipe of the mode, or answers the key check value, or derives a key into its target page; the key bus answers the oldest request, draws
counter values and marks; the completion record is written and BUSY cleared. -/
def Obligations.CipherCommands : Prop :=
  (cipherStarts Instr.kcv 0 ∧ cipherStarts Instr.aesCbcEnc 1 ∧ cipherStarts Instr.aesCbcDec 2 ∧ cipherStarts Instr.aesCtr 3 ∧
    cipherStarts Instr.aesGcmEnc 4 ∧ cipherStarts Instr.aesGcmDec 5 ∧ cipherStarts Instr.aesCmac 6 ∧ cipherStarts Instr.aesKdf 7 ∧
    cipherStarts Instr.tdesEcbEnc 8 ∧ cipherStarts Instr.tdesEcbDec 9 ∧ cipherStarts Instr.tdesCbcEnc 10 ∧
    cipherStarts Instr.tdesCbcDec 11 ∧ cipherStarts Instr.tdesMac3 12) ∧
  (cipherRuns Instr.aesCbcEnc 1 ∧ cipherRuns Instr.aesCbcDec 2 ∧ cipherRuns Instr.aesCtr 3 ∧ cipherRuns Instr.aesGcmEnc 4 ∧
    cipherRuns Instr.aesGcmDec 5 ∧ cipherRuns Instr.aesCmac 6 ∧ cipherRuns Instr.tdesEcbEnc 8 ∧ cipherRuns Instr.tdesEcbDec 9 ∧
    cipherRuns Instr.tdesCbcEnc 10 ∧ cipherRuns Instr.tdesCbcDec 11 ∧ cipherRuns Instr.tdesMac3 12) ∧
  (∀ s u (p : Fin 1024) k par ctx, let x := getUnit s u
    let c := latched x p.val
    keyed x p.val 0 k par ctx → ∃ t, exec (.kcv u p) s = .next t ∧ (pageOf (getUnit t u) p.val).done =
      some (cphDone c 0 true false 0 (BitVec.ofNat 64 (beNat (kcvOf k.alg k.key) * 2 ^ 40)) 0)) ∧
  (∀ s u (p : Fin 1024) k par ctx x1 fi, let x := getUnit s u
    let c := latched x p.val
    keyed x p.val 7 k par ctx → c.seg = 0 → c.tpage ≠ p.val →
    dmaRead (modPage x p.val (fun g => { g with ctx := none })) 72 par.toNat c.aux c.auxLen = (x1, fi, .ok) →
    (pageOf x1 c.tpage) = (pageOf x c.tpage) →
    ∃ t, exec (.aesKdf u p) s = .next t ∧ (pageOf (getUnit t u) p.val).done = some (cphDone c 0 true false 0 0 0) ∧
      (pageOf (getUnit t u) c.tpage).key = some
        { key := kdfKey k fi (dlenBits c.dlen), alg := 1 + c.dlen, use := k.duse.setWidth 5, duse := 0, extIv := k.extIv, fixed := k.fixed
          slot := k.slot, derived := true, retired := false }) ∧
  (∀ s u keyErr r, ∀ t0 : KeyTxn, (getUnit s u).cph.keyQ = t0 :: r →
    exec (.keyBusComplete u keyErr) s = .next (pageKey (modUnit s u (fun x => { x with cph := { x.cph with keyQ := r } })) u t0 t0.page keyErr)) ∧
  (∀ s n chk, let k := slotOf s n
    (chk k.attrs ≠ 0 → keyAnswerFresh s n true chk = (s, chk k.attrs, 0)) ∧
    (chk k.attrs = 0 → k.retired = true → keyAnswerFresh s n true chk = (s, 5, 0)) ∧
    (chk k.attrs = 0 → k.retired = false → k.ctr < 2 ^ 64 → ∃ t, keyAnswerFresh s n true chk = (t, 0, k.ctr) ∧
      (slotOf t n).ctr = k.ctr + 1 ∧ tabGet (fun _ => 0) t.keys.marks n =
        if tabGet (fun _ => 0) s.keys.marks n ≤ k.ctr then tabGet (fun _ => 0) s.keys.marks n + 2 ^ 20 else tabGet (fun _ => 0) s.keys.marks n) ∧
    (chk k.attrs = 0 → k.retired = false → 2 ^ 64 ≤ k.ctr → ∃ t, keyAnswerFresh s n true chk = (t, 6, 0) ∧ (slotOf t n).retired = true)) ∧
  (∀ s u (p : Fin 1024) d par ctx x1, let x := getUnit s u
    (pageOf x p.val).done = some d → (pageOf x p.val).owner = some (par, ctx) → cphRecord x par.toNat d = some x1 → d.irq = false →
    ∃ t, exec (.cipherComplete u p) s = .next t ∧ (pageOf (getUnit t u) p.val).busy = false ∧ (pageOf (getUnit t u) p.val).code = d.code ∧
      (getUnit t u).mem = x1.mem) ∧
  (∀ s u (p : Fin 1024), (pageOf (getUnit s u) p.val).done = none → exec (.cipherComplete u p) s = .next s)

/-- 14 R429 to R433, 16 R461 to R465, R475: an idle compression engine takes the next channel's job; a wrong context is code 2, a bad
descriptor code 1; no output passes the bound of R431; completion writes words 6 and 7 and counts CMP_CONS; CMP_RING waits for an idle ring and a reserved bit faults. A
mailbox channel moves through EMPTY, COMPOSING and FULL as the access table says, an access out of turn sets REFUSED; bindings obey the
lock. What the codecs emit is a constant without a body; reserved bits are the model's choice (log 9). -/
def Obligations.CompressionAndMailboxes : Prop :=
  jobTaken Instr.compress 0 ∧ jobTaken Instr.decompress 1 ∧
  (∀ x e c op par ctx x1 bs, let g := cmpChan x e c
    let ws := bytesWords 8 bs
    let y := modCmpChan (modCmp x1 e (fun g => { g with last := c })) e c (fun g => { g with busy := true })
    g.owner = some (par, ctx) → dmaRead x 73 par.toNat (cmpDesc g) 64 = (x1, bs, .ok) → bitsOf (ws.getD 0 (0 : Word)) 0 2 = op →
    (bitsOf (ws.getD 0 (0 : Word)) 32 16 ≠ ctx.toNat → cmpJob x e c op = some (cmpEnd y e c ws 2 false 0 0 0)) ∧
    (bitsOf (ws.getD 0 (0 : Word)) 32 16 = ctx.toNat → cmpBad ws = true → cmpJob x e c op = some (cmpEnd y e c ws 1 false 0 0 0))) ∧
  (∀ x e c par ws inp hist, let r := cmpOut x e c (ws.getD 0 (0 : Word)) inp hist
    (r.1.length ≤ inp.length + 5 * ((inp.length + 16383) / 16384) + 64) ∧
    (bitsOf (ws.getD 4 (0 : Word)) 0 32 < r.1.length → cmpCompress x e c par ws inp hist = some (cmpEnd x e c ws 3 false 0 0 r.2.2)) ∧
    (r.1.length ≤ bitsOf (ws.getD 4 (0 : Word)) 0 32 → ∀ x1 x2, dmaWrite x 73 par (bitsOf (ws.getD 3 (0 : Word)) 0 52) r.1 = (x1, .ok) →
      dmaWrite x1 73 par (bitsOf (ws.getD 5 (0 : Word)) 0 52) (r.2.1.take (histLen (bitsOf (ws.getD 0 (0 : Word)) 7 5))) = (x2, .ok) →
      cmpCompress x e c par ws inp hist = some (cmpEnd x2 e c ws 0 false r.1.length inp.length r.2.2))) ∧
  (∀ s u (e : Fin 2) j par ctx x1, let x := getUnit s u
    (x.cph.cmp.get e).job = some j → (cmpChan x e j.chan).owner = some (par, ctx) →
    dmaWrite x 73 par.toNat (j.descAddr + 48) (wordsBytes [j.w6, j.w7]) = (x1, .ok) → j.irq = false →
    ∃ t, exec (.jobComplete u e) s = .next t ∧ ((getUnit t u).cph.cmp.get e).job = none ∧
      (cmpChan (getUnit t u) e j.chan).cons = (cmpChan x1 e j.chan).cons + 1 ∧ (getUnit t u).mem = x1.mem) ∧
  (∀ s u (e : Fin 2) (c : Fin 16) w, let g := cmpChan (getUnit s u) e c.val
    ((bitsOf w 5 7 ≠ 0 ∨ bitsOf w 52 12 ≠ 0) → exec (.cmpRingWrite u e c w) s = .fault .reservedWrite) ∧
    (bitsOf w 5 7 = 0 → bitsOf w 52 12 = 0 → ∃ t, exec (.cmpRingWrite u e c w) s = .next t ∧
      (cmpChan (getUnit t u) e c.val).ring = if g.prod = g.cons then w else g.ring)) ∧
  (∀ s (n : Fin 64) mid sd i w, let m := mbxOf s n
    atChannel s n mid sd → ctlBadBits (.mbx n (8 * i.val)) w = false → ∃ t, exec (.mbxDataWrite n mid i w) s = .next t ∧
      (m.st = .empty → channelIs t n (.composing sd) (setWord [] i.val w) m.len m.flagsA m.flagsB) ∧
      (m.st = .composing sd → channelIs t n (.composing sd) (setWord m.words i.val w) m.len m.flagsA m.flagsB) ∧
      (m.st ≠ .empty → m.st ≠ .composing sd → refusedAt s t n sd)) ∧
  (∀ s (n : Fin 64) mid sd w, let m := mbxOf s n
    let len := bitsOf w 0 5
    atChannel s n mid sd → ctlBadBits (.mbx n 0x80) w = false → ∃ t, exec (.mbxSend n mid w) s = .next t ∧
      (m.st = .composing sd → 1 ≤ len → len ≤ 16 → channelIs t n (.full sd) m.words len m.flagsA m.flagsB ∧
        (if sd.other = .a then (mbxOf t n).lastA else (mbxOf t n).lastB) = m.words.take len) ∧
      ((m.st ≠ .composing sd ∨ len = 0 ∨ 16 < len) → refusedAt s t n sd)) ∧
  (∀ s (n : Fin 64) mid sd, let m := mbxOf s n
    atChannel s n mid sd → ∃ t, exec (.mbxTake n mid) s = .next t ∧
      (m.st = .full sd.other → channelIs t n .empty [] 0 (if sd.other = .a then m.flagsA ||| 1 else m.flagsA)
        (if sd.other = .b then m.flagsB ||| 1 else m.flagsB)) ∧
      (m.st ≠ .full sd.other → refusedAt s t n sd)) ∧
  (∀ s (n : Fin 64) mid sd, let m := mbxOf s n
    atChannel s n mid sd → ∃ t, exec (.mbxRecall n mid) s = .next t ∧
      ((m.st = .composing sd ∨ m.st = .full sd) → channelIs t n .empty [] 0 (if sd = .a then m.flagsA ||| 2 else m.flagsA)
        (if sd = .b then m.flagsB ||| 2 else m.flagsB)) ∧
      (m.st ≠ .composing sd → m.st ≠ .full sd → refusedAt s t n sd)) ∧
  (∀ s (n : Fin 64) mid sd w, let m := mbxOf s n
    atChannel s n mid sd → ctlBadBits (.mbx n 0x90) w = false → ∃ t, exec (.mbxStatusClear n mid w) s = .next t ∧
      channelIs t n m.st m.words m.len (if sd = .a then m.flagsA &&& ~~~(BitVec.ofNat 3 (bitsOf w 8 3)) else m.flagsA)
        (if sd = .b then m.flagsB &&& ~~~(BitVec.ofNat 3 (bitsOf w 8 3)) else m.flagsB)) ∧
  (∀ s (n : Fin 64) w, bitsOf w 49 15 = 0 →
    ((s.mail.lock = true ∨ bindTaken w = false) → exec (.mbxBindWrite n w) s = .next s) ∧
    (s.mail.lock = false → bindTaken w = true → isOff s = true →
      exec (.mbxBindWrite n w) s = .next (cfgBind (cfgBind s .u0 n w) .u1 n w)) ∧
    (s.mail.lock = false → bindTaken w = true → isOff s = false →
      exec (.mbxBindWrite n w) s = .next (issueSvc s (some (boundaryStamp s)) (.cfg (.mbxBind n w))))) ∧
  (∀ s w, bitsOf w 1 63 = 0 →
    (s.mail.lockWritten = false → exec (.mbxLockWrite w) s = .next { s with mail := { s.mail with lock := bitOf w 0, lockWritten := true } }) ∧
    (s.mail.lockWritten = true → exec (.mbxLockWrite w) s = .next s)) ∧
  (∀ s w, bitsOf w 1 63 ≠ 0 → exec (.mbxLockWrite w) s = .fault .reservedWrite) ∧
  (∀ s (fn : Fin 4), (∀ n, midSide (mbxOf s n) (0x10 + fn.val) = none) → exec (.functionLevelReset fn) s = .next s) ∧
  (∀ s (n : Fin 64) (fn : Fin 4) sd, midSide (mbxOf s n) (0x10 + fn.val) = some sd →
    ((mbxOf s n).st = .composing sd ∨ (mbxOf s n).st = .full sd) → recallOf (0x10 + fn.val) s n = mbxAccess s n (0x10 + fn.val) mbxRecallState) ∧
  (∀ s (fn : Fin 4), exec (.functionLevelReset fn) s = .next ((List.finRange 64).foldl (recallOf (0x10 + fn.val)) s))

namespace Sys2Proof.Claims

open Sys2Proof.Machine

/-- A command of a row that comes with its arguments (16 R466 to R470): Sahya serves it, no frame of it waits in the queue, and its checks
give the code `k`. -/
def cmdGives (s : State) (h : CmdHdr) (g v : Nat) (args : List Word) (chk : State → Option Nat → List Word → Nat) (k : Nat) : Prop :=
  cmdServed s h g v = true ∧ s.sahya.inbox.find? (isFrame h g v) = none ∧ cmdCode s h g v args chk = k

/-- What a command row does (16 R470): with code OK its effect `eff` and a reply with the result words `rs` of the state before it; with any
other code the reply with that code and nothing else; a command that Sahya does not serve changes nothing. -/
def commandDoes (row : CmdHdr → Instr) (g v : Nat) (args : List Word) (chk : State → Option Nat → List Word → Nat) (eff : CmdHdr → State → State)
    (rs : State → List Word) : Prop :=
  ∀ s h, (cmdGives s h g v args chk 0 → exec (row h) s = .next (postReply (eff h s) h g v 0 0 (rs s))) ∧
    (∀ k, k ≠ 0 → cmdGives s h g v args chk k → exec (row h) s = .next (postReply s h g v k 0 [])) ∧
    (cmdServed s h g v = false → exec (row h) s = .next s)

/-- A command that only reads. -/
def commandReads (row : CmdHdr → Instr) (g v : Nat) (args : List Word) (chk : State → Option Nat → List Word → Nat) (rs : State → List Word) : Prop :=
  commandDoes row g v args chk (fun _ s => s) rs

/-- A command whose effect is a staked change of levelled state, without results (16 R485). -/
def commandStakes (row : CmdHdr → Instr) (g v : Nat) (args : List Word) (chk : State → Option Nat → List Word → Nat) (e : CfgEffect) : Prop :=
  commandDoes row g v args chk (fun _ s => cfgFw s none e) (fun _ => [])

/-- A command whose effect changes the state that Sahya itself keeps, without results. -/
def commandSets (row : CmdHdr → Instr) (g v : Nat) (args : List Word) (chk : State → Option Nat → List Word → Nat) (f : State → State) : Prop :=
  commandDoes row g v args chk (fun _ s => f s) (fun _ => [])

end Sys2Proof.Claims
/-- 16 R470 to R473, R548 and the sections of each command: the commands of LEVEL, CLOSURE, CHAIN, PARCEL, CODE, STATION, PATH and KEY that
Sahya serves take their effect and reply OK with their results; a refused one replies with its code and changes nothing. -/
def Obligations.SahyaCommandsOnTheModule : Prop :=
  (∀ lag dv, commandSets (.levelConfig · lag dv) 1 1 [lag, dv] chkLevelConfig (fun s => doLevelConfig lag dv s none)) ∧
  (∀ mode, commandSets (.levelStart · mode) 1 2 [mode] chkLevelStart
    (fun s => { s with sahya := { s.sahya with startMode := some (mode.setWidth 2) } })) ∧
  (∀ w r mr mp, commandDoes (.levelRelevel · w r mr mp) 1 3 [w, r, mr, mp] chkLevelRelevel
    (fun h s => relevelStart s (relevelOf s (unitNo (bitsOf w 0 1)) (bitsOf w 1 2) r.toNat mr.toNat mp.toNat (bitOf w 3) false
      (some (h.chan, h.side)) h.v2 h.tag)) (fun _ => [])) ∧
  (∀ s h, cmdGives s h 1 4 [] chkLevelCancel 0 → exec (.levelCancel h) s = .next (relevelAbort (postReply s h 1 4 0 0 []) 0x22)) ∧
  (∀ f c, commandReads (.levelBench · f c 0) 1 5 [f, c, 0] chkLevelBench (fun s => benchPairs s f.toNat c.toNat)) ∧
  (∀ f c, commandReads (.levelBench · f c 1) 1 5 [f, c, 1] chkLevelBench benchSigs) ∧
  commandReads (.levelMap ·) 1 6 [] chkNone mapWords ∧
  (∀ op cores, commandSets (.levelDebug · op cores) 1 7 [op, cores] chkLevelDebug (fun s => debugRequest s (decide (op = 1)) (cores.setWidth 48))) ∧
  (∀ p a w i, commandStakes (.closureConfig · p a w i) 2 1 [p, a, w, i] chkClosureConfig
    (.cloCfg (decide (p = 1)) (a.setWidth 2) (w.setWidth 8) (i.setWidth 16))) ∧
  (∀ s h d r, s.sahya.injTag = none → cmdGives s h 2 2 [d, r] chkClosureInject 0 → liveDies s (d.setWidth 4) ≠ 0 →
    exec (.closureInject h d r) s =
      .next (startInject { s with sahya := { s.sahya with injTag := some (h, liveDies s (d.setWidth 4)) } } (liveDies s (d.setWidth 4)) (decide (r = 1)))) ∧
  commandReads (.closureStatus ·) 2 3 [] chkNone closureWords ∧
  (∀ cn, commandSets (.chainStart · cn) 3 1 [cn] chkChainStart (fun s => if s.gen.run then { s with gen := { s.gen with relock := 1 } }
    else { s with gen := { s.gen with starting := some cn.toNat } })) ∧
  (∀ p sy c, commandStakes (.parcelCreate · p sy c) 4 1 [p, sy, c] chkParcelCreate
    (.parcelCreate (p.setWidth 6) (decide (sy = 1)) (c.setWidth 52))) ∧
  (∀ p, commandStakes (.parcelDestroy · p) 4 2 [p] chkParcelDestroy (.parcelDestroy (p.setWidth 6))) ∧
  (∀ p c e, commandStakes (.parcelCores · p c e) 4 3 [p, c, e] chkParcelCores (.parcelCores (p.setWidth 6) (c.setWidth 48) (e.setWidth 48))) ∧
  (∀ p op e, commandStakes (.parcelMap · p op e) 4 4 [p, op, e] chkParcelMap (.parcelMap (p.setWidth 6) (decide (op = 1)) e)) ∧
  (∀ m a c, commandStakes (.parcelSegment · m a c) 4 5 [m, a, c] chkParcelSegment (.parcelSegment m.toNat a (decide (c = 1)))) ∧
  (∀ op pg, commandSets (.parcelRetire · op pg) 4 6 [op, pg] chkParcelRetire (fun s => doParcelRetire op pg s none)) ∧
  (∀ p v c, commandStakes (.parcelVector · p v c) 4 7 [p, v, c] chkParcelVector
    (.parcelVector (p.setWidth 6) (v.setWidth 8) (some (coreOfWord c)))) ∧
  (∀ p f, commandSets (.codeLoad · p f) 5 1 [p, f] chkCodeLoad (fun s => doCodeLoad f s none)) ∧
  (∀ s h img, cmdGives s h 5 2 [] chkCodeMpatch 0 → Config.patchImage (imgBody (slotByte s 2)) = some img → isOff s = false →
    exec (.codeMpatch h) s = .next (postReply (bodyFw { s with sahya := { s.sahya with mcodePend := true } } none (.mcode img)) h 5 2 0 0
      [img.patchId.setWidth 64])) ∧
  (∀ f c p q, commandStakes (.stationGrant · f c p q) 6 1 [f, c, p, q] chkStationGrant (.stationGrant f.toNat c.toNat (grantee [p] 1) q.toNat)) ∧
  (∀ n, commandReads (.stationQuery · n) 6 2 [n] chkStationQuery (fun s => queryWords (foreState s) n.toNat)) ∧
  (∀ op b w0 w1, commandStakes (.stationBook · op b w0 w1) 6 3 [op, b, w0, w1] chkStationBook (.book (b.setWidth 8) (op.setWidth 2) w0 w1)) ∧
  (∀ b, commandStakes (.stationMirror · b 1) 6 4 [b, 1] chkStationMirror (.bookResend (b.setWidth 8))) ∧
  (∀ b, commandSets (.stationMirror · b 0) 6 4 [b, 0] chkStationMirror id) ∧
  (∀ m j c ps, commandSets (.stationTakeover · m j c ps) 6 5 (m :: j :: c :: ps) chkStationTakeover (fun s => doStationTakeover m j c ps s none)) ∧
  (∀ k, commandDoes (.stationReconcile · k) 6 6 [k] chkStationReconcile (fun _ s => reconcileBy s k.toNat)
    (fun s => let t := reconcileBy s k.toNat
      if t.sahya.recon.isEmpty then [0] else t.sahya.recon)) ∧
  (∀ id, commandSets (.pathModid · id) 7 1 [id] chkPathModid (fun s => doPathModid id s none)) ∧
  (∀ p c m r mc, commandSets (.pathPort · p c m r mc) 7 2 (p :: c :: m :: r :: mc) chkPathPort (fun s => doPathPort p c m r mc s none)) ∧
  (∀ p, commandReads (.pathStatus · p) 7 3 [p] chkPathStatus (fun s => pathWords s p.toNat)) ∧
  (∀ i v hi lo, commandStakes (.pathAddr · i v hi lo) 7 4 [i, v, hi, lo] chkPathAddr
    (.pathAddr (i.setWidth 8) (decide (v = 1)) (BitVec.ofNat 128 (hi.toNat * 2 ^ 64 + lo.toNat)))) ∧
  (∀ g p hf ps, commandStakes (.pathGroup · g p hf ps) 7 5 (g :: p :: hf :: ps) chkPathGroup
    (.pathGroup (g.setWidth 12) (decide (p = 1)) (decide (hf = 1)) (groupPaths (g :: p :: hf :: ps)))) ∧
  (∀ p l, commandStakes (.pathLink · p l) 7 6 [p, l] chkPathLink (.pathLink (p.setWidth 16) (l.setWidth 16) (BitVec.ofNat 4 (bitsOf l 16 4)))) ∧
  (∀ ws, commandSets (.keyInit · ws) 8 1 [] chkKeyInit (doKeyInit ws)) ∧
  (∀ n a ws, commandSets (.keyGenerate · n a ws) 8 2 [n, 0, a] chkKeyGenerate (fun s => fillSlot s n.toNat a (drawnKey (attrAlg a) ws))) ∧
  (∀ n k a b, commandSets (.keyImport · n k a b) 8 3 (n :: k :: a :: b) chkKeyImport
    (fun s => fillSlot s n.toNat a (importedKey s (n :: k :: a :: b)))) ∧
  (∀ n k, commandReads (.keyExport · n k) 8 4 [n, k] chkKeyExport (fun s => exportWords s n.toNat k.toNat)) ∧
  (∀ n, commandReads (.keyAttr · n) 8 5 [n] chkKeySlot (fun s => attrWords s n.toNat)) ∧
  (∀ n, commandSets (.keyDelete · n) 8 6 [n] chkKeySlot (fun s => clearSlot s n.toNat)) ∧
  (∀ s h m, cmdGives s h 8 7 [m] chkMagic 0 → exec (.keyZeroise h m) s = .next (zeroise (postReply s h 8 7 0 0 []) true))

/-- 16 R470 to R473, R476 to R486, 17 R503, 18 R518 to R528 and the sections of each command: the commands of CIPHER, MEM, SCRUB, FAULT,
POWER, CAL, IMAGE and EXPERT. Their result layouts are the model's where the spec gives none (log 53). -/
def Obligations.SahyaCommandsOnItsUnits : Prop :=
  (∀ p q c, commandStakes (.cipherPage · p q c) 9 1 [p, q, c] chkCipherPage (.cipherPage (Fin.ofNat 1024 p.toNat) (ownerOf q c))) ∧
  (∀ e n p c, commandStakes (.cipherChannel · e n p c) 9 2 [e, n, p, c] chkCipherChannel
    (.cipherChannel (Fin.ofNat 2 e.toNat) (Fin.ofNat 16 n.toNat) (ownerOf p c))) ∧
  (∀ e p, commandStakes (.cipherLock · e p) 9 3 [e, p] chkCipherLock (.cipherLock (decide (e = 1)) (Fin.ofNat 1024 p.toNat))) ∧
  (∀ a b, commandReads (.cipherTest · a b) 9 4 [] chkCipherTest (fun s => [testWord s a b])) ∧
  (∀ ws, commandSets (.memConfig · ws) 10 1 ws chkMemConfig (fun s => doMemConfig ws s none)) ∧
  (∀ c r a b d, commandSets (.memBoard · c r a b d) 10 2 [c, r, a, b, d] chkMemBoard (doMemBoard c r [a, b, d])) ∧
  commandReads (.memTrain ·) 10 3 [] chkNone (fun s => [BitVec.ofNat 64 (presBits s), failWord s .u0, failWord s .u1]) ∧
  (∀ f, commandSets (.memFreq · f) 10 4 [f] chkFlag (fun s => doMemFreq f s none)) ∧
  commandReads (.memLost · 0) 10 5 [0] chkMemClear lostWords ∧
  commandDoes (.memLost · 1) 10 5 [1] chkMemClear
    (fun _ s => modBoth s (fun x => { x with mem := { x.mem with coh := { x.mem.coh with lostLog := [] } } })) lostWords ∧
  commandReads (.memLog · 0) 10 6 [0] chkMemClear memLogWords ∧
  (∀ u c e r, commandSets (.memEcctest · u c e r) 10 7 [u, c, e, r] chkMemEcctest (fun s => modUnit s (unitNo u.toNat) (fun x =>
    setMcReg x (Fin.ofNat 12 c.toNat) 0x800 (BitVec.ofNat 64 (e.toNat + 2 * r.toNat))))) ∧
  (∀ c e, commandSets (.memRetire · c e) 10 8 [c, e] chkMemRetire (fun s => doMemRetire c e s none)) ∧
  (∀ w hd, commandSets (.memCtl · w hd) 10 9 [w, hd] chkMemCtl (doMemCtl w hd)) ∧
  (∀ w vs, commandSets (.memTiming · w vs) 10 10 (w :: vs) chkMemTiming (doMemTiming w vs)) ∧
  (∀ p t r, commandSets (.memQos · p t r) 10 11 [p, t, r] chkMemQos
    (fun s => rwsAll (fun c => .mcQos c (Fin.ofNat 8 p.toNat)) (BitVec.ofNat 64 (t.toNat + 2 ^ 16 * r.toNat)) s none)) ∧
  (∀ b l, commandDoes (.scrubRun · b l) 11 1 [b, l] chkScrubRun (fun h s => doScrubRun h b l s none) (fun _ => [])) ∧
  commandStakes (.scrubCancel ·) 11 2 [] chkNone .scrubCancel ∧
  (∀ a b c, commandSets (.faultConfig · a b c) 12 1 [a, b, c] chkFaultConfig (fun s => pendFltConfig s (fltConfigOf a b c))) ∧
  (∀ n, commandReads (.faultRead · n) 12 2 [n] chkFaultRead (fun s => faultReadWords s n.toNat)) ∧
  (∀ c, commandSets (.faultRoute · c) 12 3 [c] chkFaultRoute (doFaultRoute c)) ∧
  (∀ n i, commandSets (.faultInject · n i) 12 4 [n, i] chkFaultInject (fun s => raiseWith unitCheckstop s n.toNat (srcUcc s n.toNat) i true)) ∧
  (∀ f c, commandReads (.faultBbox · 0 f c) 12 5 [0, f, c] chkFaultBbox (fun s => bbWords s f.toNat c.toNat)) ∧
  (∀ f c, commandSets (.faultBbox · 1 f c) 12 5 [1, f, c] chkFaultBbox (fun s => bbFreezeWith s 4)) ∧
  (∀ f c, commandSets (.faultBbox · 2 f c) 12 5 [2, f, c] chkFaultBbox bbReleaseNow) ∧
  (∀ s h d on, cmdGives s h 13 1 [d, on] chkPowerDomain 0 →
    (48 ≤ d.toNat → exec (.powerDomain h d on) s = .next (postReply (dieRequest s (domainDie d.toNat) (decide (on = 1))) h 13 1 0 0 [])) ∧
    (d.toNat < 48 → inServiceUnit s (domainOf d.toNat).1 = false → exec (.powerDomain h d on) s = .next (postReply
      (domRequest s (domainOf d.toNat).1 (domainOf d.toNat).2 (decide (on = 1)) false (getUnit s (domainOf d.toNat).1).ucc) h 13 1 0 0 []))) ∧
  (∀ rd, commandReads (.powerRead · rd) 13 2 [] (chkPowerRead rd) (fun s => (List.range 52).map (pwrDomWord s) ++ rd)) ∧
  (∀ m l, commandSets (.powerThrottle · m l) 13 3 [m, l] chkPowerThrottle (fun s => doPowerThrottle m l s none)) ∧
  (∀ s h k u, cmdGives s h 13 4 [k, u] chkPowerReset 0 → (k ≠ 2 →
      exec (.powerReset h k u) s = .next (postReply (doPowerReset h k u s) h 13 4 0 0 [])) ∧
    (k = 2 → exec (.powerReset h k u) s = .next (beginReset (postReply s h 13 4 0 0 []) false false 6))) ∧
  (∀ o c, commandReads (.calRead · o c) 14 1 [o, c] chkCalRead (fun s => (List.range c.toNat).map (fun k => calWord s (o.toNat + 8 * k)))) ∧
  (∀ o ws, commandSets (.calWrite · o ws) 14 2 (o :: ws) chkCalWrite
    (fun s => { s with boot := { s.boot with calStage := some (putWords (calStaged s) o.toNat ws) } })) ∧
  (∀ m, commandSets (.calCommit · m) 14 3 [m] chkCalCommit (fun s => { s with boot := { s.boot with cal := calStaged s } })) ∧
  (∀ n o ws, commandSets (.imageWrite · n o ws) 15 1 (n :: o :: ws) chkImageWrite (fun s => writeSlot s n.toNat o.toNat ws)) ∧
  (∀ s h n, cmdGives s h 15 2 [n] chkImageVerify 0 → s.boot.recovery = false → imgKind (slotByte (postReply s h 15 2 0 0 []) 2) ≠ 0 →
    exec (.imageVerify h n) s = .next (postReply s h 15 2 0 0 [])) ∧
  (∀ n, commandSets (.imageActivate · n) 15 3 [n] chkImageActivate (doImageActivate n)) ∧
  commandSets (.imageCommit ·) 15 4 [] chkNone
    (fun s => { s with boot := { s.boot with counter := later s.boot.counter s.boot.runningSvn } }) ∧
  (∀ g, commandSets (.imageRevoke · g) 15 5 [g] chkImageRevoke
    (fun s => { s with boot := { s.boot with revoked := s.boot.revoked ||| BitVec.ofNat 4 (2 ^ g.toNat) } })) ∧
  commandReads (.imageStatus ·) 15 6 [] chkNone imageWords ∧
  commandDoes (.expertEnable ·) 16 1 [] chkNone (fun _ s => { s with sahya := { s.sahya with expEn := true } })
    (fun s => expCtlWord { s with sahya := { s.sahya with expEn := true } } :: rawViewOffs) ∧
  commandSets (.expertDisable ·) 16 2 [] chkNone (fun s => { s with sahya := { s.sahya with expEn := false } })

/-- 16 R456, R457, R484, R485, 17 R490 to R506: the expert window and register writes act while enabled, a reserved bit being the
model's fault (log 9); the watchdog and the lockstep stop the service pair; an event counts in its source and is severe at N; the bench
operations act while VAON is present, with their keys. INFO words that the spec leaves open are free values (log 8). -/
def Obligations.FaultsAndTheBench : Prop :=
  (∀ s go, s.sahya.expEn = true → bitsOf go 1 63 = 0 → bitOf go 0 = true →
    (swBusyNow s = true → exec (.expertStakedWrite go) s = .next { s with sahya := { s.sahya with swRefused := true } }) ∧
    (swBusyNow s = false → winLevelled (bitsOf s.sahya.swAddr 3 23 * 8) = true → isOff s = true →
      exec (.expertStakedWrite go) s = .next (modBoth s (fun x => winWrite x (bitsOf s.sahya.swAddr 3 23 * 8) s.sahya.swData)))) ∧
  (∀ s go, s.sahya.expEn = false → exec (.expertStakedWrite go) s = .next s) ∧
  (∀ s u off w, s.sahya.expEn = true → off.toNat % 8 = 0 → winBadBits off.toNat w = false →
    exec (.expertRawWrite u off w) s =
      .next (modUnit (if winLevelled off.toNat then breakLevel s u else s) u (fun x => winWrite x off.toNat w))) ∧
  (∀ s u off w, s.sahya.expEn = true → off.toNat % 8 = 0 → winBadBits off.toNat w = true →
    exec (.expertRawWrite u off w) s = .fault .reservedWrite) ∧
  (∀ s w, s.pow.vaon = true → bitsOf w 2 6 = 0 → bitsOf w 16 48 = 0 →
    exec (.registerWrite .bench 0x30 w) s = .next { s with bench := { s.bench with cfg := w } }) ∧
  (∀ s w, s.pow.vaon = true → bitsOf w 5 59 = 0 → bitOf w 0 = false → bitOf w 1 = true → bitOf w 2 = true → bitOf w 3 = true → bitOf w 4 = true →
    exec (.registerWrite .bench 0x18 w) s = .next s) ∧
  (∀ s u p sup off w, let m : CtlMaster := { parcel := p.toNat, sup := sup }
    (getUnit s u).executing = true → off.toNat % 8 = 0 → ctlListed (ctlLoc off.toNat) = true →
    (ctlAccepts (getUnit s u) m true (ctlLoc off.toNat) = true → ctlBadBits (ctlLoc off.toNat) w = false →
      exec (.registerWrite (.control u p sup) off w) s = .next (ctlWrite s u m (ctlLoc off.toNat) w)) ∧
    (ctlAccepts (getUnit s u) m true (ctlLoc off.toNat) = false → exec (.registerWrite (.control u p sup) off w) s = .next s)) ∧
  (∀ s, s.sahya.running = true → s.sahya.fwDown = false → s.sahya.lockStop = false → exec .svcWatchdog s =
    .next (raiseFree { s with sahya := { s.sahya with fwDown := true, expEn := true, running := false } } 0x001 (foreState s).ucc)) ∧
  (∀ s, s.pow.phase ≠ 0 → s.sahya.lockStop = false → ∃ s1, exec .svcLockstep s = .next (raiseFree s1 0x000 (foreState s1).ucc) ∧
    s1.sahya.lockStop = true ∧ s1.sahya.running = false ∧ s1.gen.stopped = true) ∧
  (∀ s src ucc info, s.pow.vaon = true → src.toNat ≠ 5 → src.toNat ≠ 6 →
    exec (.faultEvent src ucc info) s = .next (raiseFault s src.toNat ucc info)) ∧
  (∀ (x : Source) cn, x.count < 2 ^ 32 - 1 → (countEvent x cn).1.count = x.count + 1 ∧
    (x.openW = true → x.wcnt + 1 ≠ x.n.toNat → (countEvent x cn).2 = false ∧ (countEvent x cn).1.wcnt = x.wcnt + 1 ∧ (countEvent x cn).1.openW = true) ∧
    (x.openW = true → x.wcnt + 1 = x.n.toNat → (countEvent x cn).2 = true ∧ (countEvent x cn).1.openW = false) ∧
    (x.openW = false → x.n = 1 → (countEvent x cn).2 = true)) ∧
  (∀ s, s.bench.mrDelay = true → exec .mrDelayExpiry s = .next (beginReset s false false 5)) ∧
  (∀ s, s.gen.run = true → exec .tickFailure s = .next (raiseFree s 0x002 (foreState s).ucc)) ∧
  (∀ s, s.pow.vaon = true → bitOf s.bench.cfg 0 = true → s.bench.checkstop = false →
    exec .checkstopIn s = .next (raiseFree s 0x00A (foreState s).ucc)) ∧
  (∀ s, s.pow.vaon = true →
    exec .hostCheckstop s = .next (raiseFree s 0x00B (foreState s).ucc) ∧
    (s.bench.frozen = false → exec .bbFreeze s = .next { s with bench := { s.bench with frozen := true, fcause := 2, snap := snapWords s } }) ∧
    (s.bench.frozen = true → exec .bbFreeze s = .next s ∧
      exec .bbRelease s = .next { s with bench := { s.bench with frozen := false, fcause := 0, snap := [], head := 0, wrapped := false } }) ∧
    exec .errorSet s = .next { s with bench := { s.bench with error := true } } ∧
    exec .errorClr s = .next { s with bench := { s.bench with error := false } } ∧
    exec .fltFirstClear s = .next { s with bench := { s.bench with fltFirst := 0, fltFirstCn := 0 } } ∧
    exec (.benchResetWarm 0x5A5A) s = .next (beginReset s false true 3) ∧ exec (.benchResetCold 0x5A5A) s = .next (beginReset s true true 4) ∧
    (∀ key, key ≠ 0x5A5A → exec (.benchResetWarm key) s = .next s ∧ exec (.benchResetCold key) s = .next s) ∧
    exec (.benchZeroArm 0x5A5A) s = .next { s with bench := { s.bench with zeroArmed := true } } ∧
    (s.bench.zeroArmed = true → exec (.benchZero 0xA5A5) s = .next (zeroise { s with bench := { s.bench with zeroArmed := false } } false)) ∧
    (s.bench.zeroArmed = false → exec (.benchZero 0xA5A5) s = .next s) ∧
    (∀ key, key ≠ 0x5A5A → key ≠ 0xA5A5 → exec (.benchZero key) s = .next { s with bench := { s.bench with zeroArmed := false } })) ∧
  (∀ s, exec .benchZeroArmExpiry s = .next { s with bench := { s.bench with zeroArmed := false } }) ∧
  (∀ s, s.pow.vaon = false → exec .errorSet s = .next s ∧ exec .hostCheckstop s = .next s ∧ exec (.benchResetCold 0x5A5A) s = .next s)

/-- 17 R500 to R502, 18 R509 to R534: the lands, the resets, start-up, the power domains, throttling by R528, rails and clocks. That
REFCLK and JTAG codes are what they are at VAON is the model's choice (log 12, log 14). -/
def Obligations.PowerResetsAndStartUp : Prop :=
  (∀ s, s.pow.vaon = false → exec .vaonApply s = .next { s with pow := { s.pow with vaon := true } }) ∧
  (∀ s, s.pow.vaon = true → exec .vaonRemove s = .next (vaonLost s) ∧ (vaonLost s).boot.flash = s.boot.flash ∧ (vaonLost s).boot.cal = s.boot.cal ∧
    (vaonLost s).keys.slots = [] ∧ (vaonLost s).pow.phase = 0) ∧
  (∀ s, exec .pwrGoodRise s = .next { s with pow := { s.pow with pwrGood := s.pow.vaon } }) ∧
  (∀ s, s.pow.pwrGood = true → exec .pwrGoodFall s =
    .next (beginReset (bbFreezeWith { s with pow := { s.pow with pwrGood := false } } 3) true true 2)) ∧
  (∀ s, s.pow.vaon = true → exec (.modResetN true) s = .next { s with pow := { s.pow with modResetN := true } } ∧
    exec (.modResetN false) s = .next (beginReset { s with pow := { s.pow with modResetN := false } } true true 2) ∧
    exec (.perstN true) s = .next { s with pow := { s.pow with perstN := true } } ∧
    exec (.perstN false) s = .next (beginReset { s with pow := { s.pow with perstN := false } } false true 1)) ∧
  (∀ s cold host cause, s.pow.vaon = true → s.pow.phase ≠ 0 → let t := beginReset s cold host cause
    t.bench.lastReset = cause ∧ t.bench.checkstop = false ∧ t.bench.error = (s.bench.error && !cold) ∧ t.bench.cfg = s.bench.cfg ∧
    t.bench.fltFirst = s.bench.fltFirst ∧ t.pow.phase = 0 ∧ t.gen = {} ∧ t.mail = {} ∧ t.keys.root0 = s.keys.root0 ∧ t.keys.slots = [] ∧
    t.boot.flash = s.boot.flash ∧ t.u0.executing = false ∧ t.u1.executing = false ∧ t.ports = []) ∧
  (∀ s cold host cause, s.pow.vaon = true → s.pow.phase = 0 → s.pow.reset = .cold → beginReset s cold host cause = s) ∧
  (∀ s, exitReady s = true → ∃ t, exec .resetExit s = .next t ∧ t.pow.phase = 1) ∧
  (∀ s, exitReady s = false → exec .resetExit s = .next s) ∧
  (∀ s, phaseRuns s = true → (s.pow.phase = 3 ∨ s.pow.phase = 4) →
    exec (.startupPhaseEnd true) s = .next { s with pow := { s.pow with phase := s.pow.phase + 1 } }) ∧
  (∀ s, phaseRuns s = true → s.pow.phase = 5 → ∃ t, exec (.startupPhaseEnd true) s = .next t ∧ t.pow.phase = 6 ∧
    t.u0.mem.data = [] ∧ t.u0.mem.dram = [] ∧ t.u1.mem.data = [] ∧ t.u1.mem.dram = []) ∧
  (∀ s, phaseRuns s = true → exec (.startupPhaseEnd false) s = .next (phaseFails s)) ∧
  (∀ s, phaseRuns s = true → s.pow.phase ≠ 1 → s.pow.phase ≠ 9 → exec .bringupPhaseTimeout s = .next (phaseFails s)) ∧
  (∀ s u, (∀ e ∈ s.pow.unitReset, e.1 ≠ u) → exec (.unitResetEnd u) s = .next s) ∧
  (∀ s u, (∃ e ∈ s.pow.unitReset, e.1 = u) → (∀ e ∈ s.sahya.resetTags, e.1 ≠ u) →
    exec (.unitResetEnd u) s = .next { s with pow := { s.pow with unitReset := s.pow.unitReset.filter (fun e => decide (e.1 ≠ u)) } }) ∧
  (∀ s (d : Fin 52), d.val < 24 → (domOf s d.val).st ≠ domOff → (domOf s d.val).st ≠ domOn → s.u0.executing = false →
    exec (.powerSequenceEnd d true) s = .next (domEnd s .u0 (d.val % 24) (domOf s d.val).due) ∧
    exec (.powerSequenceEnd d false) s =
      .next (domEnd (raiseUnit s .u0 0x212 (BitVec.ofNat 64 d.val)) .u0 (d.val % 24) (domOf s d.val).due)) ∧
  (∀ s (d : Fin 52), d.val < 48 → ((domOf s d.val).st = domOff ∨ (domOf s d.val).st = domOn) → exec (.powerSequenceEnd d true) s = .next s) ∧
  (∀ s (d : Nat), (domOf s (48 + d)).st = domPoweringOn → d < 4 →
    ∃ t, exec (.powerSequenceEnd (Fin.ofNat 52 (48 + d)) true) s = .next t ∧ (domOf t (48 + d)).st = domOn ∧
      (dieOf t (Fin.ofNat 4 d)).lanesDown = true) ∧
  (∀ s mt p0 p1, s.sahya.running = true → s.sahya.fwDown = false → s.sahya.fixedThr = false → s.bench.checkstop = false →
    (95 ≤ mt → ∃ n, exec (.throttleControl mt p0 p1) s =
      .next (setThrottle { s with sahya := { s.sahya with coolMs := n } } none 7)) ∧
    (90 ≤ mt → mt < 95 → s.sahya.level ≠ 7 → ∃ n, exec (.throttleControl mt p0 p1) s =
      .next (setThrottle { s with sahya := { s.sahya with coolMs := n } } none (s.sahya.level + 1))) ∧
    (mt < 85 → p0 < 585 → p1 < 585 → s.sahya.coolMs = 9 → s.sahya.level ≠ 0 → exec (.throttleControl mt p0 p1) s =
      .next (setThrottle { s with sahya := { s.sahya with coolMs := 0 } } none (s.sahya.level - 1)))) ∧
  (∀ s (r : Fin 12), (r.val = 0 ∨ (2 ≤ r.val ∧ r.val < 5) →
      ∃ t, exec (.railLoss r) s = .next t ∧ t.u0.powered = false ∧ t.u0.executing = false ∧ t.u1 = s.u1) ∧
    (8 ≤ r.val → exec (.railLoss r) s = .next (dieStop s (Fin.ofNat 4 (r.val - 8))))) ∧
  (∀ s, s.pow.refclk = true → (s.pow.phase = 0 ∨ 8 < s.pow.phase) → s.gen.run = true →
    exec .refclkLoss s = .next { s with pow := { s.pow with refclk := false }, gen := { s.gen with stopped := true } }) ∧
  (∀ s, exec .refclkReturn s = .next { s with pow := { s.pow with refclk := true } }) ∧
  (∀ s ir, s.pow.modResetN = false → exec (.jtagInstruction ir) s = .next { s with pow := { s.pow with jtagIr := ir } }) ∧
  (∀ s ir, Config.jtagDrives ir = true → s.pow.modResetN = true →
    exec (.jtagInstruction ir) s = .next { s with pow := { s.pow with jtagIr := 0xFF } })
/-- A step takes the command at the front of the queue and is its execution with the queue's rest, whatever the command; on an empty queue
the block idles (the model's choice, log 1). -/
def Obligations.AStepExecutesTheFrontCommand : Prop :=
  (∀ (c : Instr) (rest : List Instr) (s : State), s.pending = c :: rest → step s = exec c { s with pending := rest }) ∧
  (∀ s : State, s.pending = [] → step s = .next s)

/-- 02 R49, 03 R93, 04 R128, 12 R382, 16 R461, R465, 17 R490, R506, 18 R509, R515, and the model's state after VAON is applied (log 10): the
registers hold the Reset column's values, nothing runs, the channels are EMPTY, the queue is empty, every byte memory lists nothing and
has its canonical form; general registers are zero, the model's choice (log 5). -/
def Obligations.ResetLeaves : Prop :=
  State.reset.pending = [] ∧ memoriesWf State.reset = true ∧ isOff State.reset = true ∧
  (∀ u, let x := getUnit State.reset u
    x.ucc = 0 ∧ x.executing = false ∧ x.dropped = false ∧ x.chn.cfg = 2 ∧ x.chn.status = 0x40 ∧ x.chn.sync = 0x140 ∧ x.lvl.cfg = 8 ∧
    x.lvl.status = 0x3000 ∧ x.clo.cfg = 0xA00 ∧ x.clo.status = 0 ∧ x.clo.drop = 0 ∧ x.mem.data = [] ∧ x.mem.dram = [] ∧ x.fb.mem = [] ∧
    (∀ c : Fin 12, mcReg x c 0 = (if c.val = 0 ∨ c.val = 6 then 0x404 else 0x400) ∧ mcReg x c 0x060 = 0x2060 ∧ mcReg x c 0x018 = 0) ∧
    (∀ l, (unitCore x l).pc = 0 ∧ (unitCore x l).psw.ie = false ∧ (unitCore x l).rsvValid = false ∧ (unitCore x l).txn = none)) ∧
  (∀ n, (mbxOf State.reset n).st = .empty ∧ (mbxOf State.reset n).bind = 0) ∧ State.reset.mail.lock = false ∧
  State.reset.bench.checkstop = false ∧ State.reset.bench.error = false ∧ State.reset.bench.frozen = false ∧ State.reset.bench.cfg = 0xA02 ∧
  State.reset.bench.fltFirst = 0 ∧ State.reset.bench.lastReset = 0 ∧
  (∀ n i, srcInfo n = some i → (srcOf State.reset n i).count = 0 ∧ (srcOf State.reset n i).openW = false) ∧
  State.reset.gen.run = false ∧ State.reset.gen.cn = 0 ∧ State.reset.pow.vaon = true ∧ State.reset.pow.reset = .cold ∧ State.reset.pow.phase = 0 ∧
  exitReady State.reset = false

/-- Every step keeps every byte memory of the machine in its canonical form (addresses strictly rising, no entry equal to what an unlisted
address reads as): the coherent value and the DRAM array of both units, both fieldbook stacks, the service memory. -/
def Obligations.EveryStepKeepsTheMemoriesCanonical : Prop :=
  ∀ s t : State, memoriesWf s = true → step s = .next t → memoriesWf t = true
end

