-- ==== Sys2Proof/Laws/Tab.lean ====
section
/-! SUPPORT. Laws of the sparse table: read after write, and the canonical form kept. -/
namespace Sys2Proof.Laws

open Sys2Proof.Machine

variable {V : Type}

theorem tabGet_tabErase_ne (d : Nat → V) (t : Tab V) {n m : Nat} (h : n ≠ m) :
    tabGet d (tabErase t n) m = tabGet d t m := by
  induction t with
  | nil => rfl
  | cons e r ih =>
    obtain ⟨k, v⟩ := e
    by_cases hk : k = n
    · subst hk; simp [tabErase, tabGet, h, ih]
    · simp [tabErase, tabGet, hk, ih]

theorem tabGet_tabErase_same (d : Nat → V) (t : Tab V) (n : Nat) : tabGet d (tabErase t n) n = d n := by
  induction t with
  | nil => rfl
  | cons e r ih =>
    obtain ⟨k, v⟩ := e
    by_cases hk : k = n <;> simp [tabErase, tabGet, hk, ih]

theorem tabErase_none {n : Nat} (t : Tab V) (h : ∀ e ∈ t, e.1 ≠ n) : tabErase t n = t := by
  induction t with
  | nil => rfl
  | cons e r ih =>
    obtain ⟨k, v⟩ := e
    have hk : k ≠ n := h (k, v) (by simp)
    simp [tabErase, hk, ih (fun e he => h e (by simp [he]))]

theorem tabErase_mem_ne (t : Tab V) (n : Nat) : ∀ e ∈ tabErase t n, e.1 ≠ n := by
  induction t with
  | nil => simp [tabErase]
  | cons e r ih =>
    obtain ⟨k, v⟩ := e
    by_cases hk : k = n
    · simpa [tabErase, hk] using ih
    · simp only [tabErase, hk, if_false, List.mem_cons]
      rintro e (rfl | he)
      · exact hk
      · exact ih e he

theorem tabErase_idem (t : Tab V) (n : Nat) : tabErase (tabErase t n) n = tabErase t n :=
  tabErase_none _ (tabErase_mem_ne t n)

theorem tabGet_tabInsert_same (d : Nat → V) (t : Tab V) (n : Nat) (w : V) (h : ∀ e ∈ t, e.1 ≠ n) :
    tabGet d (tabInsert t n w) n = w := by
  induction t with
  | nil => simp [tabInsert, tabGet]
  | cons e r ih =>
    obtain ⟨k, v⟩ := e
    have hk : k ≠ n := h (k, v) (by simp)
    by_cases hl : n < k
    · simp [tabInsert, hl, tabGet]
    · simp [tabInsert, hl, tabGet, hk, ih (fun e he => h e (by simp [he]))]

theorem tabGet_tabInsert_ne (d : Nat → V) (t : Tab V) {n m : Nat} (w : V) (h : n ≠ m) :
    tabGet d (tabInsert t n w) m = tabGet d t m := by
  induction t with
  | nil => simp [tabInsert, tabGet, h]
  | cons e r ih =>
    obtain ⟨k, v⟩ := e
    by_cases hl : n < k
    · simp [tabInsert, hl, tabGet, h]
    · simp [tabInsert, hl, tabGet, ih]

theorem tabErase_tabInsert (t : Tab V) (n : Nat) (w : V) (h : ∀ e ∈ t, e.1 ≠ n) : tabErase (tabInsert t n w) n = t := by
  induction t with
  | nil => simp [tabInsert, tabErase]
  | cons e r ih =>
    obtain ⟨k, v⟩ := e
    have hk : k ≠ n := h (k, v) (by simp)
    have hr := ih (fun e he => h e (by simp [he]))
    by_cases hl : n < k
    · simp [tabInsert, hl, tabErase, hk, tabErase_none r (fun e he => h e (by simp [he]))]
    · simp [tabInsert, hl, tabErase, hk, hr]

theorem tabErase_mem {t : Tab V} {n : Nat} {e : Nat × V} (h : e ∈ tabErase t n) : e ∈ t := by
  induction t with
  | nil => simp [tabErase] at h
  | cons f r ih =>
    obtain ⟨k, v⟩ := f
    by_cases hk : k = n
    · simp only [tabErase, hk, if_true] at h; exact List.mem_cons_of_mem _ (ih h)
    · simp only [tabErase, hk, if_false, List.mem_cons] at h
      rcases h with rfl | h
      · simp
      · exact List.mem_cons_of_mem _ (ih h)

theorem tabInsert_mem {t : Tab V} {n : Nat} {w : V} {e : Nat × V} (h : e ∈ tabInsert t n w) : e = (n, w) ∨ e ∈ t := by
  induction t with
  | nil => simpa [tabInsert] using h
  | cons f r ih =>
    obtain ⟨k, v⟩ := f
    by_cases hl : n < k
    · simpa [tabInsert, hl] using h
    · simp only [tabInsert, hl, if_false, List.mem_cons] at h
      rcases h with rfl | h
      · simp
      · rcases ih h with rfl | h
        · simp
        · simp [h]

variable [DecidableEq V]

/-- A read after a write to the same key gives the value written. -/
@[simp] theorem tabGet_tabSet_same (d : Nat → V) (t : Tab V) (n : Nat) (w : V) : tabGet d (tabSet d t n w) n = w := by
  unfold tabSet
  split
  · next h => rw [tabGet_tabErase_same, h]
  · exact tabGet_tabInsert_same d _ n w (tabErase_mem_ne t n)

/-- A write leaves every other key alone. -/
theorem tabGet_tabSet_ne (d : Nat → V) (t : Tab V) {n m : Nat} (w : V) (h : n ≠ m) :
    tabGet d (tabSet d t n w) m = tabGet d t m := by
  unfold tabSet
  split
  · exact tabGet_tabErase_ne d t h
  · rw [tabGet_tabInsert_ne d _ w h, tabGet_tabErase_ne d t h]

/-- Both cases of a read after a write. -/
theorem tabGet_tabSet (d : Nat → V) (t : Tab V) (n m : Nat) (w : V) :
    tabGet d (tabSet d t n w) m = if n = m then w else tabGet d t m := by
  by_cases h : n = m
  · subst h; simp
  · simp [h, tabGet_tabSet_ne d t w h]

@[simp] theorem tabErase_tabSet (d : Nat → V) (t : Tab V) (n : Nat) (w : V) : tabErase (tabSet d t n w) n = tabErase t n := by
  unfold tabSet
  split
  · exact tabErase_idem t n
  · exact tabErase_tabInsert _ n w (tabErase_mem_ne t n)

/-- A second write to the same key stands alone. -/
@[simp] theorem tabSet_tabSet (d : Nat → V) (t : Tab V) (n : Nat) (v w : V) :
    tabSet d (tabSet d t n v) n w = tabSet d t n w := by
  conv_lhs => unfold tabSet
  conv_rhs => unfold tabSet
  rw [show tabErase (if v = d n then tabErase t n else tabInsert (tabErase t n) n v) n = tabErase t n from tabErase_tabSet d t n v]

theorem tabWf_cons {d : Nat → V} {k : Nat} {v : V} {r : Tab V} :
    tabWf d ((k, v) :: r) = true ↔ v ≠ d k ∧ (∀ e ∈ r, k < e.1) ∧ tabWf d r = true := by
  simp [tabWf, and_assoc]

theorem tabErase_wf (d : Nat → V) (t : Tab V) (n : Nat) (h : tabWf d t = true) : tabWf d (tabErase t n) = true := by
  induction t with
  | nil => rfl
  | cons f r ih =>
    obtain ⟨k, v⟩ := f
    obtain ⟨h1, h2, h3⟩ := tabWf_cons.1 h
    by_cases hk : k = n
    · simp [tabErase, hk, ih h3]
    · simp only [tabErase, hk, if_false]
      exact tabWf_cons.2 ⟨h1, fun e he => h2 e (tabErase_mem he), ih h3⟩

theorem tabInsert_wf (d : Nat → V) (t : Tab V) (n : Nat) (w : V) (hw : w ≠ d n) (hn : ∀ e ∈ t, e.1 ≠ n)
    (h : tabWf d t = true) : tabWf d (tabInsert t n w) = true := by
  induction t with
  | nil => simp [tabInsert, tabWf, hw]
  | cons f r ih =>
    obtain ⟨k, v⟩ := f
    obtain ⟨h1, h2, h3⟩ := tabWf_cons.1 h
    have hk : k ≠ n := hn (k, v) (by simp)
    by_cases hl : n < k
    · simp only [tabInsert, hl, if_true]
      refine tabWf_cons.2 ⟨hw, ?_, h⟩
      rintro e he
      rcases List.mem_cons.1 he with rfl | he
      · exact hl
      · exact lt_trans hl (h2 e he)
    · simp only [tabInsert, hl, if_false]
      refine tabWf_cons.2 ⟨h1, ?_, ih (fun e he => hn e (by simp [he])) h3⟩
      intro e he
      rcases tabInsert_mem he with rfl | he
      · simp only; omega
      · exact h2 e he

/-- A write keeps the canonical form. -/
theorem tabSet_wf (d : Nat → V) (t : Tab V) (n : Nat) (w : V) (h : tabWf d t = true) : tabWf d (tabSet d t n w) = true := by
  unfold tabSet
  split
  · exact tabErase_wf d t n h
  · next hw => exact tabInsert_wf d _ n w hw (tabErase_mem_ne t n) (tabErase_wf d t n h)

/-- A write of many keys keeps the canonical form. -/
theorem tabSetList_wf (d : Nat → V) (ws : List V) (t : Tab V) (n : Nat) (h : tabWf d t = true) :
    tabWf d (tabSetList d t n ws) = true := by
  induction ws generalizing t n with
  | nil => exact h
  | cons w ws ih => exact ih _ _ (tabSet_wf d t n w h)

/-- A read below a written range, or above it, gives what it gave. -/
theorem tabGet_tabSetList_out (d : Nat → V) (ws : List V) (t : Tab V) (n m : Nat) (h : m < n ∨ n + ws.length ≤ m) :
    tabGet d (tabSetList d t n ws) m = tabGet d t m := by
  induction ws generalizing t n with
  | nil => rfl
  | cons w ws ih =>
    simp only [List.length_cons] at h
    rw [tabSetList, ih _ _ (by omega), tabGet_tabSet_ne d t w (by omega)]

theorem tabFilter_wf (d : Nat → V) (p : Nat × V → Bool) (t : Tab V) (h : tabWf d t = true) : tabWf d (t.filter p) = true := by
  induction t with
  | nil => rfl
  | cons f r ih =>
    obtain ⟨k, v⟩ := f
    obtain ⟨h1, h2, h3⟩ := tabWf_cons.1 h
    by_cases hp : p (k, v) = true
    · rw [List.filter_cons_of_pos hp]
      exact tabWf_cons.2 ⟨h1, fun e he => h2 e (List.mem_filter.1 he).1, ih h3⟩
    · rw [List.filter_cons_of_neg hp]; exact ih h3

/-- Dropping entries keeps the canonical form. -/
theorem tabDrop_wf (d : Nat → V) (p : Nat → Bool) (t : Tab V) (h : tabWf d t = true) : tabWf d (tabDrop p t) = true :=
  tabFilter_wf d _ t h

/-- Changing every entry keeps the canonical form. -/
theorem tabMap_wf (d : Nat → V) (f : Nat → V → V) (t : Tab V) (h : tabWf d t = true) : tabWf d (tabMap d f t) = true := by
  induction t with
  | nil => rfl
  | cons e r ih =>
    obtain ⟨k, v⟩ := e
    obtain ⟨_, h2, h3⟩ := tabWf_cons.1 h
    have hmem : ∀ e ∈ tabMap d f r, k < e.1 := by
      intro e he
      simp only [tabMap, List.mem_filter, List.mem_map] at he
      obtain ⟨⟨g, hg, rfl⟩, _⟩ := he
      exact h2 g hg
    by_cases hp : f k v = d k
    · have : tabMap d f ((k, v) :: r) = tabMap d f r := by simp [tabMap, hp]
      rw [this]; exact ih h3
    · have : tabMap d f ((k, v) :: r) = (k, f k v) :: tabMap d f r := by simp [tabMap, hp]
      rw [this]; exact tabWf_cons.2 ⟨hp, hmem, ih h3⟩

/-- What a range of keys reads as after it is written, and what every other key reads as. -/
theorem tabGet_tabSetList (d : Nat → V) (bs : List V) (t : Tab V) (m n : Nat) (z : V) : tabGet d (tabSetList d t m bs) n =
    if m ≤ n ∧ n < m + bs.length then bs.getD (n - m) z else tabGet d t n := by
  induction bs generalizing t m with
  | nil =>
    have h : ¬ (m ≤ n ∧ n < m + ([] : List V).length) := by simp only [List.length_nil]; omega
    rw [if_neg h]; rfl
  | cons b bs ih =>
    rw [tabSetList, ih, tabGet_tabSet]
    by_cases h1 : m = n
    · subst h1; simp
    · by_cases h2 : m + 1 ≤ n ∧ n < m + 1 + bs.length
      · rw [if_pos h2, if_pos (by simp; omega)]
        obtain ⟨k, hk⟩ : ∃ k, n = m + 1 + k := ⟨n - (m+1), by omega⟩
        subst hk
        simp [show m + 1 + k - m = k + 1 by omega]
      · rw [if_neg h2, if_neg h1, if_neg (by simp; omega)]

omit [DecidableEq V] in
/-- A range of keys read. -/
theorem tabGetList_eq (d : Nat → V) (t : Tab V) (m n : Nat) : tabGetList d t m n = (List.range n).map (fun k => tabGet d t (m + k)) := by
  induction n generalizing m with
  | zero => rfl
  | succ n ih =>
    rw [tabGetList, ih, List.range_succ_eq_map]
    simp only [List.map_cons, List.map_map, Nat.add_zero]
    congr 1
    apply List.map_congr_left
    intro a _
    simp only [Function.comp]
    congr 1
    omega

end Sys2Proof.Laws
end

