-- ==== Sys2Proof/Laws/Bits.lean ====
section
/-! SUPPORT. Byte lists and numbers; a range of bytes written and read back. -/
namespace Sys2Proof.Laws

open Sys2Proof.Machine

/-- The bytes of a number. -/
@[simp] theorem leBytes_length (n v : Nat) : (leBytes n v).length = n := by
  induction n generalizing v with
  | zero => rfl
  | succ n ih => simp [leBytes, ih]

/-- A number read back from its bytes. -/
theorem leNat_leBytes (n v : Nat) : leNat (leBytes n v) = v % 256 ^ n := by
  induction n generalizing v with
  | zero => simp [leNat, leBytes, Nat.mod_one]
  | succ n ih =>
    have h : v % 256 ^ (n + 1) = v % 256 + 256 * (v / 256 % 256 ^ n) := by rw [Nat.pow_succ, Nat.mul_comm, Nat.mod_mul]
    rw [leBytes, leNat, ih, BitVec.toNat_ofNat, h]

variable {V : Type} [DecidableEq V]

/-- A range written is read back. -/
theorem tabGetList_tabSetList (d : Nat → V) (t : Tab V) (m : Nat) (bs : List V) (z : V) : tabGetList d (tabSetList d t m bs) m bs.length = bs := by
  rw [tabGetList_eq]
  apply List.ext_getElem
  · simp
  · intro k h1 h2
    have h3 : m ≤ m + k ∧ m + k < m + bs.length := by omega
    rw [List.getElem_map, List.getElem_range, tabGet_tabSetList d bs t m (m + k) z, if_pos h3, Nat.add_sub_cancel_left, List.getD_eq_getElem _ _ h2]

/-- A range outside the one written is not changed. -/
theorem tabGetList_tabSetList_out (d : Nat → V) (t : Tab V) (m n len : Nat) (bs : List V) (h : n + len ≤ m ∨ m + bs.length ≤ n) :
    tabGetList d (tabSetList d t m bs) n len = tabGetList d t n len := by
  rw [tabGetList_eq, tabGetList_eq]
  apply List.map_congr_left
  intro k hk
  have := List.mem_range.1 hk
  exact tabGet_tabSetList_out d bs t m (n + k) (by omega)

end Sys2Proof.Laws
end

