-- ==== Sys2Proof/Laws/Dispatch.lean ====
section
/-! SUPPORT. What the dispatch calls for each command, so that no proof unfolds it. -/
namespace Sys2Proof.Laws

open Sys2Proof.Machine

@[simp] theorem exec_chainTick (st : State) :
    exec (.chainTick) st = execChainTick st := rfl
@[simp] theorem exec_unitEdge (u : UnitId) (st : State) :
    exec (.unitEdge u) st = execUnitEdge u st := rfl
@[simp] theorem exec_outputEmit (u : UnitId) (ucc : Nat) (o : OutBody) (st : State) :
    exec (.outputEmit u ucc o) st = execOutputEmit u ucc o st := rfl
@[simp] theorem exec_backpressureEnd (d : DieId) (st : State) :
    exec (.backpressureEnd d) st = execBackpressureEnd d st := rfl
@[simp] theorem exec_rwsRegisterWrite (r : RwsReg) (w : Word) (st : State) :
    exec (.rwsRegisterWrite r w) st = execRwsRegisterWrite r w st := rfl
@[simp] theorem exec_syncPulseOut (st : State) :
    exec (.syncPulseOut) st = execSyncPulseOut st := rfl
@[simp] theorem exec_syncPulseIn (st : State) :
    exec (.syncPulseIn) st = execSyncPulseIn st := rfl
@[simp] theorem exec_syncPulseCheck (ok : Bool) (st : State) :
    exec (.syncPulseCheck ok) st = execSyncPulseCheck ok st := rfl
@[simp] theorem exec_relockTimeout (st : State) :
    exec (.relockTimeout) st = execRelockTimeout st := rfl
@[simp] theorem exec_inputStake (u : UnitId) (d : DieId) (h : StakeHdr) (p : PortId) (b : InputBody) (v : ProgVerdict) (st : State) :
    exec (.inputStake u d h p b v) st = execInputStake u d h p b v st := rfl
@[simp] theorem exec_entropyStake (u : UnitId) (h : StakeHdr) (w0 w1 w2 w3 : Word) (st : State) :
    exec (.entropyStake u h w0 w1 w2 w3) st = execEntropyStake u h w0 w1 w2 w3 st := rfl
@[simp] theorem exec_hostStake (u : UnitId) (h : StakeHdr) (chan : Fin 64) (side : Side) (notice : Bool) (ws : List Word) (st : State) :
    exec (.hostStake u h chan side notice ws) st = execHostStake u h chan side notice ws st := rfl
@[simp] theorem exec_timerStake (u : UnitId) (h : StakeHdr) (alarm : Bool) (tod : Word) (st : State) :
    exec (.timerStake u h alarm tod) st = execTimerStake u h alarm tod st := rfl
@[simp] theorem exec_echoStake (u : UnitId) (h : StakeHdr) (l : CoreId) (kind : BitVec 8) (index : BitVec 24) (st : State) :
    exec (.echoStake u h l kind index) st = execEchoStake u h l kind index st := rfl
@[simp] theorem exec_pressureStake (u : UnitId) (d : DieId) (h : StakeHdr) (on space : Bool) (st : State) :
    exec (.pressureStake u d h on space) st = execPressureStake u d h on space st := rfl
@[simp] theorem exec_ctlRwsWrite (u : UnitId) (h : StakeHdr) (r : RwsReg) (w : Word) (st : State) :
    exec (.ctlRwsWrite u h r w) st = execCtlRwsWrite u h r w st := rfl
@[simp] theorem exec_ctlCfg (u : UnitId) (h : StakeHdr) (e : CfgEffect) (st : State) :
    exec (.ctlCfg u h e) st = execCtlCfg u h e st := rfl
@[simp] theorem exec_ctlSpare (u : UnitId) (h : StakeHdr) (l : CoreId) (p : Fin 56) (st : State) :
    exec (.ctlSpare u h l p) st = execCtlSpare u h l p st := rfl
@[simp] theorem exec_ctlDeconfig (u : UnitId) (h : StakeHdr) (l : CoreId) (st : State) :
    exec (.ctlDeconfig u h l) st = execCtlDeconfig u h l st := rfl
@[simp] theorem exec_ctlDrop (u : UnitId) (h : StakeHdr) (dropped : UnitId) (cause : BitVec 8) (st : State) :
    exec (.ctlDrop u h dropped cause) st = execCtlDrop u h dropped cause st := rfl
@[simp] theorem exec_ctlThrottle (u : UnitId) (h : StakeHdr) (level : BitVec 3) (st : State) :
    exec (.ctlThrottle u h level) st = execCtlThrottle u h level st := rfl
@[simp] theorem exec_ctlPower (u : UnitId) (h : StakeHdr) (k : Fin 24) (on : Bool) (st : State) :
    exec (.ctlPower u h k on) st = execCtlPower u h k on st := rfl
@[simp] theorem exec_ctlMcode (u : UnitId) (h : StakeHdr) (img : PatchImage) (st : State) :
    exec (.ctlMcode u h img) st = execCtlMcode u h img st := rfl
@[simp] theorem exec_ctlCode (u : UnitId) (h : StakeHdr) (frame : BitVec 52) (ws : List Word) (st : State) :
    exec (.ctlCode u h frame ws) st = execCtlCode u h frame ws st := rfl
@[simp] theorem exec_ctlScrub (u : UnitId) (h : StakeHdr) (base len : Nat) (st : State) :
    exec (.ctlScrub u h base len) st = execCtlScrub u h base len st := rfl
@[simp] theorem exec_ctlBench (u : UnitId) (h : StakeHdr) (cn : Nat) (st : State) :
    exec (.ctlBench u h cn) st = execCtlBench u h cn st := rfl
@[simp] theorem exec_ctlDebug (u : UnitId) (h : StakeHdr) (resume : Bool) (cores : BitVec 48) (st : State) :
    exec (.ctlDebug u h resume cores) st = execCtlDebug u h resume cores st := rfl
@[simp] theorem exec_ctlSync (u : UnitId) (h : StakeHdr) (lock : Bool) (st : State) :
    exec (.ctlSync u h lock) st = execCtlSync u h lock st := rfl
@[simp] theorem exec_ctlMchk (u : UnitId) (h : StakeHdr) (cores : BitVec 48) (source : BitVec 12) (st : State) :
    exec (.ctlMchk u h cores source) st = execCtlMchk u h cores source st := rfl
@[simp] theorem exec_stakeDeadline (source : Fin 5) (seq : Nat) (o : LineRead) (st : State) :
    exec (.stakeDeadline source seq o) st = execStakeDeadline source seq o st := rfl
@[simp] theorem exec_entDataRead (u : UnitId) (l : CoreId) (d : Reg) (st : State) :
    exec (.entDataRead u l d) st = execEntDataRead u l d st := rfl
@[simp] theorem exec_todUpdate (tod : Word) (st : State) :
    exec (.todUpdate tod) st = execTodUpdate tod st := rfl
@[simp] theorem exec_todAlarm (tod : Word) (st : State) :
    exec (.todAlarm tod) st = execTodAlarm tod st := rfl
@[simp] theorem exec_echoIssue (l : CoreId) (ucc : Nat) (kind : BitVec 8) (index : BitVec 24) (inTime : Bool) (st : State) :
    exec (.echoIssue l ucc kind index inTime) st = execEchoIssue l ucc kind index inTime st := rfl
@[simp] theorem exec_instructionRetry (u : UnitId) (l : CoreId) (ucc : Nat) (kind : BitVec 8) (index : BitVec 24) (st : State) :
    exec (.instructionRetry u l ucc kind index) st = execInstructionRetry u l ucc kind index st := rfl
@[simp] theorem exec_spareComplete (u : UnitId) (st : State) :
    exec (.spareComplete u) st = execSpareComplete u st := rfl
@[simp] theorem exec_mpatchResume (u : UnitId) (st : State) :
    exec (.mpatchResume u) st = execMpatchResume u st := rfl
@[simp] theorem exec_jtagDebugRequest (cores : BitVec 48) (st : State) :
    exec (.jtagDebugRequest cores) st = execJtagDebugRequest cores st := rfl
@[simp] theorem exec_compareEnd (p : CmpPlace) (wrongA wrongB : Option Verdict) (st : State) :
    exec (.compareEnd p wrongA wrongB) st = execCompareEnd p wrongA wrongB st := rfl
@[simp] theorem exec_verdictTimeout (d : DieId) (st : State) :
    exec (.verdictTimeout d) st = execVerdictTimeout d st := rfl
@[simp] theorem exec_refereeEnd (d : DieId) (st : State) :
    exec (.refereeEnd d) st = execRefereeEnd d st := rfl
@[simp] theorem exec_queueRoomRelease (p : PortId) (st : State) :
    exec (.queueRoomRelease p) st = execQueueRoomRelease p st := rfl
@[simp] theorem exec_injectionTestSlot (d : DieId) (nsLeft : Nat) (passA passB : Bool) (st : State) :
    exec (.injectionTestSlot d nsLeft passA passB) st = execInjectionTestSlot d nsLeft passA passB st := rfl
@[simp] theorem exec_divergenceDecision (st : State) :
    exec (.divergenceDecision) st = execDivergenceDecision st := rfl
@[simp] theorem exec_benchLate (late0 late1 : Bool) (st : State) :
    exec (.benchLate late0 late1) st = execBenchLate late0 late1 st := rfl
@[simp] theorem exec_autoRelevel (st : State) :
    exec (.autoRelevel) st = execAutoRelevel st := rfl
@[simp] theorem exec_mapSweepEnd (u : UnitId) (mapB : Bool) (st : State) :
    exec (.mapSweepEnd u mapB) st = execMapSweepEnd u mapB st := rfl
@[simp] theorem exec_prepareEnd (ok : Bool) (st : State) :
    exec (.prepareEnd ok) st = execPrepareEnd ok st := rfl
@[simp] theorem exec_unionEnd (st : State) :
    exec (.unionEnd) st = execUnionEnd st := rfl
@[simp] theorem exec_copyPassEnd (st : State) :
    exec (.copyPassEnd) st = execCopyPassEnd st := rfl
@[simp] theorem exec_freezeStepEnd (st : State) :
    exec (.freezeStepEnd) st = execFreezeStepEnd st := rfl
@[simp] theorem exec_stationOpen (u : UnitId) (s : StationId) (resume : Bool) (desc : BitVec 52) (st : State) :
    exec (.stationOpen u s resume desc) st = execStationOpen u s resume desc st := rfl
@[simp] theorem exec_stationQuiesce (u : UnitId) (s : StationId) (st : State) :
    exec (.stationQuiesce u s) st = execStationQuiesce u s st := rfl
@[simp] theorem exec_quiesceComplete (u : UnitId) (s : StationId) (st : State) :
    exec (.quiesceComplete u s) st = execQuiesceComplete u s st := rfl
@[simp] theorem exec_stationClose (u : UnitId) (s : StationId) (st : State) :
    exec (.stationClose u s) st = execStationClose u s st := rfl
@[simp] theorem exec_stationReplay (u : UnitId) (s : StationId) (st : State) :
    exec (.stationReplay u s) st = execStationReplay u s st := rfl
@[simp] theorem exec_deferredCommand (u : UnitId) (s : StationId) (st : State) :
    exec (.deferredCommand u s) st = execDeferredCommand u s st := rfl
@[simp] theorem exec_txDoorbell (u : UnitId) (s : StationId) (prod : BitVec 32) (st : State) :
    exec (.txDoorbell u s prod) st = execTxDoorbell u s prod st := rfl
@[simp] theorem exec_rxPostDoorbell (u : UnitId) (s : StationId) (q : Fin 4) (prod : BitVec 32) (st : State) :
    exec (.rxPostDoorbell u s q prod) st = execRxPostDoorbell u s q prod st := rfl
@[simp] theorem exec_cqConsume (u : UnitId) (s : StationId) (q : Fin 4) (cons : BitVec 32) (st : State) :
    exec (.cqConsume u s q cons) st = execCqConsume u s q cons st := rfl
@[simp] theorem exec_send (u : UnitId) (s : StationId) (st : State) :
    exec (.send u s) st = execSend u s st := rfl
@[simp] theorem exec_sendSettle (u : UnitId) (s : StationId) (st : State) :
    exec (.sendSettle u s) st = execSendSettle u s st := rfl
@[simp] theorem exec_settle (u : UnitId) (s : StationId) (st : State) :
    exec (.settle u s) st = execSettle u s st := rfl
@[simp] theorem exec_fbWriteComplete (u : UnitId) (fails : Fin 5) (st : State) :
    exec (.fbWriteComplete u fails) st = execFbWriteComplete u fails st := rfl
@[simp] theorem exec_fbReadReturn (u : UnitId) (off : BitVec 33) (o : FbRead) (st : State) :
    exec (.fbReadReturn u off o) st = execFbReadReturn u off o st := rfl
@[simp] theorem exec_mirrorMessageReceive (u : UnitId) (s : StationId) (m : MirrorMsg) (st : State) :
    exec (.mirrorMessageReceive u s m) st = execMirrorMessageReceive u s m st := rfl
@[simp] theorem exec_confirmationReceive (u : UnitId) (book : BitVec 8) (confBsn confMseq : Nat) (st : State) :
    exec (.confirmationReceive u book confBsn confMseq) st = execConfirmationReceive u book confBsn confMseq st := rfl
@[simp] theorem exec_mirrorLostTimeout (u : UnitId) (book : BitVec 8) (st : State) :
    exec (.mirrorLostTimeout u book) st = execMirrorLostTimeout u book st := rfl
@[simp] theorem exec_frameReceive (p : PortId) (f : EthFrame) (st : State) :
    exec (.frameReceive p f) st = execFrameReceive p f st := rfl
@[simp] theorem exec_stakeDrain (p : PortId) (st : State) :
    exec (.stakeDrain p) st = execStakeDrain p st := rfl
@[simp] theorem exec_pauseReceive (p : PortId) (quanta : BitVec 16) (st : State) :
    exec (.pauseReceive p quanta) st = execPauseReceive p quanta st := rfl
@[simp] theorem exec_portUp (p : PortId) (st : State) :
    exec (.portUp p) st = execPortUp p st := rfl
@[simp] theorem exec_portDown (p : PortId) (st : State) :
    exec (.portDown p) st = execPortDown p st := rfl
@[simp] theorem exec_dieStop (d : DieId) (st : State) :
    exec (.dieStop d) st = execDieStop d st := rfl
@[simp] theorem exec_flitReceive (p : PortId) (f : Flit) (crcOk : Bool) (st : State) :
    exec (.flitReceive p f crcOk) st = execFlitReceive p f crcOk st := rfl
@[simp] theorem exec_llack (p : PortId) (llseq : BitVec 16) (st : State) :
    exec (.llack p llseq) st = execLlack p llseq st := rfl
@[simp] theorem exec_llnak (p : PortId) (llseq : BitVec 16) (st : State) :
    exec (.llnak p llseq) st = execLlnak p llseq st := rfl
@[simp] theorem exec_credit (p : PortId) (vc0 vc1 : BitVec 16) (st : State) :
    exec (.credit p vc0 vc1) st = execCredit p vc0 vc1 st := rfl
@[simp] theorem exec_llackTimer (p : PortId) (st : State) :
    exec (.llackTimer p) st = execLlackTimer p st := rfl
@[simp] theorem exec_blockLockLoss (p : PortId) (st : State) :
    exec (.blockLockLoss p) st = execBlockLockLoss p st := rfl
@[simp] theorem exec_tvtData (u : UnitId) (s : StationId) (g : Segment) (v : ProgVerdict) (st : State) :
    exec (.tvtData u s g v) st = execTvtData u s g v st := rfl
@[simp] theorem exec_tvtAck (u : UnitId) (s : StationId) (g : Segment) (st : State) :
    exec (.tvtAck u s g) st = execTvtAck u s g st := rfl
@[simp] theorem exec_tvtInit (u : UnitId) (s : StationId) (g : Segment) (st : State) :
    exec (.tvtInit u s g) st = execTvtInit u s g st := rfl
@[simp] theorem exec_tvtInitAck (u : UnitId) (s : StationId) (g : Segment) (st : State) :
    exec (.tvtInitAck u s g) st = execTvtInitAck u s g st := rfl
@[simp] theorem exec_tvtReady (u : UnitId) (s : StationId) (g : Segment) (st : State) :
    exec (.tvtReady u s g) st = execTvtReady u s g st := rfl
@[simp] theorem exec_tvtClose (u : UnitId) (s : StationId) (g : Segment) (st : State) :
    exec (.tvtClose u s g) st = execTvtClose u s g st := rfl
@[simp] theorem exec_tvtCloseAck (u : UnitId) (s : StationId) (g : Segment) (st : State) :
    exec (.tvtCloseAck u s g) st = execTvtCloseAck u s g st := rfl
@[simp] theorem exec_tvtProbe (u : UnitId) (s : StationId) (g : Segment) (st : State) :
    exec (.tvtProbe u s g) st = execTvtProbe u s g st := rfl
@[simp] theorem exec_retransmitTimeout (u : UnitId) (s : StationId) (st : State) :
    exec (.retransmitTimeout u s) st = execRetransmitTimeout u s st := rfl
@[simp] theorem exec_keepaliveTimeout (u : UnitId) (s : StationId) (st : State) :
    exec (.keepaliveTimeout u s) st = execKeepaliveTimeout u s st := rfl
@[simp] theorem exec_lostResumeTimer (u : UnitId) (s : StationId) (st : State) :
    exec (.lostResumeTimer u s) st = execLostResumeTimer u s st := rfl
@[simp] theorem exec_nonceTieRetry (u : UnitId) (s : StationId) (st : State) :
    exec (.nonceTieRetry u s) st = execNonceTieRetry u s st := rfl
@[simp] theorem exec_reassemblyTimeout (u : UnitId) (s : StationId) (seq : Nat) (st : State) :
    exec (.reassemblyTimeout u s seq) st = execReassemblyTimeout u s seq st := rfl
@[simp] theorem exec_deferredAck (u : UnitId) (s : StationId) (st : State) :
    exec (.deferredAck u s) st = execDeferredAck u s st := rfl
@[simp] theorem exec_nop (i : Issue) (st : State) :
    exec (.nop i) st = execNop i st := rfl
@[simp] theorem exec_order (i : Issue) (st : State) :
    exec (.order i) st = execOrder i st := rfl
@[simp] theorem exec_plumb (i : Issue) (st : State) :
    exec (.plumb i) st = execPlumb i st := rfl
@[simp] theorem exec_csync (i : Issue) (st : State) :
    exec (.csync i) st = execCsync i st := rfl
@[simp] theorem exec_ret (i : Issue) (st : State) :
    exec (.ret i) st = execRet i st := rfl
@[simp] theorem exec_clres (i : Issue) (st : State) :
    exec (.clres i) st = execClres i st := rfl
@[simp] theorem exec_tend (i : Issue) (st : State) :
    exec (.tend i) st = execTend i st := rfl
@[simp] theorem exec_rte (i : Issue) (st : State) :
    exec (.rte i) st = execRte i st := rfl
@[simp] theorem exec_ei (i : Issue) (st : State) :
    exec (.ei i) st = execEi i st := rfl
@[simp] theorem exec_di (i : Issue) (st : State) :
    exec (.di i) st = execDi i st := rfl
@[simp] theorem exec_wait (i : Issue) (st : State) :
    exec (.wait i) st = execWait i st := rfl
@[simp] theorem exec_waitEnd (u : UnitId) (l : CoreId) (st : State) :
    exec (.waitEnd u l) st = execWaitEnd u l st := rfl
@[simp] theorem exec_pushd (i : Issue) (s : Reg) (st : State) :
    exec (.pushd i s) st = execPushd i s st := rfl
@[simp] theorem exec_popd (i : Issue) (d : Reg) (st : State) :
    exec (.popd i d) st = execPopd i d st := rfl
@[simp] theorem exec_apush (i : Issue) (s : Reg) (st : State) :
    exec (.apush i s) st = execApush i s st := rfl
@[simp] theorem exec_apop (i : Issue) (d : Reg) (st : State) :
    exec (.apop i d) st = execApop i d st := rfl
@[simp] theorem exec_jmpr (i : Issue) (a : Reg) (st : State) :
    exec (.jmpr i a) st = execJmpr i a st := rfl
@[simp] theorem exec_callr (i : Issue) (a : Reg) (st : State) :
    exec (.callr i a) st = execCallr i a st := rfl
@[simp] theorem exec_neg (i : Issue) (d : Reg) (st : State) :
    exec (.neg i d) st = execNeg i d st := rfl
@[simp] theorem exec_not (i : Issue) (d : Reg) (st : State) :
    exec (.not i d) st = execNot i d st := rfl
@[simp] theorem exec_clz (i : Issue) (d : Reg) (st : State) :
    exec (.clz i d) st = execClz i d st := rfl
@[simp] theorem exec_popc (i : Issue) (d : Reg) (st : State) :
    exec (.popc i d) st = execPopc i d st := rfl
@[simp] theorem exec_bswap (i : Issue) (d : Reg) (st : State) :
    exec (.bswap i d) st = execBswap i d st := rfl
@[simp] theorem exec_kclr (i : Issue) (k : Reg) (st : State) :
    exec (.kclr i k) st = execKclr i k st := rfl
@[simp] theorem exec_mov (i : Issue) (d s : Reg) (st : State) :
    exec (.mov i d s) st = execMov i d s st := rfl
@[simp] theorem exec_add (i : Issue) (o : Alu3) (st : State) :
    exec (.add i o) st = execAdd i o st := rfl
@[simp] theorem exec_sub (i : Issue) (o : Alu3) (st : State) :
    exec (.sub i o) st = execSub i o st := rfl
@[simp] theorem exec_and (i : Issue) (o : Alu3) (st : State) :
    exec (.and i o) st = execAnd i o st := rfl
@[simp] theorem exec_or (i : Issue) (o : Alu3) (st : State) :
    exec (.or i o) st = execOr i o st := rfl
@[simp] theorem exec_xor (i : Issue) (o : Alu3) (st : State) :
    exec (.xor i o) st = execXor i o st := rfl
@[simp] theorem exec_cmp (i : Issue) (d s : Reg) (st : State) :
    exec (.cmp i d s) st = execCmp i d s st := rfl
@[simp] theorem exec_amov (i : Issue) (d s : Reg) (st : State) :
    exec (.amov i d s) st = execAmov i d s st := rfl
@[simp] theorem exec_amovd (i : Issue) (d s : Reg) (st : State) :
    exec (.amovd i d s) st = execAmovd i d s st := rfl
@[simp] theorem exec_dmova (i : Issue) (d s : Reg) (st : State) :
    exec (.dmova i d s) st = execDmova i d s st := rfl
@[simp] theorem exec_aadd (i : Issue) (o : Alu3) (st : State) :
    exec (.aadd i o) st = execAadd i o st := rfl
@[simp] theorem exec_acmp (i : Issue) (d s : Reg) (st : State) :
    exec (.acmp i d s) st = execAcmp i d s st := rfl
@[simp] theorem exec_addq (i : Issue) (d : Reg) (q : BitVec 4) (st : State) :
    exec (.addq i d q) st = execAddq i d q st := rfl
@[simp] theorem exec_aaddq (i : Issue) (d : Reg) (q : BitVec 4) (st : State) :
    exec (.aaddq i d q) st = execAaddq i d q st := rfl
@[simp] theorem exec_addc (i : Issue) (d s t : Reg) (st : State) :
    exec (.addc i d s t) st = execAddc i d s t st := rfl
@[simp] theorem exec_subb (i : Issue) (d s t : Reg) (st : State) :
    exec (.subb i d s t) st = execSubb i d s t st := rfl
@[simp] theorem exec_andn (i : Issue) (d s t : Reg) (st : State) :
    exec (.andn i d s t) st = execAndn i d s t st := rfl
@[simp] theorem exec_shl (i : Issue) (d s t : Reg) (st : State) :
    exec (.shl i d s t) st = execShl i d s t st := rfl
@[simp] theorem exec_shr (i : Issue) (d s t : Reg) (st : State) :
    exec (.shr i d s t) st = execShr i d s t st := rfl
@[simp] theorem exec_sar (i : Issue) (d s t : Reg) (st : State) :
    exec (.sar i d s t) st = execSar i d s t st := rfl
@[simp] theorem exec_rol (i : Issue) (d s t : Reg) (st : State) :
    exec (.rol i d s t) st = execRol i d s t st := rfl
@[simp] theorem exec_ror (i : Issue) (d s t : Reg) (st : State) :
    exec (.ror i d s t) st = execRor i d s t st := rfl
@[simp] theorem exec_mul (i : Issue) (d s t : Reg) (st : State) :
    exec (.mul i d s t) st = execMul i d s t st := rfl
@[simp] theorem exec_div (i : Issue) (d s t : Reg) (st : State) :
    exec (.div i d s t) st = execDiv i d s t st := rfl
@[simp] theorem exec_divu (i : Issue) (d s t : Reg) (st : State) :
    exec (.divu i d s t) st = execDivu i d s t st := rfl
@[simp] theorem exec_rem (i : Issue) (d s t : Reg) (st : State) :
    exec (.rem i d s t) st = execRem i d s t st := rfl
@[simp] theorem exec_remu (i : Issue) (d s t : Reg) (st : State) :
    exec (.remu i d s t) st = execRemu i d s t st := rfl
@[simp] theorem exec_sext (i : Issue) (d s t : Reg) (st : State) :
    exec (.sext i d s t) st = execSext i d s t st := rfl
@[simp] theorem exec_zext (i : Issue) (d s t : Reg) (st : State) :
    exec (.zext i d s t) st = execZext i d s t st := rfl
@[simp] theorem exec_csel (i : Issue) (cond : BitVec 4) (d s t : Reg) (st : State) :
    exec (.csel i cond d s t) st = execCsel i cond d s t st := rfl
@[simp] theorem exec_asub (i : Issue) (d s t : Reg) (st : State) :
    exec (.asub i d s t) st = execAsub i d s t st := rfl
@[simp] theorem exec_adiff (i : Issue) (d s t : Reg) (st : State) :
    exec (.adiff i d s t) st = execAdiff i d s t st := rfl
@[simp] theorem exec_mulwu (i : Issue) (k s t : Reg) (st : State) :
    exec (.mulwu i k s t) st = execMulwu i k s t st := rfl
@[simp] theorem exec_mulws (i : Issue) (k s t : Reg) (st : State) :
    exec (.mulws i k s t) st = execMulws i k s t st := rfl
@[simp] theorem exec_macwu (i : Issue) (k s t : Reg) (st : State) :
    exec (.macwu i k s t) st = execMacwu i k s t st := rfl
@[simp] theorem exec_macws (i : Issue) (k s t : Reg) (st : State) :
    exec (.macws i k s t) st = execMacws i k s t st := rfl
@[simp] theorem exec_kadd (i : Issue) (k s : Reg) (st : State) :
    exec (.kadd i k s) st = execKadd i k s st := rfl
@[simp] theorem exec_kaddc (i : Issue) (k s : Reg) (st : State) :
    exec (.kaddc i k s) st = execKaddc i k s st := rfl
@[simp] theorem exec_ksub (i : Issue) (k s : Reg) (st : State) :
    exec (.ksub i k s) st = execKsub i k s st := rfl
@[simp] theorem exec_ksubb (i : Issue) (k s : Reg) (st : State) :
    exec (.ksubb i k s) st = execKsubb i k s st := rfl
@[simp] theorem exec_kmov (i : Issue) (k s : Reg) (st : State) :
    exec (.kmov i k s) st = execKmov i k s st := rfl
@[simp] theorem exec_mfkl (i : Issue) (d k : Reg) (st : State) :
    exec (.mfkl i d k) st = execMfkl i d k st := rfl
@[simp] theorem exec_mfkh (i : Issue) (d k : Reg) (st : State) :
    exec (.mfkh i d k) st = execMfkh i d k st := rfl
@[simp] theorem exec_mtkl (i : Issue) (k s : Reg) (st : State) :
    exec (.mtkl i k s) st = execMtkl i k s st := rfl
@[simp] theorem exec_mtkh (i : Issue) (k s : Reg) (st : State) :
    exec (.mtkh i k s) st = execMtkh i k s st := rfl
@[simp] theorem exec_kcmp (i : Issue) (k s : Reg) (st : State) :
    exec (.kcmp i k s) st = execKcmp i k s st := rfl
@[simp] theorem exec_dadd (i : Issue) (k s : Reg) (st : State) :
    exec (.dadd i k s) st = execDadd i k s st := rfl
@[simp] theorem exec_dsub (i : Issue) (k s : Reg) (st : State) :
    exec (.dsub i k s) st = execDsub i k s st := rfl
@[simp] theorem exec_dcmp (i : Issue) (k s : Reg) (st : State) :
    exec (.dcmp i k s) st = execDcmp i k s st := rfl
@[simp] theorem exec_cvbd (i : Issue) (k s : Reg) (st : State) :
    exec (.cvbd i k s) st = execCvbd i k s st := rfl
@[simp] theorem exec_cvdb (i : Issue) (d k : Reg) (st : State) :
    exec (.cvdb i d k) st = execCvdb i d k st := rfl
@[simp] theorem exec_dshl (i : Issue) (k : Reg) (n : BitVec 6) (st : State) :
    exec (.dshl i k n) st = execDshl i k n st := rfl
@[simp] theorem exec_dshr (i : Issue) (k : Reg) (n : BitVec 6) (st : State) :
    exec (.dshr i k n) st = execDshr i k n st := rfl
@[simp] theorem exec_fadd (i : Issue) (single : Bool) (d s t : Reg) (st : State) :
    exec (.fadd i single d s t) st = execFadd i single d s t st := rfl
@[simp] theorem exec_fsub (i : Issue) (single : Bool) (d s t : Reg) (st : State) :
    exec (.fsub i single d s t) st = execFsub i single d s t st := rfl
@[simp] theorem exec_fmul (i : Issue) (single : Bool) (d s t : Reg) (st : State) :
    exec (.fmul i single d s t) st = execFmul i single d s t st := rfl
@[simp] theorem exec_fdiv (i : Issue) (single : Bool) (d s t : Reg) (st : State) :
    exec (.fdiv i single d s t) st = execFdiv i single d s t st := rfl
@[simp] theorem exec_fsqrt (i : Issue) (single : Bool) (d s : Reg) (st : State) :
    exec (.fsqrt i single d s) st = execFsqrt i single d s st := rfl
@[simp] theorem exec_fma (i : Issue) (single : Bool) (d s t : Reg) (st : State) :
    exec (.fma i single d s t) st = execFma i single d s t st := rfl
@[simp] theorem exec_fcmp (i : Issue) (single : Bool) (s t : Reg) (st : State) :
    exec (.fcmp i single s t) st = execFcmp i single s t st := rfl
@[simp] theorem exec_fneg (i : Issue) (single : Bool) (d s : Reg) (st : State) :
    exec (.fneg i single d s) st = execFneg i single d s st := rfl
@[simp] theorem exec_fabs (i : Issue) (single : Bool) (d s : Reg) (st : State) :
    exec (.fabs i single d s) st = execFabs i single d s st := rfl
@[simp] theorem exec_fcvt (i : Issue) (single : Bool) (d s : Reg) (st : State) :
    exec (.fcvt i single d s) st = execFcvt i single d s st := rfl
@[simp] theorem exec_fcvti (i : Issue) (single : Bool) (d s : Reg) (st : State) :
    exec (.fcvti i single d s) st = execFcvti i single d s st := rfl
@[simp] theorem exec_icvtf (i : Issue) (single : Bool) (d s : Reg) (st : State) :
    exec (.icvtf i single d s) st = execIcvtf i single d s st := rfl
@[simp] theorem exec_mfc (i : Issue) (d : Reg) (code : BitVec 12) (st : State) :
    exec (.mfc i d code) st = execMfc i d code st := rfl
@[simp] theorem exec_mtc (i : Issue) (code : BitVec 12) (s : Reg) (st : State) :
    exec (.mtc i code s) st = execMtc i code s st := rfl
@[simp] theorem exec_addi (i : Issue) (d s : Reg) (imm : BitVec 12) (st : State) :
    exec (.addi i d s imm) st = execAddi i d s imm st := rfl
@[simp] theorem exec_andi (i : Issue) (d s : Reg) (imm : BitVec 12) (st : State) :
    exec (.andi i d s imm) st = execAndi i d s imm st := rfl
@[simp] theorem exec_ori (i : Issue) (d s : Reg) (imm : BitVec 12) (st : State) :
    exec (.ori i d s imm) st = execOri i d s imm st := rfl
@[simp] theorem exec_xori (i : Issue) (d s : Reg) (imm : BitVec 12) (st : State) :
    exec (.xori i d s imm) st = execXori i d s imm st := rfl
@[simp] theorem exec_cmpi (i : Issue) (s : Reg) (imm : BitVec 12) (st : State) :
    exec (.cmpi i s imm) st = execCmpi i s imm st := rfl
@[simp] theorem exec_shifti (i : Issue) (d s : Reg) (imm : BitVec 12) (st : State) :
    exec (.shifti i d s imm) st = execShifti i d s imm st := rfl
@[simp] theorem exec_aaddi (i : Issue) (d s : Reg) (imm : BitVec 12) (st : State) :
    exec (.aaddi i d s imm) st = execAaddi i d s imm st := rfl
@[simp] theorem exec_movs (i : Issue) (o : StrOp) (st : State) :
    exec (.movs i o) st = execMovs i o st := rfl
@[simp] theorem exec_cmps (i : Issue) (o : StrOp) (st : State) :
    exec (.cmps i o) st = execCmps i o st := rfl
@[simp] theorem exec_scans (i : Issue) (o : StrOp) (st : State) :
    exec (.scans i o) st = execScans i o st := rfl
@[simp] theorem exec_fills (i : Issue) (o : StrOp) (st : State) :
    exec (.fills i o) st = execFills i o st := rfl
@[simp] theorem exec_xlats (i : Issue) (o : StrOp) (st : State) :
    exec (.xlats i o) st = execXlats i o st := rfl
@[simp] theorem exec_dadds (i : Issue) (o : StrOp) (st : State) :
    exec (.dadds i o) st = execDadds i o st := rfl
@[simp] theorem exec_ldres (i : Issue) (d s : Reg) (st : State) :
    exec (.ldres i d s) st = execLdres i d s st := rfl
@[simp] theorem exec_pinWaitEnd (u : UnitId) (l : CoreId) (st : State) :
    exec (.pinWaitEnd u l) st = execPinWaitEnd u l st := rfl
@[simp] theorem exec_stcond (i : Issue) (d s t : Reg) (st : State) :
    exec (.stcond i d s t) st = execStcond i d s t st := rfl
@[simp] theorem exec_tabt (i : Issue) (fn : BitVec 8) (st : State) :
    exec (.tabt i fn) st = execTabt i fn st := rfl
@[simp] theorem exec_clean (i : Issue) (s : Reg) (imm : BitVec 12) (st : State) :
    exec (.clean i s imm) st = execClean i s imm st := rfl
@[simp] theorem exec_flush (i : Issue) (s : Reg) (imm : BitVec 12) (st : State) :
    exec (.flush i s imm) st = execFlush i s imm st := rfl
@[simp] theorem exec_lcode (i : Issue) (s t : Reg) (st : State) :
    exec (.lcode i s t) st = execLcode i s t st := rfl
@[simp] theorem exec_svc (i : Issue) (imm : BitVec 12) (st : State) :
    exec (.svc i imm) st = execSvc i imm st := rfl
@[simp] theorem exec_serviceIoRead (i : Issue) (d s t : Reg) (st : State) :
    exec (.serviceIoRead i d s t) st = execServiceIoRead i d s t st := rfl
@[simp] theorem exec_serviceIoWrite (i : Issue) (d s t : Reg) (st : State) :
    exec (.serviceIoWrite i d s t) st = execServiceIoWrite i d s t st := rfl
@[simp] theorem exec_serviceStakeIssue (i : Issue) (d s t : Reg) (st : State) :
    exec (.serviceStakeIssue i d s t) st = execServiceStakeIssue i d s t st := rfl
@[simp] theorem exec_serviceKeyTransfer (i : Issue) (d s t : Reg) (st : State) :
    exec (.serviceKeyTransfer i d s t) st = execServiceKeyTransfer i d s t st := rfl
@[simp] theorem exec_ldb (i : Issue) (r : Reg) (ea : Ea) (st : State) :
    exec (.ldb i r ea) st = execLdb i r ea st := rfl
@[simp] theorem exec_ldbu (i : Issue) (r : Reg) (ea : Ea) (st : State) :
    exec (.ldbu i r ea) st = execLdbu i r ea st := rfl
@[simp] theorem exec_ldh (i : Issue) (r : Reg) (ea : Ea) (st : State) :
    exec (.ldh i r ea) st = execLdh i r ea st := rfl
@[simp] theorem exec_ldhu (i : Issue) (r : Reg) (ea : Ea) (st : State) :
    exec (.ldhu i r ea) st = execLdhu i r ea st := rfl
@[simp] theorem exec_ldw (i : Issue) (r : Reg) (ea : Ea) (st : State) :
    exec (.ldw i r ea) st = execLdw i r ea st := rfl
@[simp] theorem exec_ldwu (i : Issue) (r : Reg) (ea : Ea) (st : State) :
    exec (.ldwu i r ea) st = execLdwu i r ea st := rfl
@[simp] theorem exec_ldd (i : Issue) (r : Reg) (ea : Ea) (st : State) :
    exec (.ldd i r ea) st = execLdd i r ea st := rfl
@[simp] theorem exec_stb (i : Issue) (r : Reg) (ea : Ea) (st : State) :
    exec (.stb i r ea) st = execStb i r ea st := rfl
@[simp] theorem exec_sth (i : Issue) (r : Reg) (ea : Ea) (st : State) :
    exec (.sth i r ea) st = execSth i r ea st := rfl
@[simp] theorem exec_stw (i : Issue) (r : Reg) (ea : Ea) (st : State) :
    exec (.stw i r ea) st = execStw i r ea st := rfl
@[simp] theorem exec_std (i : Issue) (r : Reg) (ea : Ea) (st : State) :
    exec (.std i r ea) st = execStd i r ea st := rfl
@[simp] theorem exec_ald (i : Issue) (r : Reg) (ea : Ea) (st : State) :
    exec (.ald i r ea) st = execAld i r ea st := rfl
@[simp] theorem exec_ast (i : Issue) (r : Reg) (ea : Ea) (st : State) :
    exec (.ast i r ea) st = execAst i r ea st := rfl
@[simp] theorem exec_ldk (i : Issue) (r : Reg) (ea : Ea) (st : State) :
    exec (.ldk i r ea) st = execLdk i r ea st := rfl
@[simp] theorem exec_stk (i : Issue) (r : Reg) (ea : Ea) (st : State) :
    exec (.stk i r ea) st = execStk i r ea st := rfl
@[simp] theorem exec_b (i : Issue) (cond : BitVec 4) (disp : BitVec 30) (st : State) :
    exec (.b i cond disp) st = execB i cond disp st := rfl
@[simp] theorem exec_call (i : Issue) (cond : BitVec 4) (disp : BitVec 30) (st : State) :
    exec (.call i cond disp) st = execCall i cond disp st := rfl
@[simp] theorem exec_tbeg (i : Issue) (cond : BitVec 4) (disp : BitVec 30) (st : State) :
    exec (.tbeg i cond disp) st = execTbeg i cond disp st := rfl
@[simp] theorem exec_movi (i : Issue) (d : Reg) (imm : BitVec 30) (st : State) :
    exec (.movi i d imm) st = execMovi i d imm st := rfl
@[simp] theorem exec_aref (i : Issue) (r : Reg) (ea : Ea) (st : State) :
    exec (.aref i r ea) st = execAref i r ea st := rfl
@[simp] theorem exec_jmpf (i : Issue) (target : CodeAddr) (st : State) :
    exec (.jmpf i target) st = execJmpf i target st := rfl
@[simp] theorem exec_callf (i : Issue) (target : CodeAddr) (st : State) :
    exec (.callf i target) st = execCallf i target st := rfl
@[simp] theorem exec_ldi (i : Issue) (d : Reg) (imm : BitVec 44) (st : State) :
    exec (.ldi i d imm) st = execLdi i d imm st := rfl
@[simp] theorem exec_ldih (i : Issue) (d : Reg) (imm : BitVec 44) (st : State) :
    exec (.ldih i d imm) st = execLdih i d imm st := rfl
@[simp] theorem exec_aldi (i : Issue) (d : Reg) (imm : BitVec 44) (st : State) :
    exec (.aldi i d imm) st = execAldi i d imm st := rfl
@[simp] theorem exec_interruptEntry (u : UnitId) (l : CoreId) (st : State) :
    exec (.interruptEntry u l) st = execInterruptEntry u l st := rfl
@[simp] theorem exec_timerInterrupt (u : UnitId) (l : CoreId) (ucc : Nat) (st : State) :
    exec (.timerInterrupt u l ucc) st = execTimerInterrupt u l ucc st := rfl
@[simp] theorem exec_transactionAbort (u : UnitId) (l : CoreId) (code : BitVec 8) (st : State) :
    exec (.transactionAbort u l code) st = execTransactionAbort u l code st := rfl
@[simp] theorem exec_storeBufferDrain (u : UnitId) (l : CoreId) (st : State) :
    exec (.storeBufferDrain u l) st = execStoreBufferDrain u l st := rfl
@[simp] theorem exec_rds (u : UnitId) (q : CohReq) (st : State) :
    exec (.rds u q) st = execRds u q st := rfl
@[simp] theorem exec_rdx (u : UnitId) (q : CohReq) (st : State) :
    exec (.rdx u q) st = execRdx u q st := rfl
@[simp] theorem exec_upg (u : UnitId) (q : CohReq) (st : State) :
    exec (.upg u q) st = execUpg u q st := rfl
@[simp] theorem exec_rdo (u : UnitId) (q : CohReq) (st : State) :
    exec (.rdo u q) st = execRdo u q st := rfl
@[simp] theorem exec_wrl (u : UnitId) (q : CohReq) (data : List Byte) (st : State) :
    exec (.wrl u q data) st = execWrl u q data st := rfl
@[simp] theorem exec_wrt (u : UnitId) (q : CohReq) (off : BitVec 6) (data : List Byte) (st : State) :
    exec (.wrt u q off data) st = execWrt u q off data st := rfl
@[simp] theorem exec_stc (u : UnitId) (q : CohReq) (off : BitVec 3) (data : Word) (st : State) :
    exec (.stc u q off data) st = execStc u q off data st := rfl
@[simp] theorem exec_cln (u : UnitId) (q : CohReq) (st : State) :
    exec (.cln u q) st = execCln u q st := rfl
@[simp] theorem exec_fls (u : UnitId) (q : CohReq) (st : State) :
    exec (.fls u q) st = execFls u q st := rfl
@[simp] theorem exec_evc (u : UnitId) (agent : Fin 80) (line : BitVec 46) (st : State) :
    exec (.evc u agent line) st = execEvc u agent line st := rfl
@[simp] theorem exec_evd (u : UnitId) (agent : Fin 80) (line : BitVec 46) (poison : Bool) (st : State) :
    exec (.evd u agent line poison) st = execEvd u agent line poison st := rfl
@[simp] theorem exec_evw (u : UnitId) (agent : Fin 80) (line : BitVec 46) (st : State) :
    exec (.evw u agent line) st = execEvw u agent line st := rfl
@[simp] theorem exec_fws (u : UnitId) (agent : Fin 80) (line : BitVec 46) (st : State) :
    exec (.fws u agent line) st = execFws u agent line st := rfl
@[simp] theorem exec_fwx (u : UnitId) (agent : Fin 80) (line : BitVec 46) (st : State) :
    exec (.fwx u agent line) st = execFwx u agent line st := rfl
@[simp] theorem exec_fwo (u : UnitId) (agent : Fin 80) (line : BitVec 46) (st : State) :
    exec (.fwo u agent line) st = execFwo u agent line st := rfl
@[simp] theorem exec_inv (u : UnitId) (agent : Fin 80) (line : BitVec 46) (drop : Bool) (st : State) :
    exec (.inv u agent line drop) st = execInv u agent line drop st := rfl
@[simp] theorem exec_clnf (u : UnitId) (agent : Fin 80) (line : BitVec 46) (st : State) :
    exec (.clnf u agent line) st = execClnf u agent line st := rfl
@[simp] theorem exec_dat (u : UnitId) (agent : Option (Fin 80)) (line : BitVec 46) (st : State) :
    exec (.dat u agent line) st = execDat u agent line st := rfl
@[simp] theorem exec_ack (u : UnitId) (agent : Fin 80) (line : BitVec 46) (st : State) :
    exec (.ack u agent line) st = execAck u agent line st := rfl
@[simp] theorem exec_gone (u : UnitId) (agent : Fin 80) (line : BitVec 46) (st : State) :
    exec (.gone u agent line) st = execGone u agent line st := rfl
@[simp] theorem exec_gnt (u : UnitId) (agent : Fin 80) (line : BitVec 46) (st : State) :
    exec (.gnt u agent line) st = execGnt u agent line st := rfl
@[simp] theorem exec_cmpResponse (u : UnitId) (agent : Fin 80) (line : BitVec 46) (st : State) :
    exec (.cmpResponse u agent line) st = execCmpResponse u agent line st := rfl
@[simp] theorem exec_eack (u : UnitId) (agent : Fin 80) (line : BitVec 46) (st : State) :
    exec (.eack u agent line) st = execEack u agent line st := rfl
@[simp] theorem exec_done (u : UnitId) (agent : Fin 80) (line : BitVec 46) (st : State) :
    exec (.done u agent line) st = execDone u agent line st := rfl
@[simp] theorem exec_rsvl (u : UnitId) (agent : Fin 80) (engine : Fin 16) (line : BitVec 46) (st : State) :
    exec (.rsvl u agent engine line) st = execRsvl u agent engine line st := rfl
@[simp] theorem exec_err (u : UnitId) (agent : Fin 80) (line : BitVec 46) (st : State) :
    exec (.err u agent line) st = execErr u agent line st := rfl
@[simp] theorem exec_directoryWalkEnd (u : UnitId) (agent : Fin 80) (st : State) :
    exec (.directoryWalkEnd u agent) st = execDirectoryWalkEnd u agent st := rfl
@[simp] theorem exec_wtSweepEnd (u : UnitId) (st : State) :
    exec (.wtSweepEnd u) st = execWtSweepEnd u st := rfl
@[simp] theorem exec_invalidationEnd (u : UnitId) (st : State) :
    exec (.invalidationEnd u) st = execInvalidationEnd u st := rfl
@[simp] theorem exec_dramCommandIssue (u : UnitId) (c : Fin 12) (now : Nat) (candidates : List (Nat × DramCmd)) (st : State) :
    exec (.dramCommandIssue u c now candidates) st = execDramCommandIssue u c now candidates st := rfl
@[simp] theorem exec_writeAccept (u : UnitId) (c : Fin 12) (st : State) :
    exec (.writeAccept u c) st = execWriteAccept u c st := rfl
@[simp] theorem exec_readReturn (u : UnitId) (c : Fin 12) (o : DramRead) (margin : Bool) (st : State) :
    exec (.readReturn u c o margin) st = execReadReturn u c o margin st := rfl
@[simp] theorem exec_refreshSlot (u : UnitId) (ucc : Nat) (st : State) :
    exec (.refreshSlot u ucc) st = execRefreshSlot u ucc st := rfl
@[simp] theorem exec_rankPowerDown (u : UnitId) (c : Fin 12) (rank : Fin 4) (st : State) :
    exec (.rankPowerDown u c rank) st = execRankPowerDown u c rank st := rfl
@[simp] theorem exec_fchgHoldEnd (u : UnitId) (ready : BitVec 12) (st : State) :
    exec (.fchgHoldEnd u ready) st = execFchgHoldEnd u ready st := rfl
@[simp] theorem exec_channelBringup (u : UnitId) (c : Fin 12) (spdOk sweepOk eyeOk fchgOk : Bool) (rt : BitVec 8) (st : State) :
    exec (.channelBringup u c spdOk sweepOk eyeOk fchgOk rt) st = execChannelBringup u c spdOk sweepOk eyeOk fchgOk rt st := rfl
@[simp] theorem exec_scrubLine (u : UnitId) (o : DramRead) (f : FbRead) (st : State) :
    exec (.scrubLine u o f) st = execScrubLine u o f st := rfl
@[simp] theorem exec_kcv (u : UnitId) (page : Fin 1024) (st : State) :
    exec (.kcv u page) st = execKcv u page st := rfl
@[simp] theorem exec_aesCbcEnc (u : UnitId) (page : Fin 1024) (st : State) :
    exec (.aesCbcEnc u page) st = execAesCbcEnc u page st := rfl
@[simp] theorem exec_aesCbcDec (u : UnitId) (page : Fin 1024) (st : State) :
    exec (.aesCbcDec u page) st = execAesCbcDec u page st := rfl
@[simp] theorem exec_aesCtr (u : UnitId) (page : Fin 1024) (st : State) :
    exec (.aesCtr u page) st = execAesCtr u page st := rfl
@[simp] theorem exec_aesGcmEnc (u : UnitId) (page : Fin 1024) (st : State) :
    exec (.aesGcmEnc u page) st = execAesGcmEnc u page st := rfl
@[simp] theorem exec_aesGcmDec (u : UnitId) (page : Fin 1024) (st : State) :
    exec (.aesGcmDec u page) st = execAesGcmDec u page st := rfl
@[simp] theorem exec_aesCmac (u : UnitId) (page : Fin 1024) (st : State) :
    exec (.aesCmac u page) st = execAesCmac u page st := rfl
@[simp] theorem exec_aesKdf (u : UnitId) (page : Fin 1024) (st : State) :
    exec (.aesKdf u page) st = execAesKdf u page st := rfl
@[simp] theorem exec_tdesEcbEnc (u : UnitId) (page : Fin 1024) (st : State) :
    exec (.tdesEcbEnc u page) st = execTdesEcbEnc u page st := rfl
@[simp] theorem exec_tdesEcbDec (u : UnitId) (page : Fin 1024) (st : State) :
    exec (.tdesEcbDec u page) st = execTdesEcbDec u page st := rfl
@[simp] theorem exec_tdesCbcEnc (u : UnitId) (page : Fin 1024) (st : State) :
    exec (.tdesCbcEnc u page) st = execTdesCbcEnc u page st := rfl
@[simp] theorem exec_tdesCbcDec (u : UnitId) (page : Fin 1024) (st : State) :
    exec (.tdesCbcDec u page) st = execTdesCbcDec u page st := rfl
@[simp] theorem exec_tdesMac3 (u : UnitId) (page : Fin 1024) (st : State) :
    exec (.tdesMac3 u page) st = execTdesMac3 u page st := rfl
@[simp] theorem exec_keyBusComplete (u : UnitId) (keyErr : Bool) (st : State) :
    exec (.keyBusComplete u keyErr) st = execKeyBusComplete u keyErr st := rfl
@[simp] theorem exec_cipherComplete (u : UnitId) (page : Fin 1024) (st : State) :
    exec (.cipherComplete u page) st = execCipherComplete u page st := rfl
@[simp] theorem exec_compress (u : UnitId) (e : Fin 2) (st : State) :
    exec (.compress u e) st = execCompress u e st := rfl
@[simp] theorem exec_decompress (u : UnitId) (e : Fin 2) (st : State) :
    exec (.decompress u e) st = execDecompress u e st := rfl
@[simp] theorem exec_jobComplete (u : UnitId) (e : Fin 2) (st : State) :
    exec (.jobComplete u e) st = execJobComplete u e st := rfl
@[simp] theorem exec_cmpRingWrite (u : UnitId) (e : Fin 2) (c : Fin 16) (w : Word) (st : State) :
    exec (.cmpRingWrite u e c w) st = execCmpRingWrite u e c w st := rfl
@[simp] theorem exec_mbxDataWrite (n : Fin 64) (mid : BitVec 16) (i : Fin 16) (w : Word) (st : State) :
    exec (.mbxDataWrite n mid i w) st = execMbxDataWrite n mid i w st := rfl
@[simp] theorem exec_mbxSend (n : Fin 64) (mid : BitVec 16) (w : Word) (st : State) :
    exec (.mbxSend n mid w) st = execMbxSend n mid w st := rfl
@[simp] theorem exec_mbxTake (n : Fin 64) (mid : BitVec 16) (st : State) :
    exec (.mbxTake n mid) st = execMbxTake n mid st := rfl
@[simp] theorem exec_mbxRecall (n : Fin 64) (mid : BitVec 16) (st : State) :
    exec (.mbxRecall n mid) st = execMbxRecall n mid st := rfl
@[simp] theorem exec_mbxStatusClear (n : Fin 64) (mid : BitVec 16) (w : Word) (st : State) :
    exec (.mbxStatusClear n mid w) st = execMbxStatusClear n mid w st := rfl
@[simp] theorem exec_mbxBindWrite (n : Fin 64) (w : Word) (st : State) :
    exec (.mbxBindWrite n w) st = execMbxBindWrite n w st := rfl
@[simp] theorem exec_mbxLockWrite (w : Word) (st : State) :
    exec (.mbxLockWrite w) st = execMbxLockWrite w st := rfl
@[simp] theorem exec_functionLevelReset (fn : Fin 4) (st : State) :
    exec (.functionLevelReset fn) st = execFunctionLevelReset fn st := rfl
@[simp] theorem exec_levelConfig (h : CmdHdr) (lag diverge : Word) (st : State) :
    exec (.levelConfig h lag diverge) st = execLevelConfig h lag diverge st := rfl
@[simp] theorem exec_levelStart (h : CmdHdr) (mode : Word) (st : State) :
    exec (.levelStart h mode) st = execLevelStart h mode st := rfl
@[simp] theorem exec_levelRelevel (h : CmdHdr) (w1 rate maxres maxpass : Word) (st : State) :
    exec (.levelRelevel h w1 rate maxres maxpass) st = execLevelRelevel h w1 rate maxres maxpass st := rfl
@[simp] theorem exec_levelCancel (h : CmdHdr) (st : State) :
    exec (.levelCancel h) st = execLevelCancel h st := rfl
@[simp] theorem exec_levelBench (h : CmdHdr) (first count detail : Word) (st : State) :
    exec (.levelBench h first count detail) st = execLevelBench h first count detail st := rfl
@[simp] theorem exec_levelMap (h : CmdHdr) (st : State) :
    exec (.levelMap h) st = execLevelMap h st := rfl
@[simp] theorem exec_levelDebug (h : CmdHdr) (op cores : Word) (st : State) :
    exec (.levelDebug h op cores) st = execLevelDebug h op cores st := rfl
@[simp] theorem exec_closureConfig (h : CmdHdr) (policy auto wd inj : Word) (st : State) :
    exec (.closureConfig h policy auto wd inj) st = execClosureConfig h policy auto wd inj st := rfl
@[simp] theorem exec_closureInject (h : CmdHdr) (dies restore : Word) (st : State) :
    exec (.closureInject h dies restore) st = execClosureInject h dies restore st := rfl
@[simp] theorem exec_closureStatus (h : CmdHdr) (st : State) :
    exec (.closureStatus h) st = execClosureStatus h st := rfl
@[simp] theorem exec_chainStart (h : CmdHdr) (cn : Word) (st : State) :
    exec (.chainStart h cn) st = execChainStart h cn st := rfl
@[simp] theorem exec_parcelCreate (h : CmdHdr) (parcel system ctxBase : Word) (st : State) :
    exec (.parcelCreate h parcel system ctxBase) st = execParcelCreate h parcel system ctxBase st := rfl
@[simp] theorem exec_parcelDestroy (h : CmdHdr) (parcel : Word) (st : State) :
    exec (.parcelDestroy h parcel) st = execParcelDestroy h parcel st := rfl
@[simp] theorem exec_parcelCores (h : CmdHdr) (parcel cores entry : Word) (st : State) :
    exec (.parcelCores h parcel cores entry) st = execParcelCores h parcel cores entry st := rfl
@[simp] theorem exec_parcelMap (h : CmdHdr) (parcel op entry : Word) (st : State) :
    exec (.parcelMap h parcel op entry) st = execParcelMap h parcel op entry st := rfl
@[simp] theorem exec_parcelSegment (h : CmdHdr) (mseg acl code : Word) (st : State) :
    exec (.parcelSegment h mseg acl code) st = execParcelSegment h mseg acl code st := rfl
@[simp] theorem exec_parcelRetire (h : CmdHdr) (op page : Word) (st : State) :
    exec (.parcelRetire h op page) st = execParcelRetire h op page st := rfl
@[simp] theorem exec_parcelVector (h : CmdHdr) (parcel vector core : Word) (st : State) :
    exec (.parcelVector h parcel vector core) st = execParcelVector h parcel vector core st := rfl
@[simp] theorem exec_codeLoad (h : CmdHdr) (parcel frame : Word) (st : State) :
    exec (.codeLoad h parcel frame) st = execCodeLoad h parcel frame st := rfl
@[simp] theorem exec_codeMpatch (h : CmdHdr) (st : State) :
    exec (.codeMpatch h) st = execCodeMpatch h st := rfl
@[simp] theorem exec_stationGrant (h : CmdHdr) (first count parcel quota : Word) (st : State) :
    exec (.stationGrant h first count parcel quota) st = execStationGrant h first count parcel quota st := rfl
@[simp] theorem exec_stationQuery (h : CmdHdr) (station : Word) (st : State) :
    exec (.stationQuery h station) st = execStationQuery h station st := rfl
@[simp] theorem exec_stationBook (h : CmdHdr) (op book w0 w1 : Word) (st : State) :
    exec (.stationBook h op book w0 w1) st = execStationBook h op book w0 w1 st := rfl
@[simp] theorem exec_stationMirror (h : CmdHdr) (book resend : Word) (st : State) :
    exec (.stationMirror h book resend) st = execStationMirror h book resend st := rfl
@[simp] theorem exec_stationTakeover (h : CmdHdr) (mbook jbook cont : Word) (pairs : List Word) (st : State) :
    exec (.stationTakeover h mbook jbook cont pairs) st = execStationTakeover h mbook jbook cont pairs st := rfl
@[simp] theorem exec_stationReconcile (h : CmdHdr) (stack : Word) (st : State) :
    exec (.stationReconcile h stack) st = execStationReconcile h stack st := rfl
@[simp] theorem exec_pathModid (h : CmdHdr) (id : Word) (st : State) :
    exec (.pathModid h id) st = execPathModid h id st := rfl
@[simp] theorem exec_pathPort (h : CmdHdr) (port cfg mac raw : Word) (mcast : List Word) (st : State) :
    exec (.pathPort h port cfg mac raw mcast) st = execPathPort h port cfg mac raw mcast st := rfl
@[simp] theorem exec_pathStatus (h : CmdHdr) (port : Word) (st : State) :
    exec (.pathStatus h port) st = execPathStatus h port st := rfl
@[simp] theorem exec_pathAddr (h : CmdHdr) (index ipv hi lo : Word) (st : State) :
    exec (.pathAddr h index ipv hi lo) st = execPathAddr h index ipv hi lo st := rfl
@[simp] theorem exec_pathGroup (h : CmdHdr) (group policy half : Word) (paths : List Word) (st : State) :
    exec (.pathGroup h group policy half paths) st = execPathGroup h group policy half paths st := rfl
@[simp] theorem exec_pathLink (h : CmdHdr) (tvtPort ladder : Word) (st : State) :
    exec (.pathLink h tvtPort ladder) st = execPathLink h tvtPort ladder st := rfl
@[simp] theorem exec_keyInit (h : CmdHdr) (trng : List Word) (st : State) :
    exec (.keyInit h trng) st = execKeyInit h trng st := rfl
@[simp] theorem exec_keyGenerate (h : CmdHdr) (slot attrs : Word) (trng : List Word) (st : State) :
    exec (.keyGenerate h slot attrs trng) st = execKeyGenerate h slot attrs trng st := rfl
@[simp] theorem exec_keyImport (h : CmdHdr) (slot kek attrs : Word) (blob : List Word) (st : State) :
    exec (.keyImport h slot kek attrs blob) st = execKeyImport h slot kek attrs blob st := rfl
@[simp] theorem exec_keyExport (h : CmdHdr) (slot kek : Word) (st : State) :
    exec (.keyExport h slot kek) st = execKeyExport h slot kek st := rfl
@[simp] theorem exec_keyAttr (h : CmdHdr) (slot : Word) (st : State) :
    exec (.keyAttr h slot) st = execKeyAttr h slot st := rfl
@[simp] theorem exec_keyDelete (h : CmdHdr) (slot : Word) (st : State) :
    exec (.keyDelete h slot) st = execKeyDelete h slot st := rfl
@[simp] theorem exec_keyZeroise (h : CmdHdr) (magic : Word) (st : State) :
    exec (.keyZeroise h magic) st = execKeyZeroise h magic st := rfl
@[simp] theorem exec_cipherPage (h : CmdHdr) (page parcel ctx : Word) (st : State) :
    exec (.cipherPage h page parcel ctx) st = execCipherPage h page parcel ctx st := rfl
@[simp] theorem exec_cipherChannel (h : CmdHdr) (engine chan parcel ctx : Word) (st : State) :
    exec (.cipherChannel h engine chan parcel ctx) st = execCipherChannel h engine chan parcel ctx st := rfl
@[simp] theorem exec_cipherLock (h : CmdHdr) (en page : Word) (st : State) :
    exec (.cipherLock h en page) st = execCipherLock h en page st := rfl
@[simp] theorem exec_cipherTest (h : CmdHdr) (pass0 pass1 : Bool) (st : State) :
    exec (.cipherTest h pass0 pass1) st = execCipherTest h pass0 pass1 st := rfl
@[simp] theorem exec_memConfig (h : CmdHdr) (ws : List Word) (st : State) :
    exec (.memConfig h ws) st = execMemConfig h ws st := rfl
@[simp] theorem exec_memBoard (h : CmdHdr) (ch rankSlot f0 f1 f2 : Word) (st : State) :
    exec (.memBoard h ch rankSlot f0 f1 f2) st = execMemBoard h ch rankSlot f0 f1 f2 st := rfl
@[simp] theorem exec_memTrain (h : CmdHdr) (st : State) :
    exec (.memTrain h) st = execMemTrain h st := rfl
@[simp] theorem exec_memFreq (h : CmdHdr) (set : Word) (st : State) :
    exec (.memFreq h set) st = execMemFreq h set st := rfl
@[simp] theorem exec_memLost (h : CmdHdr) (clear : Word) (st : State) :
    exec (.memLost h clear) st = execMemLost h clear st := rfl
@[simp] theorem exec_memLog (h : CmdHdr) (clear : Word) (st : State) :
    exec (.memLog h clear) st = execMemLog h clear st := rfl
@[simp] theorem exec_memEcctest (h : CmdHdr) (unit ch en raw : Word) (st : State) :
    exec (.memEcctest h unit ch en raw) st = execMemEcctest h unit ch en raw st := rfl
@[simp] theorem exec_memRetire (h : CmdHdr) (ch entry : Word) (st : State) :
    exec (.memRetire h ch entry) st = execMemRetire h ch entry st := rfl
@[simp] theorem exec_memCtl (h : CmdHdr) (w1 hold : Word) (st : State) :
    exec (.memCtl h w1 hold) st = execMemCtl h w1 hold st := rfl
@[simp] theorem exec_memTiming (h : CmdHdr) (w1 : Word) (vals : List Word) (st : State) :
    exec (.memTiming h w1 vals) st = execMemTiming h w1 vals st := rfl
@[simp] theorem exec_memQos (h : CmdHdr) (port target rate : Word) (st : State) :
    exec (.memQos h port target rate) st = execMemQos h port target rate st := rfl
@[simp] theorem exec_scrubRun (h : CmdHdr) (base len : Word) (st : State) :
    exec (.scrubRun h base len) st = execScrubRun h base len st := rfl
@[simp] theorem exec_scrubCancel (h : CmdHdr) (st : State) :
    exec (.scrubCancel h) st = execScrubCancel h st := rfl
@[simp] theorem exec_faultConfig (h : CmdHdr) (w1 w2 cores : Word) (st : State) :
    exec (.faultConfig h w1 w2 cores) st = execFaultConfig h w1 w2 cores st := rfl
@[simp] theorem exec_faultRead (h : CmdHdr) (source : Word) (st : State) :
    exec (.faultRead h source) st = execFaultRead h source st := rfl
@[simp] theorem exec_faultRoute (h : CmdHdr) (chan : Word) (st : State) :
    exec (.faultRoute h chan) st = execFaultRoute h chan st := rfl
@[simp] theorem exec_faultInject (h : CmdHdr) (source info : Word) (st : State) :
    exec (.faultInject h source info) st = execFaultInject h source info st := rfl
@[simp] theorem exec_faultBbox (h : CmdHdr) (op first count : Word) (st : State) :
    exec (.faultBbox h op first count) st = execFaultBbox h op first count st := rfl
@[simp] theorem exec_powerDomain (h : CmdHdr) (domain on : Word) (st : State) :
    exec (.powerDomain h domain on) st = execPowerDomain h domain on st := rfl
@[simp] theorem exec_powerRead (h : CmdHdr) (readings : List Word) (st : State) :
    exec (.powerRead h readings) st = execPowerRead h readings st := rfl
@[simp] theorem exec_powerThrottle (h : CmdHdr) (mode level : Word) (st : State) :
    exec (.powerThrottle h mode level) st = execPowerThrottle h mode level st := rfl
@[simp] theorem exec_powerReset (h : CmdHdr) (kind unit : Word) (st : State) :
    exec (.powerReset h kind unit) st = execPowerReset h kind unit st := rfl
@[simp] theorem exec_calRead (h : CmdHdr) (off count : Word) (st : State) :
    exec (.calRead h off count) st = execCalRead h off count st := rfl
@[simp] theorem exec_calWrite (h : CmdHdr) (off : Word) (ws : List Word) (st : State) :
    exec (.calWrite h off ws) st = execCalWrite h off ws st := rfl
@[simp] theorem exec_calCommit (h : CmdHdr) (magic : Word) (st : State) :
    exec (.calCommit h magic) st = execCalCommit h magic st := rfl
@[simp] theorem exec_imageWrite (h : CmdHdr) (slot off : Word) (ws : List Word) (st : State) :
    exec (.imageWrite h slot off ws) st = execImageWrite h slot off ws st := rfl
@[simp] theorem exec_imageVerify (h : CmdHdr) (slot : Word) (st : State) :
    exec (.imageVerify h slot) st = execImageVerify h slot st := rfl
@[simp] theorem exec_imageActivate (h : CmdHdr) (slot : Word) (st : State) :
    exec (.imageActivate h slot) st = execImageActivate h slot st := rfl
@[simp] theorem exec_imageCommit (h : CmdHdr) (st : State) :
    exec (.imageCommit h) st = execImageCommit h st := rfl
@[simp] theorem exec_imageRevoke (h : CmdHdr) (gen : Word) (st : State) :
    exec (.imageRevoke h gen) st = execImageRevoke h gen st := rfl
@[simp] theorem exec_imageStatus (h : CmdHdr) (st : State) :
    exec (.imageStatus h) st = execImageStatus h st := rfl
@[simp] theorem exec_expertEnable (h : CmdHdr) (st : State) :
    exec (.expertEnable h) st = execExpertEnable h st := rfl
@[simp] theorem exec_expertDisable (h : CmdHdr) (st : State) :
    exec (.expertDisable h) st = execExpertDisable h st := rfl
@[simp] theorem exec_expertStakedWrite (go : Word) (st : State) :
    exec (.expertStakedWrite go) st = execExpertStakedWrite go st := rfl
@[simp] theorem exec_expertRawWrite (u : UnitId) (off : BitVec 26) (w : Word) (st : State) :
    exec (.expertRawWrite u off w) st = execExpertRawWrite u off w st := rfl
@[simp] theorem exec_registerWrite (sp : RegSpace) (off : BitVec 38) (w : Word) (st : State) :
    exec (.registerWrite sp off w) st = execRegisterWrite sp off w st := rfl
@[simp] theorem exec_svcWatchdog (st : State) :
    exec (.svcWatchdog) st = execSvcWatchdog st := rfl
@[simp] theorem exec_svcLockstep (st : State) :
    exec (.svcLockstep) st = execSvcLockstep st := rfl
@[simp] theorem exec_faultEvent (source : BitVec 12) (ucc : Nat) (info : Word) (st : State) :
    exec (.faultEvent source ucc info) st = execFaultEvent source ucc info st := rfl
@[simp] theorem exec_blockReset (u : UnitId) (h : StakeHdr) (kind : BitVec 2) (k : Fin 16) (st : State) :
    exec (.blockReset u h kind k) st = execBlockReset u h kind k st := rfl
@[simp] theorem exec_mrDelayExpiry (st : State) :
    exec (.mrDelayExpiry) st = execMrDelayExpiry st := rfl
@[simp] theorem exec_tickFailure (st : State) :
    exec (.tickFailure) st = execTickFailure st := rfl
@[simp] theorem exec_checkstopIn (st : State) :
    exec (.checkstopIn) st = execCheckstopIn st := rfl
@[simp] theorem exec_hostCheckstop (st : State) :
    exec (.hostCheckstop) st = execHostCheckstop st := rfl
@[simp] theorem exec_bbFreeze (st : State) :
    exec (.bbFreeze) st = execBbFreeze st := rfl
@[simp] theorem exec_bbRelease (st : State) :
    exec (.bbRelease) st = execBbRelease st := rfl
@[simp] theorem exec_errorSet (st : State) :
    exec (.errorSet) st = execErrorSet st := rfl
@[simp] theorem exec_errorClr (st : State) :
    exec (.errorClr) st = execErrorClr st := rfl
@[simp] theorem exec_fltFirstClear (st : State) :
    exec (.fltFirstClear) st = execFltFirstClear st := rfl
@[simp] theorem exec_benchResetWarm (key : BitVec 16) (st : State) :
    exec (.benchResetWarm key) st = execBenchResetWarm key st := rfl
@[simp] theorem exec_benchResetCold (key : BitVec 16) (st : State) :
    exec (.benchResetCold key) st = execBenchResetCold key st := rfl
@[simp] theorem exec_benchZeroArm (key : BitVec 16) (st : State) :
    exec (.benchZeroArm key) st = execBenchZeroArm key st := rfl
@[simp] theorem exec_benchZero (key : BitVec 16) (st : State) :
    exec (.benchZero key) st = execBenchZero key st := rfl
@[simp] theorem exec_vaonApply (st : State) :
    exec (.vaonApply) st = execVaonApply st := rfl
@[simp] theorem exec_vaonRemove (st : State) :
    exec (.vaonRemove) st = execVaonRemove st := rfl
@[simp] theorem exec_pwrGoodRise (st : State) :
    exec (.pwrGoodRise) st = execPwrGoodRise st := rfl
@[simp] theorem exec_pwrGoodFall (st : State) :
    exec (.pwrGoodFall) st = execPwrGoodFall st := rfl
@[simp] theorem exec_modResetN (level : Bool) (st : State) :
    exec (.modResetN level) st = execModResetN level st := rfl
@[simp] theorem exec_perstN (level : Bool) (st : State) :
    exec (.perstN level) st = execPerstN level st := rfl
@[simp] theorem exec_resetExit (st : State) :
    exec (.resetExit) st = execResetExit st := rfl
@[simp] theorem exec_startupPhaseEnd (ok : Bool) (st : State) :
    exec (.startupPhaseEnd ok) st = execStartupPhaseEnd ok st := rfl
@[simp] theorem exec_bringupPhaseTimeout (st : State) :
    exec (.bringupPhaseTimeout) st = execBringupPhaseTimeout st := rfl
@[simp] theorem exec_unitResetEnd (u : UnitId) (st : State) :
    exec (.unitResetEnd u) st = execUnitResetEnd u st := rfl
@[simp] theorem exec_powerSequenceEnd (d : Fin 52) (stable : Bool) (st : State) :
    exec (.powerSequenceEnd d stable) st = execPowerSequenceEnd d stable st := rfl
@[simp] theorem exec_throttleControl (maxTemp power0 power1 : Nat) (st : State) :
    exec (.throttleControl maxTemp power0 power1) st = execThrottleControl maxTemp power0 power1 st := rfl
@[simp] theorem exec_railLoss (rail : Fin 12) (st : State) :
    exec (.railLoss rail) st = execRailLoss rail st := rfl
@[simp] theorem exec_refclkLoss (st : State) :
    exec (.refclkLoss) st = execRefclkLoss st := rfl
@[simp] theorem exec_jtagInstruction (ir : BitVec 8) (st : State) :
    exec (.jtagInstruction ir) st = execJtagInstruction ir st := rfl
@[simp] theorem exec_refclkReturn (st : State) :
    exec (.refclkReturn) st = execRefclkReturn st := rfl
@[simp] theorem exec_pauseExpiry (p : PortId) (st : State) :
    exec (.pauseExpiry p) st = execPauseExpiry p st := rfl
@[simp] theorem exec_refreshFineChange (hot : Bool) (st : State) :
    exec (.refreshFineChange hot) st = execRefreshFineChange hot st := rfl
@[simp] theorem exec_benchZeroArmExpiry (st : State) :
    exec (.benchZeroArmExpiry) st = execBenchZeroArmExpiry st := rfl
@[simp] theorem exec_timeOfDayChange (tod : Word) (st : State) :
    exec (.timeOfDayChange tod) st = execTimeOfDayChange tod st := rfl
@[simp] theorem exec_todAlarmSet (tod : Word) (st : State) :
    exec (.todAlarmSet tod) st = execTodAlarmSet tod st := rfl
@[simp] theorem exec_unassignedInstruction (i : Issue) (why : BadDecode) (len : Fin 4) (st : State) :
    exec (.unassignedInstruction i why len) st = execUnassignedInstruction i why len st := rfl

end Sys2Proof.Laws
end

