-- ==== Sys2Proof/Laws/State.lean ====
section
/-! SUPPORT. Laws of the accessors of the state: what each update leaves and what it gives, one lemma for each field. -/
namespace Sys2Proof.Laws

open Sys2Proof.Machine

@[simp] theorem getUnit_setUnit (s : State) (u : UnitId) (x : UnitState) : getUnit (setUnit s u x) u = x := by cases u <;> rfl

theorem getUnit_setUnit_ne (s : State) {u v : UnitId} (x : UnitState) (h : u ≠ v) : getUnit (setUnit s u x) v = getUnit s v := by
  cases u <;> cases v <;> first | rfl | exact absurd rfl h

@[simp] theorem setUnit_setUnit (s : State) (u : UnitId) (x y : UnitState) : setUnit (setUnit s u x) u y = setUnit s u y := by
  cases u <;> rfl

@[simp] theorem setUnit_getUnit (s : State) (u : UnitId) : setUnit s u (getUnit s u) = s := by cases u <;> rfl

@[simp] theorem getUnit_modUnit (s : State) (u : UnitId) (f : UnitState → UnitState) :
    getUnit (modUnit s u f) u = f (getUnit s u) := getUnit_setUnit s u _

theorem getUnit_modUnit_ne (s : State) {u v : UnitId} (f : UnitState → UnitState) (h : u ≠ v) :
    getUnit (modUnit s u f) v = getUnit s v := getUnit_setUnit_ne s _ h

@[simp] theorem modUnit_modUnit (s : State) (u : UnitId) (f g : UnitState → UnitState) :
    modUnit (modUnit s u f) u g = modUnit s u (fun x => g (f x)) := by
  simp [modUnit]

@[simp] theorem setUnit_pending (s : State) (u : UnitId) (x : UnitState) : (setUnit s u x).pending = s.pending := by cases u <;> rfl
@[simp] theorem setUnit_freeCtr (s : State) (u : UnitId) (x : UnitState) : (setUnit s u x).freeCtr = s.freeCtr := by cases u <;> rfl
@[simp] theorem setUnit_bin (s : State) (u : UnitId) (x : UnitState) : (setUnit s u x).bin = s.bin := by cases u <;> rfl
@[simp] theorem setUnit_gen (s : State) (u : UnitId) (x : UnitState) : (setUnit s u x).gen = s.gen := by cases u <;> rfl
@[simp] theorem setUnit_dies (s : State) (u : UnitId) (x : UnitState) : (setUnit s u x).dies = s.dies := by cases u <;> rfl
@[simp] theorem setUnit_ports (s : State) (u : UnitId) (x : UnitState) : (setUnit s u x).ports = s.ports := by cases u <;> rfl
@[simp] theorem setUnit_hub (s : State) (u : UnitId) (x : UnitState) : (setUnit s u x).hub = s.hub := by cases u <;> rfl
@[simp] theorem setUnit_coll (s : State) (u : UnitId) (x : UnitState) : (setUnit s u x).coll = s.coll := by cases u <;> rfl
@[simp] theorem setUnit_bench (s : State) (u : UnitId) (x : UnitState) : (setUnit s u x).bench = s.bench := by cases u <;> rfl
@[simp] theorem setUnit_mail (s : State) (u : UnitId) (x : UnitState) : (setUnit s u x).mail = s.mail := by cases u <;> rfl
@[simp] theorem setUnit_sahya (s : State) (u : UnitId) (x : UnitState) : (setUnit s u x).sahya = s.sahya := by cases u <;> rfl
@[simp] theorem setUnit_keys (s : State) (u : UnitId) (x : UnitState) : (setUnit s u x).keys = s.keys := by cases u <;> rfl
@[simp] theorem setUnit_boot (s : State) (u : UnitId) (x : UnitState) : (setUnit s u x).boot = s.boot := by cases u <;> rfl
@[simp] theorem setUnit_pow (s : State) (u : UnitId) (x : UnitState) : (setUnit s u x).pow = s.pow := by cases u <;> rfl
@[simp] theorem setUnit_svcCore (s : State) (u : UnitId) (x : UnitState) : (setUnit s u x).svcCore = s.svcCore := by cases u <;> rfl
@[simp] theorem setUnit_svcMem (s : State) (u : UnitId) (x : UnitState) : (setUnit s u x).svcMem = s.svcMem := by cases u <;> rfl
@[simp] theorem setUnit_sent (s : State) (u : UnitId) (x : UnitState) : (setUnit s u x).sent = s.sent := by cases u <;> rfl
@[simp] theorem modUnit_pending (s : State) (u : UnitId) (f : UnitState → UnitState) : (modUnit s u f).pending = s.pending := setUnit_pending s u _
@[simp] theorem modUnit_freeCtr (s : State) (u : UnitId) (f : UnitState → UnitState) : (modUnit s u f).freeCtr = s.freeCtr := setUnit_freeCtr s u _
@[simp] theorem modUnit_bin (s : State) (u : UnitId) (f : UnitState → UnitState) : (modUnit s u f).bin = s.bin := setUnit_bin s u _
@[simp] theorem modUnit_gen (s : State) (u : UnitId) (f : UnitState → UnitState) : (modUnit s u f).gen = s.gen := setUnit_gen s u _
@[simp] theorem modUnit_dies (s : State) (u : UnitId) (f : UnitState → UnitState) : (modUnit s u f).dies = s.dies := setUnit_dies s u _
@[simp] theorem modUnit_ports (s : State) (u : UnitId) (f : UnitState → UnitState) : (modUnit s u f).ports = s.ports := setUnit_ports s u _
@[simp] theorem modUnit_hub (s : State) (u : UnitId) (f : UnitState → UnitState) : (modUnit s u f).hub = s.hub := setUnit_hub s u _
@[simp] theorem modUnit_coll (s : State) (u : UnitId) (f : UnitState → UnitState) : (modUnit s u f).coll = s.coll := setUnit_coll s u _
@[simp] theorem modUnit_bench (s : State) (u : UnitId) (f : UnitState → UnitState) : (modUnit s u f).bench = s.bench := setUnit_bench s u _
@[simp] theorem modUnit_mail (s : State) (u : UnitId) (f : UnitState → UnitState) : (modUnit s u f).mail = s.mail := setUnit_mail s u _
@[simp] theorem modUnit_sahya (s : State) (u : UnitId) (f : UnitState → UnitState) : (modUnit s u f).sahya = s.sahya := setUnit_sahya s u _
@[simp] theorem modUnit_keys (s : State) (u : UnitId) (f : UnitState → UnitState) : (modUnit s u f).keys = s.keys := setUnit_keys s u _
@[simp] theorem modUnit_boot (s : State) (u : UnitId) (f : UnitState → UnitState) : (modUnit s u f).boot = s.boot := setUnit_boot s u _
@[simp] theorem modUnit_pow (s : State) (u : UnitId) (f : UnitState → UnitState) : (modUnit s u f).pow = s.pow := setUnit_pow s u _
@[simp] theorem modUnit_svcCore (s : State) (u : UnitId) (f : UnitState → UnitState) : (modUnit s u f).svcCore = s.svcCore := setUnit_svcCore s u _
@[simp] theorem modUnit_svcMem (s : State) (u : UnitId) (f : UnitState → UnitState) : (modUnit s u f).svcMem = s.svcMem := setUnit_svcMem s u _
@[simp] theorem modUnit_sent (s : State) (u : UnitId) (f : UnitState → UnitState) : (modUnit s u f).sent = s.sent := setUnit_sent s u _

@[simp] theorem modUnit_u0 (s : State) (f : UnitState → UnitState) : (modUnit s .u0 f).u0 = f s.u0 := rfl
@[simp] theorem modUnit_u0_u1 (s : State) (f : UnitState → UnitState) : (modUnit s .u0 f).u1 = s.u1 := rfl
@[simp] theorem modUnit_u1 (s : State) (f : UnitState → UnitState) : (modUnit s .u1 f).u1 = f s.u1 := rfl
@[simp] theorem modUnit_u1_u0 (s : State) (f : UnitState → UnitState) : (modUnit s .u1 f).u0 = s.u0 := rfl

@[simp] theorem unitCore_setUnitCore (x : UnitState) (l : Nat) (c : Core) : unitCore (setUnitCore x l c) l = c := by
  simp [unitCore, setUnitCore]
@[simp] theorem unitEngine_setUnitEngine (x : UnitState) (e : Nat) (c : Core) : unitEngine (setUnitEngine x e c) e = c := by
  simp [unitEngine, setUnitEngine]
theorem unitCore_setUnitCore_ne (x : UnitState) {l m : Nat} (c : Core) (h : l ≠ m) : unitCore (setUnitCore x l c) m = unitCore x m := by
  simp [unitCore, setUnitCore, tabGet_tabSet, h]
theorem unitEngine_setUnitEngine_ne (x : UnitState) {e m : Nat} (c : Core) (h : e ≠ m) :
    unitEngine (setUnitEngine x e c) m = unitEngine x m := by
  simp [unitEngine, setUnitEngine, tabGet_tabSet, h]
@[simp] theorem unitCore_modUnitCore (x : UnitState) (l : Nat) (f : Core → Core) : unitCore (modUnitCore x l f) l = f (unitCore x l) :=
  unitCore_setUnitCore x l _
@[simp] theorem setUnitCore_setUnitCore (x : UnitState) (l : Nat) (c d : Core) : setUnitCore (setUnitCore x l c) l d = setUnitCore x l d := by
  simp [setUnitCore]
@[simp] theorem setUnitEngine_setUnitEngine (x : UnitState) (e : Nat) (c d : Core) :
    setUnitEngine (setUnitEngine x e c) e d = setUnitEngine x e d := by
  simp [setUnitEngine]
@[simp] theorem unitEngine_setUnitCore (x : UnitState) (l e : Nat) (c : Core) : unitEngine (setUnitCore x l c) e = unitEngine x e := rfl
@[simp] theorem unitCore_setUnitEngine (x : UnitState) (l e : Nat) (c : Core) : unitCore (setUnitEngine x e c) l = unitCore x l := rfl
@[simp] theorem setUnitCore_powered (x : UnitState) (l : Nat) (c : Core) : (setUnitCore x l c).powered = x.powered := rfl
@[simp] theorem setUnitEngine_powered (x : UnitState) (e : Nat) (c : Core) : (setUnitEngine x e c).powered = x.powered := rfl
@[simp] theorem modSig_powered (x : UnitState) (f : Sigs → Sigs) : (modSig x f).powered = x.powered := rfl
@[simp] theorem setUnitCore_executing (x : UnitState) (l : Nat) (c : Core) : (setUnitCore x l c).executing = x.executing := rfl
@[simp] theorem setUnitEngine_executing (x : UnitState) (e : Nat) (c : Core) : (setUnitEngine x e c).executing = x.executing := rfl
@[simp] theorem modSig_executing (x : UnitState) (f : Sigs → Sigs) : (modSig x f).executing = x.executing := rfl
@[simp] theorem setUnitCore_dropped (x : UnitState) (l : Nat) (c : Core) : (setUnitCore x l c).dropped = x.dropped := rfl
@[simp] theorem setUnitEngine_dropped (x : UnitState) (e : Nat) (c : Core) : (setUnitEngine x e c).dropped = x.dropped := rfl
@[simp] theorem modSig_dropped (x : UnitState) (f : Sigs → Sigs) : (modSig x f).dropped = x.dropped := rfl
@[simp] theorem setUnitCore_initialised (x : UnitState) (l : Nat) (c : Core) : (setUnitCore x l c).initialised = x.initialised := rfl
@[simp] theorem setUnitEngine_initialised (x : UnitState) (e : Nat) (c : Core) : (setUnitEngine x e c).initialised = x.initialised := rfl
@[simp] theorem modSig_initialised (x : UnitState) (f : Sigs → Sigs) : (modSig x f).initialised = x.initialised := rfl
@[simp] theorem setUnitCore_held (x : UnitState) (l : Nat) (c : Core) : (setUnitCore x l c).held = x.held := rfl
@[simp] theorem setUnitEngine_held (x : UnitState) (e : Nat) (c : Core) : (setUnitEngine x e c).held = x.held := rfl
@[simp] theorem modSig_held (x : UnitState) (f : Sigs → Sigs) : (modSig x f).held = x.held := rfl
@[simp] theorem setUnitCore_ucc (x : UnitState) (l : Nat) (c : Core) : (setUnitCore x l c).ucc = x.ucc := rfl
@[simp] theorem setUnitEngine_ucc (x : UnitState) (e : Nat) (c : Core) : (setUnitEngine x e c).ucc = x.ucc := rfl
@[simp] theorem modSig_ucc (x : UnitState) (f : Sigs → Sigs) : (modSig x f).ucc = x.ucc := rfl
@[simp] theorem setUnitCore_cn (x : UnitState) (l : Nat) (c : Core) : (setUnitCore x l c).cn = x.cn := rfl
@[simp] theorem setUnitEngine_cn (x : UnitState) (e : Nat) (c : Core) : (setUnitEngine x e c).cn = x.cn := rfl
@[simp] theorem modSig_cn (x : UnitState) (f : Sigs → Sigs) : (modSig x f).cn = x.cn := rfl
@[simp] theorem setUnitCore_ub (x : UnitState) (l : Nat) (c : Core) : (setUnitCore x l c).ub = x.ub := rfl
@[simp] theorem setUnitEngine_ub (x : UnitState) (e : Nat) (c : Core) : (setUnitEngine x e c).ub = x.ub := rfl
@[simp] theorem modSig_ub (x : UnitState) (f : Sigs → Sigs) : (modSig x f).ub = x.ub := rfl
@[simp] theorem setUnitCore_chn (x : UnitState) (l : Nat) (c : Core) : (setUnitCore x l c).chn = x.chn := rfl
@[simp] theorem setUnitEngine_chn (x : UnitState) (e : Nat) (c : Core) : (setUnitEngine x e c).chn = x.chn := rfl
@[simp] theorem modSig_chn (x : UnitState) (f : Sigs → Sigs) : (modSig x f).chn = x.chn := rfl
@[simp] theorem setUnitCore_lvl (x : UnitState) (l : Nat) (c : Core) : (setUnitCore x l c).lvl = x.lvl := rfl
@[simp] theorem setUnitEngine_lvl (x : UnitState) (e : Nat) (c : Core) : (setUnitEngine x e c).lvl = x.lvl := rfl
@[simp] theorem modSig_lvl (x : UnitState) (f : Sigs → Sigs) : (modSig x f).lvl = x.lvl := rfl
@[simp] theorem setUnitCore_clo (x : UnitState) (l : Nat) (c : Core) : (setUnitCore x l c).clo = x.clo := rfl
@[simp] theorem setUnitEngine_clo (x : UnitState) (e : Nat) (c : Core) : (setUnitEngine x e c).clo = x.clo := rfl
@[simp] theorem modSig_clo (x : UnitState) (f : Sigs → Sigs) : (modSig x f).clo = x.clo := rfl
@[simp] theorem setUnitCore_mem (x : UnitState) (l : Nat) (c : Core) : (setUnitCore x l c).mem = x.mem := rfl
@[simp] theorem setUnitEngine_mem (x : UnitState) (e : Nat) (c : Core) : (setUnitEngine x e c).mem = x.mem := rfl
@[simp] theorem modSig_mem (x : UnitState) (f : Sigs → Sigs) : (modSig x f).mem = x.mem := rfl
@[simp] theorem setUnitCore_trv (x : UnitState) (l : Nat) (c : Core) : (setUnitCore x l c).trv = x.trv := rfl
@[simp] theorem setUnitEngine_trv (x : UnitState) (e : Nat) (c : Core) : (setUnitEngine x e c).trv = x.trv := rfl
@[simp] theorem modSig_trv (x : UnitState) (f : Sigs → Sigs) : (modSig x f).trv = x.trv := rfl
@[simp] theorem setUnitCore_fb (x : UnitState) (l : Nat) (c : Core) : (setUnitCore x l c).fb = x.fb := rfl
@[simp] theorem setUnitEngine_fb (x : UnitState) (e : Nat) (c : Core) : (setUnitEngine x e c).fb = x.fb := rfl
@[simp] theorem modSig_fb (x : UnitState) (f : Sigs → Sigs) : (modSig x f).fb = x.fb := rfl
@[simp] theorem setUnitCore_cph (x : UnitState) (l : Nat) (c : Core) : (setUnitCore x l c).cph = x.cph := rfl
@[simp] theorem setUnitEngine_cph (x : UnitState) (e : Nat) (c : Core) : (setUnitEngine x e c).cph = x.cph := rfl
@[simp] theorem modSig_cph (x : UnitState) (f : Sigs → Sigs) : (modSig x f).cph = x.cph := rfl
@[simp] theorem setUnitCore_views (x : UnitState) (l : Nat) (c : Core) : (setUnitCore x l c).views = x.views := rfl
@[simp] theorem setUnitEngine_views (x : UnitState) (e : Nat) (c : Core) : (setUnitEngine x e c).views = x.views := rfl
@[simp] theorem modSig_views (x : UnitState) (f : Sigs → Sigs) : (modSig x f).views = x.views := rfl
@[simp] theorem setUnitCore_binds (x : UnitState) (l : Nat) (c : Core) : (setUnitCore x l c).binds = x.binds := rfl
@[simp] theorem setUnitEngine_binds (x : UnitState) (e : Nat) (c : Core) : (setUnitEngine x e c).binds = x.binds := rfl
@[simp] theorem modSig_binds (x : UnitState) (f : Sigs → Sigs) : (modSig x f).binds = x.binds := rfl
@[simp] theorem setUnitCore_feed (x : UnitState) (l : Nat) (c : Core) : (setUnitCore x l c).feed = x.feed := rfl
@[simp] theorem setUnitEngine_feed (x : UnitState) (e : Nat) (c : Core) : (setUnitEngine x e c).feed = x.feed := rfl
@[simp] theorem modSig_feed (x : UnitState) (f : Sigs → Sigs) : (modSig x f).feed = x.feed := rfl

@[simp] theorem getCore_setCore (s : State) (p : Proc) (c : Core) : getCore (setCore s p c) p = c := by
  cases p <;> simp [getCore, setCore]
@[simp] theorem setCore_setCore (s : State) (p : Proc) (c d : Core) : setCore (setCore s p c) p d = setCore s p d := by
  cases p <;> simp [setCore]
@[simp] theorem getCore_modCore (s : State) (p : Proc) (f : Core → Core) : getCore (modCore s p f) p = f (getCore s p) :=
  getCore_setCore s p _
@[simp] theorem setCore_modCore (s : State) (p : Proc) (f : Core → Core) (c : Core) : setCore (modCore s p f) p c = setCore s p c :=
  setCore_setCore s p _ c

@[simp] theorem wrD_a (c : Core) (r : Reg) (v : Word) : (wrD c r v).a = c.a := rfl
@[simp] theorem wrK_a (c : Core) (r : Reg) (v : Quad) : (wrK c r v).a = c.a := rfl
@[simp] theorem wrA_d (c : Core) (r : Reg) (v : Word) : (wrA c r v).d = c.d := rfl
@[simp] theorem wrK_d (c : Core) (r : Reg) (v : Quad) : (wrK c r v).d = c.d := rfl
@[simp] theorem wrD_k (c : Core) (r : Reg) (v : Word) : (wrD c r v).k = c.k := rfl
@[simp] theorem wrA_k (c : Core) (r : Reg) (v : Word) : (wrA c r v).k = c.k := rfl
@[simp] theorem wrD_pc (c : Core) (r : Reg) (v : Word) : (wrD c r v).pc = c.pc := rfl
@[simp] theorem wrA_pc (c : Core) (r : Reg) (v : Word) : (wrA c r v).pc = c.pc := rfl
@[simp] theorem wrK_pc (c : Core) (r : Reg) (v : Quad) : (wrK c r v).pc = c.pc := rfl
@[simp] theorem wrD_psw (c : Core) (r : Reg) (v : Word) : (wrD c r v).psw = c.psw := rfl
@[simp] theorem wrA_psw (c : Core) (r : Reg) (v : Word) : (wrA c r v).psw = c.psw := rfl
@[simp] theorem wrK_psw (c : Core) (r : Reg) (v : Quad) : (wrK c r v).psw = c.psw := rfl
@[simp] theorem wrD_rm (c : Core) (r : Reg) (v : Word) : (wrD c r v).rm = c.rm := rfl
@[simp] theorem wrA_rm (c : Core) (r : Reg) (v : Word) : (wrA c r v).rm = c.rm := rfl
@[simp] theorem wrK_rm (c : Core) (r : Reg) (v : Quad) : (wrK c r v).rm = c.rm := rfl
@[simp] theorem wrD_subn (c : Core) (r : Reg) (v : Word) : (wrD c r v).subn = c.subn := rfl
@[simp] theorem wrA_subn (c : Core) (r : Reg) (v : Word) : (wrA c r v).subn = c.subn := rfl
@[simp] theorem wrK_subn (c : Core) (r : Reg) (v : Quad) : (wrK c r v).subn = c.subn := rfl
@[simp] theorem wrD_fpsw (c : Core) (r : Reg) (v : Word) : (wrD c r v).fpsw = c.fpsw := rfl
@[simp] theorem wrA_fpsw (c : Core) (r : Reg) (v : Word) : (wrA c r v).fpsw = c.fpsw := rfl
@[simp] theorem wrK_fpsw (c : Core) (r : Reg) (v : Quad) : (wrK c r v).fpsw = c.fpsw := rfl
@[simp] theorem wrD_rsvValid (c : Core) (r : Reg) (v : Word) : (wrD c r v).rsvValid = c.rsvValid := rfl
@[simp] theorem wrA_rsvValid (c : Core) (r : Reg) (v : Word) : (wrA c r v).rsvValid = c.rsvValid := rfl
@[simp] theorem wrK_rsvValid (c : Core) (r : Reg) (v : Quad) : (wrK c r v).rsvValid = c.rsvValid := rfl
@[simp] theorem wrD_rsvGranule (c : Core) (r : Reg) (v : Word) : (wrD c r v).rsvGranule = c.rsvGranule := rfl
@[simp] theorem wrA_rsvGranule (c : Core) (r : Reg) (v : Word) : (wrA c r v).rsvGranule = c.rsvGranule := rfl
@[simp] theorem wrK_rsvGranule (c : Core) (r : Reg) (v : Quad) : (wrK c r v).rsvGranule = c.rsvGranule := rfl
@[simp] theorem wrD_tcode (c : Core) (r : Reg) (v : Word) : (wrD c r v).tcode = c.tcode := rfl
@[simp] theorem wrA_tcode (c : Core) (r : Reg) (v : Word) : (wrA c r v).tcode = c.tcode := rfl
@[simp] theorem wrK_tcode (c : Core) (r : Reg) (v : Quad) : (wrK c r v).tcode = c.tcode := rfl
@[simp] theorem wrD_retryCnt (c : Core) (r : Reg) (v : Word) : (wrD c r v).retryCnt = c.retryCnt := rfl
@[simp] theorem wrA_retryCnt (c : Core) (r : Reg) (v : Word) : (wrA c r v).retryCnt = c.retryCnt := rfl
@[simp] theorem wrK_retryCnt (c : Core) (r : Reg) (v : Quad) : (wrK c r v).retryCnt = c.retryCnt := rfl
@[simp] theorem wrD_parcel (c : Core) (r : Reg) (v : Word) : (wrD c r v).parcel = c.parcel := rfl
@[simp] theorem wrA_parcel (c : Core) (r : Reg) (v : Word) : (wrA c r v).parcel = c.parcel := rfl
@[simp] theorem wrK_parcel (c : Core) (r : Reg) (v : Quad) : (wrK c r v).parcel = c.parcel := rfl
@[simp] theorem wrD_ea15 (c : Core) (r : Reg) (v : Word) : (wrD c r v).ea15 = c.ea15 := rfl
@[simp] theorem wrA_ea15 (c : Core) (r : Reg) (v : Word) : (wrA c r v).ea15 = c.ea15 := rfl
@[simp] theorem wrK_ea15 (c : Core) (r : Reg) (v : Quad) : (wrK c r v).ea15 = c.ea15 := rfl
@[simp] theorem wrD_ssp (c : Core) (r : Reg) (v : Word) : (wrD c r v).ssp = c.ssp := rfl
@[simp] theorem wrA_ssp (c : Core) (r : Reg) (v : Word) : (wrA c r v).ssp = c.ssp := rfl
@[simp] theorem wrK_ssp (c : Core) (r : Reg) (v : Quad) : (wrK c r v).ssp = c.ssp := rfl
@[simp] theorem wrD_vbase (c : Core) (r : Reg) (v : Word) : (wrD c r v).vbase = c.vbase := rfl
@[simp] theorem wrA_vbase (c : Core) (r : Reg) (v : Word) : (wrA c r v).vbase = c.vbase := rfl
@[simp] theorem wrK_vbase (c : Core) (r : Reg) (v : Quad) : (wrK c r v).vbase = c.vbase := rfl
@[simp] theorem wrD_epc (c : Core) (r : Reg) (v : Word) : (wrD c r v).epc = c.epc := rfl
@[simp] theorem wrA_epc (c : Core) (r : Reg) (v : Word) : (wrA c r v).epc = c.epc := rfl
@[simp] theorem wrK_epc (c : Core) (r : Reg) (v : Quad) : (wrK c r v).epc = c.epc := rfl
@[simp] theorem wrD_epsw (c : Core) (r : Reg) (v : Word) : (wrD c r v).epsw = c.epsw := rfl
@[simp] theorem wrA_epsw (c : Core) (r : Reg) (v : Word) : (wrA c r v).epsw = c.epsw := rfl
@[simp] theorem wrK_epsw (c : Core) (r : Reg) (v : Quad) : (wrK c r v).epsw = c.epsw := rfl
@[simp] theorem wrD_ecause (c : Core) (r : Reg) (v : Word) : (wrD c r v).ecause = c.ecause := rfl
@[simp] theorem wrA_ecause (c : Core) (r : Reg) (v : Word) : (wrA c r v).ecause = c.ecause := rfl
@[simp] theorem wrK_ecause (c : Core) (r : Reg) (v : Quad) : (wrK c r v).ecause = c.ecause := rfl
@[simp] theorem wrD_eaddr (c : Core) (r : Reg) (v : Word) : (wrD c r v).eaddr = c.eaddr := rfl
@[simp] theorem wrA_eaddr (c : Core) (r : Reg) (v : Word) : (wrA c r v).eaddr = c.eaddr := rfl
@[simp] theorem wrK_eaddr (c : Core) (r : Reg) (v : Quad) : (wrK c r v).eaddr = c.eaddr := rfl
@[simp] theorem wrD_tcmp (c : Core) (r : Reg) (v : Word) : (wrD c r v).tcmp = c.tcmp := rfl
@[simp] theorem wrA_tcmp (c : Core) (r : Reg) (v : Word) : (wrA c r v).tcmp = c.tcmp := rfl
@[simp] theorem wrK_tcmp (c : Core) (r : Reg) (v : Quad) : (wrK c r v).tcmp = c.tcmp := rfl
@[simp] theorem wrD_pend (c : Core) (r : Reg) (v : Word) : (wrD c r v).pend = c.pend := rfl
@[simp] theorem wrA_pend (c : Core) (r : Reg) (v : Word) : (wrA c r v).pend = c.pend := rfl
@[simp] theorem wrK_pend (c : Core) (r : Reg) (v : Quad) : (wrK c r v).pend = c.pend := rfl
@[simp] theorem wrD_sb (c : Core) (r : Reg) (v : Word) : (wrD c r v).sb = c.sb := rfl
@[simp] theorem wrA_sb (c : Core) (r : Reg) (v : Word) : (wrA c r v).sb = c.sb := rfl
@[simp] theorem wrK_sb (c : Core) (r : Reg) (v : Quad) : (wrK c r v).sb = c.sb := rfl
@[simp] theorem wrD_txn (c : Core) (r : Reg) (v : Word) : (wrD c r v).txn = c.txn := rfl
@[simp] theorem wrA_txn (c : Core) (r : Reg) (v : Word) : (wrA c r v).txn = c.txn := rfl
@[simp] theorem wrK_txn (c : Core) (r : Reg) (v : Quad) : (wrK c r v).txn = c.txn := rfl
@[simp] theorem wrD_carried (c : Core) (r : Reg) (v : Word) : (wrD c r v).carried = c.carried := rfl
@[simp] theorem wrA_carried (c : Core) (r : Reg) (v : Word) : (wrA c r v).carried = c.carried := rfl
@[simp] theorem wrK_carried (c : Core) (r : Reg) (v : Quad) : (wrK c r v).carried = c.carried := rfl
@[simp] theorem wrD_waiting (c : Core) (r : Reg) (v : Word) : (wrD c r v).waiting = c.waiting := rfl
@[simp] theorem wrA_waiting (c : Core) (r : Reg) (v : Word) : (wrA c r v).waiting = c.waiting := rfl
@[simp] theorem wrK_waiting (c : Core) (r : Reg) (v : Quad) : (wrK c r v).waiting = c.waiting := rfl
@[simp] theorem wrD_pinWait (c : Core) (r : Reg) (v : Word) : (wrD c r v).pinWait = c.pinWait := rfl
@[simp] theorem wrA_pinWait (c : Core) (r : Reg) (v : Word) : (wrA c r v).pinWait = c.pinWait := rfl
@[simp] theorem wrK_pinWait (c : Core) (r : Reg) (v : Quad) : (wrK c r v).pinWait = c.pinWait := rfl
@[simp] theorem wrD_vectorStop (c : Core) (r : Reg) (v : Word) : (wrD c r v).vectorStop = c.vectorStop := rfl
@[simp] theorem wrA_vectorStop (c : Core) (r : Reg) (v : Word) : (wrA c r v).vectorStop = c.vectorStop := rfl
@[simp] theorem wrK_vectorStop (c : Core) (r : Reg) (v : Quad) : (wrK c r v).vectorStop = c.vectorStop := rfl
@[simp] theorem wrD_debugHalt (c : Core) (r : Reg) (v : Word) : (wrD c r v).debugHalt = c.debugHalt := rfl
@[simp] theorem wrA_debugHalt (c : Core) (r : Reg) (v : Word) : (wrA c r v).debugHalt = c.debugHalt := rfl
@[simp] theorem wrK_debugHalt (c : Core) (r : Reg) (v : Quad) : (wrK c r v).debugHalt = c.debugHalt := rfl
@[simp] theorem wrD_offline (c : Core) (r : Reg) (v : Word) : (wrD c r v).offline = c.offline := rfl
@[simp] theorem wrA_offline (c : Core) (r : Reg) (v : Word) : (wrA c r v).offline = c.offline := rfl
@[simp] theorem wrK_offline (c : Core) (r : Reg) (v : Quad) : (wrK c r v).offline = c.offline := rfl
@[simp] theorem wrD_deconf (c : Core) (r : Reg) (v : Word) : (wrD c r v).deconf = c.deconf := rfl
@[simp] theorem wrA_deconf (c : Core) (r : Reg) (v : Word) : (wrA c r v).deconf = c.deconf := rfl
@[simp] theorem wrK_deconf (c : Core) (r : Reg) (v : Quad) : (wrK c r v).deconf = c.deconf := rfl
@[simp] theorem wrD_resumeAt (c : Core) (r : Reg) (v : Word) : (wrD c r v).resumeAt = c.resumeAt := rfl
@[simp] theorem wrA_resumeAt (c : Core) (r : Reg) (v : Word) : (wrA c r v).resumeAt = c.resumeAt := rfl
@[simp] theorem wrK_resumeAt (c : Core) (r : Reg) (v : Quad) : (wrK c r v).resumeAt = c.resumeAt := rfl
@[simp] theorem wrD_sparing (c : Core) (r : Reg) (v : Word) : (wrD c r v).sparing = c.sparing := rfl
@[simp] theorem wrA_sparing (c : Core) (r : Reg) (v : Word) : (wrA c r v).sparing = c.sparing := rfl
@[simp] theorem wrK_sparing (c : Core) (r : Reg) (v : Quad) : (wrK c r v).sparing = c.sparing := rfl
@[simp] theorem wrD_progEnd (c : Core) (r : Reg) (v : Word) : (wrD c r v).progEnd = c.progEnd := rfl
@[simp] theorem wrA_progEnd (c : Core) (r : Reg) (v : Word) : (wrA c r v).progEnd = c.progEnd := rfl
@[simp] theorem wrK_progEnd (c : Core) (r : Reg) (v : Quad) : (wrK c r v).progEnd = c.progEnd := rfl
@[simp] theorem wrD_entry (c : Core) (r : Reg) (v : Word) : (wrD c r v).entry = c.entry := rfl
@[simp] theorem wrA_entry (c : Core) (r : Reg) (v : Word) : (wrA c r v).entry = c.entry := rfl
@[simp] theorem wrK_entry (c : Core) (r : Reg) (v : Quad) : (wrK c r v).entry = c.entry := rfl
@[simp] theorem wrD_retrying (c : Core) (r : Reg) (v : Word) : (wrD c r v).retrying = c.retrying := rfl
@[simp] theorem wrA_retrying (c : Core) (r : Reg) (v : Word) : (wrA c r v).retrying = c.retrying := rfl
@[simp] theorem wrK_retrying (c : Core) (r : Reg) (v : Quad) : (wrK c r v).retrying = c.retrying := rfl
@[simp] theorem wrD_tlb (c : Core) (r : Reg) (v : Word) : (wrD c r v).tlb = c.tlb := rfl
@[simp] theorem wrA_tlb (c : Core) (r : Reg) (v : Word) : (wrA c r v).tlb = c.tlb := rfl
@[simp] theorem wrK_tlb (c : Core) (r : Reg) (v : Quad) : (wrK c r v).tlb = c.tlb := rfl
@[simp] theorem wrD_codeTlb (c : Core) (r : Reg) (v : Word) : (wrD c r v).codeTlb = c.codeTlb := rfl
@[simp] theorem wrA_codeTlb (c : Core) (r : Reg) (v : Word) : (wrA c r v).codeTlb = c.codeTlb := rfl
@[simp] theorem wrK_codeTlb (c : Core) (r : Reg) (v : Quad) : (wrK c r v).codeTlb = c.codeTlb := rfl
@[simp] theorem wrD_ctxLine (c : Core) (r : Reg) (v : Word) : (wrD c r v).ctxLine = c.ctxLine := rfl
@[simp] theorem wrA_ctxLine (c : Core) (r : Reg) (v : Word) : (wrA c r v).ctxLine = c.ctxLine := rfl
@[simp] theorem wrK_ctxLine (c : Core) (r : Reg) (v : Quad) : (wrK c r v).ctxLine = c.ctxLine := rfl
@[simp] theorem wrD_ctxStale (c : Core) (r : Reg) (v : Word) : (wrD c r v).ctxStale = c.ctxStale := rfl
@[simp] theorem wrA_ctxStale (c : Core) (r : Reg) (v : Word) : (wrA c r v).ctxStale = c.ctxStale := rfl
@[simp] theorem wrK_ctxStale (c : Core) (r : Reg) (v : Quad) : (wrK c r v).ctxStale = c.ctxStale := rfl
@[simp] theorem rdA_wrD (c : Core) (r t : Reg) (v : Word) : rdA (wrD c r v) t = rdA c t := rfl
@[simp] theorem rdK_wrD (c : Core) (r t : Reg) (v : Word) : rdK (wrD c r v) t = rdK c t := rfl
@[simp] theorem rdD_wrA (c : Core) (r t : Reg) (v : Word) : rdD (wrA c r v) t = rdD c t := rfl
@[simp] theorem rdK_wrA (c : Core) (r t : Reg) (v : Word) : rdK (wrA c r v) t = rdK c t := rfl
@[simp] theorem rdD_wrK (c : Core) (r t : Reg) (v : Quad) : rdD (wrK c r v) t = rdD c t := rfl
@[simp] theorem rdA_wrK (c : Core) (r t : Reg) (v : Quad) : rdA (wrK c r v) t = rdA c t := rfl

@[simp] theorem rdD_wrD (c : Core) (r : Reg) (v : Word) : rdD (wrD c r v) r = v := by simp [rdD, wrD]
@[simp] theorem rdA_wrA (c : Core) (r : Reg) (v : Word) : rdA (wrA c r v) r = v := by simp [rdA, wrA]
@[simp] theorem rdK_wrK (c : Core) (r : Reg) (v : Quad) : rdK (wrK c r v) r = v := by simp [rdK, wrK]

theorem rdD_wrD_ne (c : Core) {r t : Reg} (v : Word) (h : r ≠ t) : rdD (wrD c r v) t = rdD c t := by
  have : r.toNat ≠ t.toNat := fun e => h (BitVec.eq_of_toNat_eq e)
  simp [rdD, wrD, this]

theorem rdA_wrA_ne (c : Core) {r t : Reg} (v : Word) (h : r ≠ t) : rdA (wrA c r v) t = rdA c t := by
  have : r.toNat ≠ t.toNat := fun e => h (BitVec.eq_of_toNat_eq e)
  simp [rdA, wrA, this]

theorem rdK_wrK_ne (c : Core) {r t : Reg} (v : Quad) (h : r.toNat % 4 ≠ t.toNat % 4) : rdK (wrK c r v) t = rdK c t := by
  simp [rdK, wrK, h]

end Sys2Proof.Laws
end

