-- ==== Sys2Proof/Laws/Instr.lean ====
section
/-! SUPPORT. Laws of the frame in which an instruction executes: what a fetch, a body on registers and retirement do. -/
namespace Sys2Proof.Laws

open Sys2Proof.Machine Sys2Proof.Safety

@[simp] theorem elsewhere_setCore (p : Proc) (s : State) (c : Core) : elsewhere p (setCore s p c) = elsewhere p s := by
  cases p <;> simp [elsewhere, setCore, modUnit, setUnitCore, setUnitEngine]

@[simp] theorem elsewhere_modCore (p : Proc) (s : State) (f : Core → Core) : elsewhere p (modCore s p f) = elsewhere p s :=
  elsewhere_setCore p s _

@[simp] theorem elsewhere_atUcc (s : State) (i : Issue) : elsewhere i.proc (atUcc s i) = elsewhere i.proc s := by
  obtain ⟨p, ucc⟩ := i
  cases p <;> simp [elsewhere, atUcc, modUnit]

@[simp] theorem elsewhere_retire (p : Proc) (s : State) (ws : List (BitVec 8 × Quad)) (n : Nat) :
    elsewhere p (retire s p ws n) = elsewhere p s := by
  cases p <;> simp [elsewhere, retire, modUnit, modUnitCore, setUnitCore, countRetired, foldCoreWrites, foldEngineWrites, modSig, foldTab]

@[simp] theorem getCore_retire (p : Proc) (s : State) (ws : List (BitVec 8 × Quad)) (n : Nat) :
    getCore (retire s p ws n) p = counted p n (getCore s p) := by
  cases p <;> simp [getCore, retire, counted, foldEngineWrites, modSig, unitEngine, foldCoreWrites, countRetired]
  simp [unitCore]

/-- A fetch changes nothing but the processor's own translations. -/
theorem fetchCheck_elsewhere {s s1 : State} {p : Proc} {len : Nat} {f : Option (Nat × Word)}
    (h : fetchCheck s p len = (s1, f)) : elsewhere p s1 = elsewhere p s := by
  cases p with
  | service => simp [fetchCheck] at h; rw [h.1]
  | core u l =>
    simp only [fetchCheck] at h
    split at h
    · cases h; rfl
    · split at h
      · cases h; simp
      · split at h <;> cases h <;> simp
  | engine u e =>
    simp only [fetchCheck] at h
    split at h
    · cases h; rfl
    · split at h
      · cases h; rfl
      · split at h
        · cases h; simp
        · split at h <;> cases h <;> simp

theorem ready_elsewhere {s s1 : State} {i : Issue} {e : Enc} (h : Ready s i e s1) :
    elsewhere i.proc s1 = elsewhere i.proc s := by
  rw [fetchCheck_elsewhere h.fetch, elsewhere_atUcc]

/-- An instruction that is ready comes to what its body gives. -/
theorem runInstr_ready {s s1 : State} {i : Issue} {e : Enc} (h : Ready s i e s1) (body : State → XOut) :
    runInstr s i e body = finish s1 i.proc e.len (body (setCore s1 i.proc (moved e.len (getCore s1 i.proc)))) := by
  have h1 := h.runs
  have h2 := h.quiet
  have h3 := h.free
  have h4 := h.fetch
  have h5 := h.legal
  have h6 := h.inLimit
  obtain ⟨p, ucc⟩ := i
  cases p <;> simp_all [runInstr, interruptAt, modCore, moved]

/-- A body on registers retires with its registers, and nothing else changes. -/
theorem regBody_next {s s1 : State} {i : Issue} {e : Enc} (h : Ready s i e s1) (f : Core → Core × List (BitVec 8 × Quad)) :
    ∃ t, finish s1 i.proc e.len (regBody i.proc f (setCore s1 i.proc (moved e.len (getCore s1 i.proc)))) = .next t ∧
      getCore t i.proc = counted i.proc 1 (f (moved e.len (getCore s1 i.proc))).1 ∧ elsewhere i.proc t = elsewhere i.proc s := by
  refine ⟨_, rfl, ?_, ?_⟩
  · simp
  · simp [ready_elsewhere h]

/-- The whole effect of an instruction that works on registers alone. -/
theorem runReg_effect {s s1 : State} {i : Issue} {e : Enc} (h : Ready s i e s1) (f : Core → Core × List (BitVec 8 × Quad)) :
    ∃ t, runReg s i e f = .next t ∧
      getCore t i.proc = counted i.proc 1 (f (moved e.len (getCore s1 i.proc))).1 ∧ elsewhere i.proc t = elsewhere i.proc s := by
  rw [runReg, runInstr_ready h]
  exact regBody_next h f

/-- The effect of an instruction whose meaning is a body on registers. -/
theorem effect_of_runReg {c : Instr} {i : Issue} {e : Enc} {f : Core → Core} (g : Core → Core × List (BitVec 8 × Quad))
    (hx : ∀ s, exec c s = runReg s i e g)
    (hf : ∀ k, decodeCause e (procProfile i.proc) k = 0 → (g (moved e.len k)).1 = f (moved e.len k)) : Effect c i e f := by
  intro s s1 h
  obtain ⟨t, h1, h2, h3⟩ := runReg_effect h g
  exact ⟨t, by rw [hx, h1], by rw [h2, hf _ h.legal], h3⟩

/-- A decode that raises nothing has no illegal encoding. -/
theorem bad_of_legal {e : Enc} {p : Profile} {c : Core} (h : decodeCause e p c = 0) : e.bad = false := by
  cases hb : e.bad with
  | false => rfl
  | true => simp [decodeCause, hb] at h

/-- The effect of an instruction whose body comes to a write of the processor's registers on operands that pass a check. -/
theorem effectIf_of_body {c : Instr} {i : Issue} {e : Enc} {ok : Core → Prop} {f : Core → Core} (body : State → XOut)
    (hx : ∀ s, exec c s = runInstr s i e body)
    (hf : ∀ s k, decodeCause e (procProfile i.proc) k = 0 → ok (moved e.len k) → getCore s i.proc = moved e.len k →
      ∃ ws, body s = .done (setCore s i.proc (f (moved e.len k))) ws 1) : EffectIf c i e ok f := by
  intro s s1 h hok
  obtain ⟨ws, hb⟩ := hf (setCore s1 i.proc (moved e.len (getCore s1 i.proc))) _ h.legal hok (by simp)
  have hn : exec c s = .next (retire (setCore (setCore s1 i.proc (moved e.len (getCore s1 i.proc))) i.proc
      (f (moved e.len (getCore s1 i.proc)))) i.proc ws 1) := by
    rw [hx, runInstr_ready h, hb]; rfl
  exact ⟨_, hn, by simp, by simp [ready_elsewhere h]⟩

/-- The effect of an instruction whose body comes to a write of the processor's registers. -/
theorem effect_of_body {c : Instr} {i : Issue} {e : Enc} {f : Core → Core} (body : State → XOut)
    (hx : ∀ s, exec c s = runInstr s i e body)
    (hf : ∀ s k, decodeCause e (procProfile i.proc) k = 0 → getCore s i.proc = moved e.len k →
      ∃ ws, body s = .done (setCore s i.proc (f (moved e.len k))) ws 1) : Effect c i e f := by
  intro s s1 h
  exact effectIf_of_body (ok := fun _ => True) body hx (fun s k a _ b => hf s k a b) s s1 h trivial

end Sys2Proof.Laws
end

