-- ==== Sys2Proof/Laws/Mem.lean ====
section
/-! SUPPORT. What the coherence fabric leaves alone: the bytes that memory holds, and the registers of the cores. -/
namespace Sys2Proof.Laws

open Sys2Proof.Machine

@[simp] theorem modCoh_data (x : UnitState) (f : CohState → CohState) : (modCoh x f).mem.data = x.mem.data := rfl
@[simp] theorem modCoh_cores (x : UnitState) (f : CohState → CohState) : (modCoh x f).exe.cores = x.exe.cores := rfl
@[simp] theorem modSig_cores (x : UnitState) (f : Sigs → Sigs) : (modSig x f).exe.cores = x.exe.cores := rfl
@[simp] theorem setAg_data (x : UnitState) (a l : Nat) (st : AgSt) : (setAg x a l st).mem.data = x.mem.data := rfl
@[simp] theorem setAg_cores (x : UnitState) (a l : Nat) (st : AgSt) : (setAg x a l st).exe.cores = x.exe.cores := rfl
@[simp] theorem setL3_data (x : UnitState) (l : Nat) (st : L3St) : (setL3 x l st).mem.data = x.mem.data := rfl
@[simp] theorem setL3_cores (x : UnitState) (l : Nat) (st : L3St) : (setL3 x l st).exe.cores = x.exe.cores := rfl
@[simp] theorem setMc_data (x : UnitState) (c : Fin 12) (m : McState) : (setMc x c m).mem.data = x.mem.data := rfl
@[simp] theorem setMc_cores (x : UnitState) (c : Fin 12) (m : McState) : (setMc x c m).exe.cores = x.exe.cores := rfl
@[simp] theorem mcAcceptRead_data (x : UnitState) (p l : Nat) : (mcAcceptRead x p l).mem.data = x.mem.data := rfl
@[simp] theorem mcAcceptRead_cores (x : UnitState) (p l : Nat) : (mcAcceptRead x p l).exe.cores = x.exe.cores := rfl
@[simp] theorem mcAcceptWrite_data (x : UnitState) (p l : Nat) : (mcAcceptWrite x p l).mem.data = x.mem.data := rfl
@[simp] theorem mcAcceptWrite_cores (x : UnitState) (p l : Nat) : (mcAcceptWrite x p l).exe.cores = x.exe.cores := rfl

@[simp] theorem setDir_data (x : UnitState) (l a : Nat) (e : DirEnt) : (setDir x l a e).mem.data = x.mem.data := by
  simp only [setDir]; split <;> rfl
@[simp] theorem setDir_cores (x : UnitState) (l a : Nat) (e : DirEnt) : (setDir x l a e).exe.cores = x.exe.cores := by
  simp only [setDir]; split <;> rfl
@[simp] theorem l3Fill_data (x : UnitState) (l : Nat) : (l3Fill x l).mem.data = x.mem.data := by
  unfold l3Fill; split
  · rfl
  · split <;> rfl
@[simp] theorem l3Fill_cores (x : UnitState) (l : Nat) : (l3Fill x l).exe.cores = x.exe.cores := by
  unfold l3Fill; split
  · rfl
  · split <;> rfl
@[simp] theorem l3Dirty_data (x : UnitState) (l : Nat) : (l3Dirty x l).mem.data = x.mem.data := by
  unfold l3Dirty; split <;> rfl
@[simp] theorem l3Dirty_cores (x : UnitState) (l : Nat) : (l3Dirty x l).exe.cores = x.exe.cores := by
  unfold l3Dirty; split <;> rfl
@[simp] theorem takeDirty_data (x : UnitState) (l : Nat) : (takeDirty x l).mem.data = x.mem.data := by
  simp only [takeDirty]; split <;> simp
@[simp] theorem takeDirty_cores (x : UnitState) (l : Nat) : (takeDirty x l).exe.cores = x.exe.cores := by
  simp only [takeDirty]; split <;> simp
@[simp] theorem dropCopies_data (ps : List Nat) (x : UnitState) (l : Nat) : (dropCopies x l ps).mem.data = x.mem.data := by
  induction ps generalizing x with
  | nil => rfl
  | cons p ps ih => exact ih (setAg x p l .i)
@[simp] theorem dropCopies_cores (ps : List Nat) (x : UnitState) (l : Nat) : (dropCopies x l ps).exe.cores = x.exe.cores := by
  induction ps generalizing x with
  | nil => rfl
  | cons p ps ih => exact ih (setAg x p l .i)
@[simp] theorem recallEntry_data (x : UnitState) (l a : Nat) : (recallEntry x l a).mem.data = x.mem.data := by simp [recallEntry]
@[simp] theorem recallEntry_cores (x : UnitState) (l a : Nat) : (recallEntry x l a).exe.cores = x.exe.cores := by simp [recallEntry]
@[simp] theorem touchEntry_data (x : UnitState) (l : Nat) : (touchEntry x l).mem.data = x.mem.data := by
  simp only [touchEntry]; split <;> rfl
@[simp] theorem touchEntry_cores (x : UnitState) (l : Nat) : (touchEntry x l).exe.cores = x.exe.cores := by
  simp only [touchEntry]; split <;> rfl
@[simp] theorem cohRead_data (x : UnitState) (a l : Nat) : (cohRead x a l).mem.data = x.mem.data := by
  simp only [cohRead]; split
  · rfl
  · split <;> simp
@[simp] theorem cohRead_cores (x : UnitState) (a l : Nat) : (cohRead x a l).exe.cores = x.exe.cores := by
  simp only [cohRead]; split
  · rfl
  · split <;> simp
@[simp] theorem cohOwn_data (x : UnitState) (a l : Nat) : (cohOwn x a l).mem.data = x.mem.data := by
  simp only [cohOwn]; split
  · rfl
  · rfl
  · split <;> simp
@[simp] theorem cohOwn_cores (x : UnitState) (a l : Nat) : (cohOwn x a l).exe.cores = x.exe.cores := by
  simp only [cohOwn]; split
  · rfl
  · rfl
  · split <;> simp
@[simp] theorem writeThrough_data (x : UnitState) (a l : Nat) : (writeThrough x a l).mem.data = x.mem.data := by
  unfold writeThrough; split <;> simp
@[simp] theorem storeEffects_data (x : UnitState) (l : Nat) (c e : Option Nat) : (storeEffects x l c e).mem.data = x.mem.data := by
  simp only [storeEffects]; split
  all_goals (split <;> simp)

/-- A store performed in DRAM changes the bytes it stores, and no others. -/
@[simp] theorem performStore_data (x : UnitState) (a addr : Nat) (bs : List Byte) (c e : Option Nat) :
    (performStore x a addr bs c e).mem.data = tabSetList byteDef x.mem.data addr bs := by
  simp [performStore, putBytes]

/-- A request that is no part of a transaction and may go on has changed nothing by its conflicts. -/
theorem txResolve_go {x y : UnitState} {l : Nat} {w : Bool} {c : Option Nat} (h : txResolve x l w c none = (y, .go)) : y = x := by
  unfold txResolve at h
  split at h <;> simp_all

/-- A line made ready for a plain access: the bytes of memory and the cores' registers are as they were. -/
theorem coreTouch_go {x y : UnitState} {l line : Nat} {w : Bool} (h : coreTouch x l line w none = (y, .go)) :
    y.mem.data = x.mem.data ∧ y.exe.cores = x.exe.cores := by
  unfold coreTouch at h
  split at h
  · next z hz =>
    have hz' := txResolve_go hz
    subst hz'
    unfold ensureWay at h
    split at h
    · next y' hy =>
      split at h
      · cases h
      · cases h
        split at hy
        · cases hy; exact ⟨rfl, rfl⟩
        · simp only at hy
          split at hy
          · cases hy; exact ⟨rfl, rfl⟩
          · split at hy
            · cases hy; simp
            · split at hy
              · cases hy
              · split at hy <;> cases hy
    · split at h <;> cases h
  · next hz => exact (hz _ h).elim

end Sys2Proof.Laws
end

