-- ==== Sys2Proof/Tests/Slice0.lean ====
section
/-! SUPPORT. Tests: the well-formedness smoke test, for each statement with hypotheses a concrete state and operands that meet them, and
single steps whose expected results are worked out by hand from the rules of spec/. -/
namespace Sys2Proof.Tests

-- one proof at a time: many kernel evaluations at once would need too many threads
set_option Elab.async false

open Sys2Proof.Machine Sys2Proof.Safety Sys2Proof.Claims

/-- A page mapped to itself, readable and writable by all. -/
def tPage : TlbEntry := { vpage := 0, mpage := 0, w := true, u := true }

/-- A logical core whose code and data pages 0 are mapped. -/
def tCore : Core := { codeTlb := [tPage], tlb := [tPage] }

/-- Unit 0 executes with the given core 0. -/
def tWith (c : Core) : State := { u0 := { executing := true, exe := { cores := [(0, c)] } } }

/-- Core 0 of Unit 0, cycle 0. -/
def tIssue : Issue := ⟨.core .u0 0, 0⟩

/-- The state after the fetch. -/
def tFetch (s : State) (i : Issue) (e : Enc) : State := (fetchCheck (atUcc s i) i.proc e.len).1

/-- What `Ready` asks, as a test that computes. -/
def readyB (s : State) (i : Issue) (e : Enc) : Bool :=
  canRun s i && (interruptAt (atUcc s i) i.proc).isNone && (getCore (atUcc s i) i.proc).pinWait.isNone &&
  (fetchCheck (atUcc s i) i.proc e.len).2.isNone && decide (decodeCause e (procProfile i.proc) (getCore (tFetch s i e) i.proc) = 0) &&
  (txLimit e (getCore (tFetch s i e) i.proc)).isNone

/-- The test answers for `Ready`. -/
theorem ready_of {s : State} {i : Issue} {e : Enc} (h : readyB s i e = true) : Ready s i e (tFetch s i e) := by
  simp only [readyB, Bool.and_eq_true, Option.isNone_iff_eq_none, decide_eq_true_eq] at h
  obtain ⟨⟨⟨⟨⟨h1, h2⟩, h3⟩, h4⟩, h5⟩, h6⟩ := h
  exact ⟨⟨h1, h2, h3, Prod.ext rfl h4⟩, h5, h6⟩

/-- A registers file of one word. -/
def tRegs (n : Nat) (w : Word) : Vector Word 16 := (Vector.replicate 16 0).setIfInBounds n w

/-- A parcel whose segment 0 is data and segment 1 code, its contexts at 0. -/
def tParcel : Parcel := { sys := false, ctxBase := 0, vectors := [],
                          map := [⟨0, 0, false, false, false, false⟩, ⟨1, 1, true, false, false, false⟩] }

/-- DRAM is installed, and parcel 0 has segments 0 and 1. -/
def tMem : MemState := { mc := (Vector.replicate 12 {}).setIfInBounds 0 { regs := [(8, 1)] }, parcels := [(0, some tParcel)],
                         segs := [(0, { acl := 1 }), (1, { acl := 1, code := true })] }

/-- Unit 0 executes with the given core 0, with memory. -/
def tRun (c : Core) : State := { u0 := { executing := true, mem := tMem, exe := { cores := [(0, c)] } } }

/-- The load's answer, if it gives one. -/
def ldOf : LdRes → Option (State × List Byte)
  | .ok s bs => some (s, bs)
  | .stop _ => none
/-- The store's answer, if it gives one. -/
def stOf : StRes → Option State
  | .ok s => some s
  | .stop _ => none
/-- The address answers, with a property. -/
def adB (P : Nat → State → Bool) : AddrRes → Bool
  | .at m s => P m s
  | _ => false

theorem ld_of {r : LdRes} (h : (ldOf r).isSome = true) : ∃ s bs, r = .ok s bs := by
  cases r with
  | ok s bs => exact ⟨s, bs, rfl⟩
  | stop o => cases h

theorem st_of {r : StRes} (h : (stOf r).isSome = true) : ∃ s, r = .ok s := by
  cases r with
  | ok s => exact ⟨s, rfl⟩
  | stop o => cases h

theorem ad_of {r : AddrRes} {P : Nat → State → Bool} (h : adB P r = true) : ∃ m s, r = .at m s ∧ P m s = true := by
  cases r
  · exact ⟨_, _, rfl, h⟩
  · cases h
  · cases h

theorem some_of {α : Type} {o : Option α} (h : o.isSome = true) : ∃ x, o = some x := Option.isSome_iff_exists.mp h

theorem any_of {α : Type} {o : Option α} {p : α → Bool} (h : o.any p = true) : ∃ x, o = some x ∧ p x = true := by
  rwa [Option.any_eq_true] at h

/-- An address that a register gives. -/
def tEa (a : Reg) : Ea := ⟨a, 0, false, 0, 0⟩

-- statements about registers alone
theorem wit_SumsDifferencesAndComparisons : ∀ e ∈ [one, two], ∃ s1, Ready (tWith tCore) tIssue e s1 :=
  fun _ h => ⟨_, ready_of ((by decide +kernel : ∀ e ∈ [one, two], readyB (tWith tCore) tIssue e = true) _ h)⟩
/-- SHIFTI names its last operation. -/
theorem wit_LogicShiftsAndProducts :
    ∀ e ∈ [one, two, { len := 2, bad := !decide ((319 : BitVec 12).toNat / 64 < 5) }], ∃ s1, Ready (tWith tCore) tIssue e s1 :=
  fun _ h => ⟨_, ready_of ((by decide +kernel : ∀ e ∈ [one, two, { len := 2, bad := !decide ((319 : BitVec 12).toNat / 64 < 5) }],
    readyB (tWith tCore) tIssue e = true) _ h)⟩
theorem wit_DivisionResults : ∃ s1, Ready (tWith tCore) tIssue two s1 := ⟨_, ready_of (by decide +kernel)⟩
theorem wit_MovesCountsAndImmediates : ∀ e ∈ [one, { len := 2, bad := !decide ((2 : Reg).toNat < 3) },
    { len := 2, bad := (0xE : BitVec 4) == 0xF }, { len := 3 }, { len := 4 }, { len := 4, bad := !decide ((0xFFFFF : BitVec 44).toNat < 2 ^ 20) }],
    ∃ s1, Ready (tWith tCore) tIssue e s1 :=
  fun _ h => ⟨_, ready_of ((by decide +kernel : ∀ e ∈ [one, { len := 2, bad := !decide ((2 : Reg).toNat < 3) },
    { len := 2, bad := (0xE : BitVec 4) == 0xF }, { len := 3 }, { len := 4 }, { len := 4, bad := !decide ((0xFFFFF : BitVec 44).toNat < 2 ^ 20) }],
    readyB (tWith tCore) tIssue e = true) _ h)⟩
theorem wit_AddressRegisterResults : ∃ s1, Ready (tWith tCore) tIssue { len := 3, bad := !wfEa ⟨0, 15, true, 3, 0⟩ } s1 :=
  ⟨_, ready_of (by decide +kernel)⟩
theorem wit_BranchesSetThePc : ∃ s1, Ready (tWith tCore) tIssue { len := 3, bad := (0xE : BitVec 4) == 0xF } s1 := ⟨_, ready_of (by decide +kernel)⟩
/-- The accumulator instructions, on the last accumulator and on a traverse engine too. -/
theorem wit_ProductsIntoAccumulators : ∃ s1, Ready (tWith tCore) tIssue (accEnc ((3 : Reg).toNat < 4)) s1 := ⟨_, ready_of (by decide +kernel)⟩
theorem wit_AccumulatorResults :
    (∃ s1, Ready (tWith tCore) tIssue (accEnc (decide ((3 : Reg).toNat < 4) && decide ((0 : Reg).toNat < 4))) s1) ∧
    ∃ s1, Ready (tWith tCore) tIssue { len := 1, sv := false, bad := !decide ((3 : Reg).toNat < 4) } s1 :=
  ⟨⟨_, ready_of (by decide +kernel)⟩, ⟨_, ready_of (by decide +kernel)⟩⟩

/-- Accumulators 0 and 1 hold decimal numbers: plus zero, and minus nine. -/
def tDec : Core := { tCore with k := ((Vector.replicate 4 0).setIfInBounds 0 0xC).setIfInBounds 1 0x9D }

theorem wit_DecimalResults :
    (∃ s1, Ready (tWith tDec) tIssue (coreEnc (decide ((0 : Reg).toNat < 4) && decide ((1 : Reg).toNat < 4))) s1) ∧
    (∃ s1, Ready (tWith tDec) tIssue (coreEnc (decide ((1 : Reg).toNat < 4) && decide ((31 : BitVec 6).toNat < 32))) s1) ∧
    packedOk (rdK (moved 2 tDec) 0) ∧ packedOk (rdK (moved 2 tDec) 1) :=
  ⟨⟨_, ready_of (by decide +kernel)⟩, ⟨_, ready_of (by decide +kernel)⟩, by unfold packedOk; decide +kernel, by unfold packedOk; decide +kernel⟩

/-- The operands of the floating-point instructions are zeros: no operation on them traps. -/
theorem wit_FloatingPointResults : (∃ s1, Ready (tWith tCore) tIssue { len := 2, t := false, sv := false } s1) ∧
    fpAdd fmtD 0 false 0 0 ≠ .trap ∧ fpMul fmtD 0 false 0 0 ≠ .trap ∧ fpDiv fmtD 0 false 0 0 ≠ .trap ∧ fpSqrt fmtD 0 false 0 ≠ .trap ∧
    fpFma fmtD 0 false 0 0 0 ≠ .trap ∧ convertFloat false 0 false 0 ≠ .trap :=
  ⟨⟨_, ready_of (by decide +kernel)⟩, by decide +kernel, by decide +kernel, by decide +kernel, by decide +kernel, by decide +kernel, by decide +kernel⟩
/-- One and two, two equal zeros of both signs, and a NaN. -/
theorem wit_FloatingPointComparison :
    (∃ s1, Ready (tWith tCore) tIssue (coreEnc true) s1) ∧ fpIsSub fmtD 0x3FF0000000000000 = false ∧ fpIsSub fmtD 0x4000000000000000 = false ∧
    fpKey fmtD 0x3FF0000000000000 < fpKey fmtD 0x4000000000000000 ∧ fpKey fmtD 0 = fpKey fmtD 0x8000000000000000 ∧
    fpIsNan fmtD 0x7FF8000000000000 = true ∧ fpIsSub fmtD 0x7FF8000000000000 = false :=
  ⟨⟨_, ready_of (by decide +kernel)⟩, by decide +kernel, by decide +kernel, by decide +kernel, by decide +kernel, by decide +kernel, by decide +kernel⟩
theorem wit_NanOperandsGiveTheFirstOneQuiet : [0, 0x7FF0000000000001].find? (fpIsNan (fmtOf false)) = some 0x7FF0000000000001 ∧
    ∀ v ∈ [0, 0x7FF0000000000001], fpIsSub (fmtOf false) v = false := by decide +kernel
/-- The first and the last code of each range. -/
theorem wit_ControlRegisterAccess : ∀ e ∈ [encCtlReg 0x30, encCtlReg 0x36, encCtlReg 0x37, encCtlReg 0x3D, encCtlReg 0x3F,
    { len := 1, priv := true, txBad := true }], ∃ s1, Ready (tWith tCore) tIssue e s1 :=
  fun _ h => ⟨_, ready_of ((by decide +kernel : ∀ e ∈ [encCtlReg 0x30, encCtlReg 0x36, encCtlReg 0x37, encCtlReg 0x3D, encCtlReg 0x3F,
    { len := 1, priv := true, txBad := true }], readyB (tWith tCore) tIssue e = true) _ h)⟩
theorem wit_ReturnFromException : ∃ s1, Ready (tWith tCore) tIssue { len := 1, priv := true, txBad := true } s1 := ⟨_, ready_of (by decide +kernel)⟩

-- memory
/-- A load that `LoadEffect` speaks of. -/
def Loads (s : State) (i : Issue) (e : Enc) (va : Core → Word) (a : Access) : Prop :=
  ∃ s1 s2 bs, Ready s i e s1 ∧ loadBytes (inBody s1 i e.len) i.proc (va (getCore s1 i.proc)) a = .ok s2 bs
/-- A store that `StoreEffect` speaks of. -/
def Stores (s : State) (i : Issue) (e : Enc) (va : Core → Word) (a : Access) (v : Core → Nat) : Prop :=
  ∃ s1 s2, Ready s i e s1 ∧
    storeBytes (inBody s1 i e.len) i.proc (va (getCore s1 i.proc)) a (leBytes a.n (v (moved e.len (getCore s1 i.proc)))) = .ok s2

theorem loads_of {s : State} {i : Issue} {e : Enc} {va : Core → Word} {a : Access} (h : (readyB s i e &&
    (ldOf (loadBytes (inBody (tFetch s i e) i e.len) i.proc (va (getCore (tFetch s i e) i.proc)) a)).isSome) = true) : Loads s i e va a := by
  rw [Bool.and_eq_true] at h
  obtain ⟨s2, bs, h2⟩ := ld_of h.2
  exact ⟨_, s2, bs, ready_of h.1, h2⟩

theorem stores_of {s : State} {i : Issue} {e : Enc} {va : Core → Word} {a : Access} {v : Core → Nat} (h : (readyB s i e &&
    (stOf (storeBytes (inBody (tFetch s i e) i e.len) i.proc (va (getCore (tFetch s i e) i.proc)) a
      (leBytes a.n (v (moved e.len (getCore (tFetch s i e) i.proc)))))).isSome) = true) : Stores s i e va a v := by
  rw [Bool.and_eq_true] at h
  obtain ⟨s2, h2⟩ := st_of h.2
  exact ⟨_, s2, ready_of h.1, h2⟩

/-- A core with its stack pointer at 16, the last pointers of strings at 64 and 80 and one element left. -/
def tStk : Core := { tCore with a := ((tRegs 15 16).setIfInBounds 12 64).setIfInBounds 13 80, d := tRegs 12 1 }

theorem wit_LoadsWriteTheBytesRead :
    Loads (tRun tCore) tIssue (memEnc (tEa 0)) (address (tEa 0)) (bytes 1) ∧ Loads (tRun tCore) tIssue (memEnc (tEa 0)) (address (tEa 0)) (bytes 2) ∧
    Loads (tRun tCore) tIssue (memEnc (tEa 0)) (address (tEa 0)) (bytes 4) ∧ Loads (tRun tCore) tIssue (memEnc (tEa 0)) (address (tEa 0)) deviceWord ∧
    Loads (tRun tCore) tIssue (memAccEnc 3 (tEa 0)) (address (tEa 0)) (bytes 16) :=
  ⟨loads_of (by decide +kernel), loads_of (by decide +kernel), loads_of (by decide +kernel), loads_of (by decide +kernel), loads_of (by decide +kernel)⟩
theorem wit_StoresStoreTheLowBytes :
    Stores (tRun tCore) tIssue (memEnc (tEa 0)) (address (tEa 0)) (bytes 1) (fun c => (rdD c 0).toNat) ∧
    Stores (tRun tCore) tIssue (memEnc (tEa 0)) (address (tEa 0)) (bytes 2) (fun c => (rdD c 0).toNat) ∧
    Stores (tRun tCore) tIssue (memEnc (tEa 0)) (address (tEa 0)) (bytes 4) (fun c => (rdD c 0).toNat) ∧
    Stores (tRun tCore) tIssue (memEnc (tEa 0)) (address (tEa 0)) deviceWord (fun c => (rdA c 0).toNat) ∧
    Stores (tRun tCore) tIssue (memAccEnc 3 (tEa 0)) (address (tEa 0)) (bytes 16) (fun c => (rdK c 3).toNat) :=
  ⟨stores_of (by decide +kernel), stores_of (by decide +kernel), stores_of (by decide +kernel), stores_of (by decide +kernel), stores_of (by decide +kernel)⟩
/-- The stack at 16; the word that RET pops is 0. -/
theorem wit_StackCallsAndReturns :
    Stores (tRun tStk) tIssue one pushPlace (bytes 8) (fun c => c.pc.toNat) ∧
    Stores (tRun tStk) tIssue { len := 3, bad := !decide ((0 : BitVec 4) = 0) } pushPlace (bytes 8) (fun c => c.pc.toNat) ∧
    Stores (tRun tStk) tIssue { len := 4 } pushPlace (bytes 8) (fun c => c.pc.toNat) ∧
    Loads (tRun tStk) tIssue one stackTop (bytes 8) ∧
    (ldOf (loadBytes (inBody (tFetch (tRun tStk) tIssue one) tIssue 1) tIssue.proc 16 (bytes 8))).any (fun r => decide (leNat r.2 < 2 ^ 48)) = true :=
  ⟨stores_of (by decide +kernel), stores_of (by decide +kernel), stores_of (by decide +kernel), loads_of (by decide +kernel), by decide +kernel⟩

/-- A core with a store of eight bytes at 8 in its buffer. -/
def tSb : Core := { tCore with sb := [{ addr := 8, bytes := leBytes 8 0x1122334455667788 }] }

/-- The store buffer gives all of the bytes or none. -/
def whole : Fwd → Bool
  | .part => false
  | _ => true

/-- What `CoreLoadsOfDram` asks of an address. -/
def loadable (s : State) (u : UnitId) (l : CoreId) (va : Word) (a : Access) (mpa : Nat) (_ : State) : Bool :=
  !isCtlAddr mpa && !isFbAddr mpa && (unitCore (getUnit s u) l).txn.isNone && whole (sbForward (unitCore (getUnit s u) l) mpa a.n) &&
  (ldOf (loadBytes s (.core u l) va a)).isSome

/-- Covered by the buffered store in full, and the first byte past it. -/
theorem wit_CoreLoadsOfDram :
    (∃ mpa s0, dataAddr (tRun tSb) (.core .u0 0) 8 (bytes 8) = .at mpa s0 ∧ loadable (tRun tSb) .u0 0 8 (bytes 8) mpa s0 = true) ∧
    ∃ mpa s0, dataAddr (tRun tSb) (.core .u0 0) 16 (bytes 8) = .at mpa s0 ∧ loadable (tRun tSb) .u0 0 16 (bytes 8) mpa s0 = true :=
  ⟨ad_of (by decide +kernel), ad_of (by decide +kernel)⟩
/-- A buffer of 63 stores has room for one more. -/
theorem wit_CoreStoresRetireIntoTheBuffer :
    ∃ mpa s0, dataAddr (tRun { tCore with sb := List.replicate 63 { addr := 8, bytes := [1] } }) (.core .u0 0) 0 { bytes 8 with write := true } =
      .at mpa s0 ∧ (!isCtlAddr mpa && decide ((List.replicate 63 ({ addr := 8, bytes := [1] } : SbEntry)).length < 64)) = true :=
  ad_of (P := fun mpa _ => !isCtlAddr mpa && decide ((List.replicate 63 ({ addr := 8, bytes := [1] } : SbEntry)).length < 64)) (by decide +kernel)
theorem wit_DrainPerformsTheOldestStore : unitRuns (tRun tSb) .u0 (tRun tSb).u0.ucc = true ∧
    (unitCore (tRun tSb).u0 0).sb = { addr := 8, bytes := leBytes 8 0x1122334455667788 } :: [] ∧ isFbAddr 8 = false ∧
    homeTakes (tRun tSb).u0 (unitCore (tRun tSb).u0 0).parcel.toNat 8 = true ∧ (coreTouch (tRun tSb).u0 0 (8 / 64) true none).2 = .go := by decide +kernel

-- strings, barriers, atomics
/-- What a load gives. -/
def tL (s : State) (p : Proc) (va : Word) (n : Nat) : State × List Byte := (ldOf (loadBytes s p va (bytes n))).getD (s, [])
/-- What a store gives. -/
def tS (s : State) (p : Proc) (va : Word) (n v : Nat) : State := (stOf (storeBytes s p va (bytes n) (leBytes n v))).getD s

theorem reads_of {s : State} {p : Proc} {va : Word} {n : Nat} (h : (ldOf (loadBytes s p va (bytes n))).isSome = true) :
    reads s p va n (tL s p va n).1 (tL s p va n).2 := by
  obtain ⟨s2, bs, h2⟩ := ld_of h
  simp only [reads, tL, h2, ldOf, Option.getD_some]

theorem stored_of {s : State} {p : Proc} {va : Word} {n v : Nat} (h : (stOf (storeBytes s p va (bytes n) (leBytes n v))).isSome = true) :
    stored s p va n v (tS s p va n v) := by
  obtain ⟨s2, h2⟩ := st_of h
  simp only [stored, tS, h2, stOf, Option.getD_some]

/-- The state of a core whose string pointers stand at 64 and 80, with the packed number 99 in both places. -/
def tStr : State :=
  { u0 := { executing := true, mem := { tMem with data := [(64, 0x99), (80, 0x99)] }, exe := { cores := [(0, tStk)] } } }
/-- A string operation on bytes, downward or upward, under REP or not. -/
def tOp (rep down : Bool) : StrOp := ⟨rep, 0, false, down, 0⟩
/-- The state in which a string body works, without REP and with it. -/
def tB2 : State := inBody (tFetch tStr tIssue two) tIssue 2
/-- The same under REP. -/
def tB3 : State := inBody (tFetch tStr tIssue { len := 3 }) tIssue 3
/-- The processor. -/
def tP : Proc := .core .u0 0

/-- The last element of a repeated string, one element without REP, and a repeat count of 0; DADDS adds 99 and 99. -/
theorem wit_StringInstructionElements :
    Ready tStr tIssue (strEnc (tOp true false) (wfStr (tOp true false) false false false false) false) (tFetch tStr tIssue { len := 3 }) ∧
    goesOn (tOp true false) (getCore (tFetch tStr tIssue { len := 3 }) tP) ∧
    reads tB3 tP 64 1 (tL tB3 tP 64 1).1 (tL tB3 tP 64 1).2 ∧
    stored (tL tB3 tP 64 1).1 tP 80 1 0x99 (tS (tL tB3 tP 64 1).1 tP 80 1 0x99) ∧
    Ready tStr tIssue { strEnc (tOp false true) (wfStr (tOp false true) false false true true) false with t := false, sv := false }
      (tFetch tStr tIssue two) ∧
    reads tB2 tP 64 1 (tL tB2 tP 64 1).1 (tL tB2 tP 64 1).2 ∧ (tL tB2 tP 64 1).2 = [0x99] ∧
    reads (tL tB2 tP 64 1).1 tP 80 1 (tL (tL tB2 tP 64 1).1 tP 80 1).1 (tL (tL tB2 tP 64 1).1 tP 80 1).2 ∧
    (tL (tL tB2 tP 64 1).1 tP 80 1).2 = [0x99] ∧
    stored (tL (tL tB2 tP 64 1).1 tP 80 1).1 tP 80 1 0x98 (tS (tL (tL tB2 tP 64 1).1 tP 80 1).1 tP 80 1 0x98) ∧
    Ready (tRun tCore) tIssue (strEnc (tOp true false) (wfStr (tOp true false) true false true false) ((tOp true false).e == 12))
      (tFetch (tRun tCore) tIssue { len := 3 }) ∧ rdD tCore 12 = 0 :=
  ⟨ready_of (by decide +kernel), by unfold goesOn; decide +kernel, reads_of (by decide +kernel), stored_of (by decide +kernel),
    ready_of (by decide +kernel), reads_of (by decide +kernel), by decide +kernel, reads_of (by decide +kernel), by decide +kernel,
    stored_of (by decide +kernel),
    ready_of (by decide +kernel), by decide +kernel⟩

/-- A core with a buffered store: the barrier performs it. -/
theorem wit_BarriersRetireAfterEarlierStores : ∀ e ∈ [one, { len := 1, txBad := true }], ∃ s1 s2, Ready (tRun tSb) tIssue e s1 ∧
    orderNow (inBody s1 tIssue 1) tP = some s2 ∧ plumbed s2 tP = true := by
  intro e h
  have h1 := (by decide +kernel : ∀ e ∈ [one, { len := 1, txBad := true }], (readyB (tRun tSb) tIssue e &&
    (orderNow (inBody (tFetch (tRun tSb) tIssue e) tIssue 1) tP).any (fun s2 => plumbed s2 tP)) = true) e h
  rw [Bool.and_eq_true, Option.any_eq_true] at h1
  obtain ⟨hr, s2, h2, h3⟩ := h1
  exact ⟨_, s2, ready_of hr, h2, h3⟩
/-- The line's last byte. -/
theorem wit_CleanAndFlushALine : Ready (tRun tCore) tIssue { len := 2, txBad := true } (tFetch (tRun tCore) tIssue { len := 2, txBad := true }) ∧
    ∃ mpa s2, dataAddr (inBody (tFetch (tRun tCore) tIssue { len := 2, txBad := true }) tIssue 2) tP (63 : Word) (bytes 1) = .at mpa s2 ∧
      (!isFbAddr mpa && !(unitCore (getUnit s2 .u0) 0).sb.any (fun e => e.addr / 64 == mpa / 64) &&
        decide ((txResolve (getUnit s2 .u0) (mpa / 64) false (some 0) none).2 = .go) && !inService (getUnit s2 .u0) (mpa / 64)) = true :=
  ⟨ready_of (by decide +kernel), ad_of (P := fun mpa s2 => !isFbAddr mpa && !(unitCore (getUnit s2 .u0) 0).sb.any (fun e => e.addr / 64 == mpa / 64) &&
        decide ((txResolve (getUnit s2 .u0) (mpa / 64) false (some 0) none).2 = .go) && !inService (getUnit s2 .u0) (mpa / 64)) (by decide +kernel)⟩
/-- The code page of segment 1, at its last code word. -/
theorem wit_LcodeStoresACodeWord :
    let c : Core := { tCore with a := tRegs 1 (2 ^ 35 + 8188) }
    let e : Enc := { len := 2, t := false, sv := false, priv := true, txBad := true }
    let x := getUnit (inBody (tFetch (tRun c) tIssue e) tIssue 2) .u0
    Ready (tRun c) tIssue e (tFetch (tRun c) tIssue e) ∧ (rdA c 1).toNat % 4 = 0 ∧ (rdA c 1).toNat < 2 ^ 48 ∧
    codeXlate x 0 0 (BitVec.ofNat 48 (rdA c 1).toNat) = some (2 ^ 36, true, true) ∧ codeFrame x 0 (2 ^ 36) = some (2 ^ 36) ∧ c.sb.length < 64 :=
  ⟨ready_of (by decide +kernel), by decide +kernel, by decide +kernel, by decide +kernel, by decide +kernel, by decide +kernel⟩

/-- A core that holds a reservation of granule 0. -/
def tRsv : Core := { tCore with rsvValid := true, rsvGranule := 0 }
/-- The encoding of the reservation group. -/
def tRsvEnc : Enc := { len := 2, txBad := true }
/-- What the last clause asks of an address. -/
def condOk (c : Core) (mpa : Nat) (s2 : State) : Bool :=
  let x := getUnit s2 .u0
  let k := getCore s2 tP
  !isFbAddr mpa && !rsvlFlying x mpa (corePos x 0, 0) && homeTakes x k.parcel.toNat mpa && decide ((coreTouch x 0 (mpa / 64) true none).2 = .go) &&
  (k.rsvValid == c.rsvValid) && (!k.rsvValid || k.rsvGranule.toNat == mpa / 64) && k.sb.isEmpty
/-- What LDRES asks of an address. -/
def resOk (mpa : Nat) (s2 : State) : Bool :=
  let x := clearRsv (getUnit s2 .u0) 0
  !isFbAddr mpa && decide (pinsInSet x (mpa / 64) (corePos x 0, 0) < 8) && decide ((coreTouch x 0 (mpa / 64) false none).2 = .go) &&
  (ldOf (dramLoad (setUnit s2 .u0 (coreTouch x 0 (mpa / 64) false none).1) .u0 0 0 mpa 8)).isSome

theorem wit_ReservationsOfLogicalCores :
    (Ready (tRun tCore) tIssue tRsvEnc (tFetch (tRun tCore) tIssue tRsvEnc) ∧
      ∃ mpa s2, dataAddr (inBody (tFetch (tRun tCore) tIssue tRsvEnc) tIssue 2) tP 0 (bytes 8) = .at mpa s2 ∧ resOk mpa s2 = true) ∧
    Ready (tRun tRsv) tIssue { len := 1, txBad := true } (tFetch (tRun tRsv) tIssue { len := 1, txBad := true }) ∧
    (∃ mpa s2, dataAddr (inBody (tFetch (tRun tCore) tIssue tRsvEnc) tIssue 2) tP 56 { n := 8, write := true, atHome := true } = .at mpa s2 ∧
      condOk tCore mpa s2 = true) ∧
    (Ready (tRun tRsv) tIssue tRsvEnc (tFetch (tRun tRsv) tIssue tRsvEnc) ∧
      ∃ mpa s2, dataAddr (inBody (tFetch (tRun tRsv) tIssue tRsvEnc) tIssue 2) tP 56 { n := 8, write := true, atHome := true } = .at mpa s2 ∧
        condOk tRsv mpa s2 = true) :=
  ⟨⟨ready_of (by decide +kernel), ad_of (by decide +kernel)⟩, ready_of (by decide +kernel), ad_of (by decide +kernel),
    ready_of (by decide +kernel), ad_of (by decide +kernel)⟩

-- transactions, exceptions, interrupts
/-- A checkpoint of reset registers. -/
def tCkpt : Checkpoint := ⟨Vector.replicate 16 0, Vector.replicate 16 0, Vector.replicate 4 0, {}, 0, false, 0⟩
/-- An open transaction that has counted 512 instructions, with line 1 in its write set. -/
def tTxn : Txn := ⟨(0, 0), 0, 0, tCkpt, [], [1], [(64, 5)], 512⟩
/-- A core in that transaction. -/
def tTx : Core := { tCore with txn := some tTxn, psw := { tx := true } }
/-- A core in problem state. -/
def tUser : Core := { tCore with psw := { s := false }, pc := 8190 }
/-- The service processor runs. -/
def tSvc : State := { sahya := { running := true } }
/-- The encoding of WAIT, EI, DI and RTE. -/
def tPriv : Enc := { len := 1, priv := true, txBad := true }
/-- A core with vector 255 pending, interrupts enabled or not. -/
def tPend (ie w : Bool) : Core := { tCore with pend := withBit 0 255 true, psw := { ie := ie }, waiting := w }

/-- The instruction that fills a transaction to its limit of 512 is the last; the code of a TABT at its lowest. -/
theorem wit_TransactionsOpenCommitAndAbort :
    (let e : Enc := { len := 3, t := false, sv := false, txBad := true }
     Ready (tRun tSb) tIssue e (tFetch (tRun tSb) tIssue e) ∧ (orderNow (inBody (tFetch (tRun tSb) tIssue e) tIssue 3) tP).isSome = true) ∧
    (let e : Enc := { len := 1, t := false, sv := false }
     Ready (tRun tTx) tIssue e (tFetch (tRun tTx) tIssue e) ∧ (moved 1 (getCore (tFetch (tRun tTx) tIssue e) tP)).txn = some tTxn ∧
     (moved 1 (getCore (tFetch (tRun tTx) tIssue e) tP)).sb = []) ∧
    (let e : Enc := { len := 2, t := false, sv := false, bad := decide ((0x80 : BitVec 8).toNat < 0x80) }
     Ready (tRun tTx) tIssue e (tFetch (tRun tTx) tIssue e) ∧ (getCore (tFetch (tRun tTx) tIssue e) tP).txn = some tTxn ∧
     Ready (tRun tCore) tIssue e (tFetch (tRun tCore) tIssue e) ∧ tCore.txn = none) :=
  ⟨⟨ready_of (by decide +kernel), by decide +kernel⟩, ⟨ready_of (by decide +kernel), by decide +kernel, by decide +kernel⟩,
    ready_of (by decide +kernel), by decide +kernel, ready_of (by decide +kernel), rfl⟩
theorem wit_AbortsRestoreTheCheckpoint : unitRuns (tRun tTx) .u0 (tRun tTx).u0.ucc = true ∧ (unitCore (tRun tTx).u0 0).txn = some tTxn ∧
    ∀ code ∈ [(1 : BitVec 8), 10, 128, 255], 1 ≤ code.toNat ∧ code.toNat ≤ 10 ∨ 128 ≤ code.toNat := by decide +kernel
theorem wit_SupervisorCallEntry : Ready (tRun tCore) tIssue { len := 2, txBad := true } (tFetch (tRun tCore) tIssue { len := 2, txBad := true }) ∧
    (getCore (tFetch (tRun tCore) tIssue { len := 2, txBad := true }) tP).pc ≠ BitVec.ofNat 48 (0 * 1024 + 512) :=
  ⟨ready_of (by decide +kernel), by decide +kernel⟩
/-- An engine at the standard program set, and a core in problem state whose instruction ends its page. -/
theorem wit_IllegalAndPrivilegedInstructions :
    (Fetched (tRun tUser) tIssue 2 (tFetch (tRun tUser) tIssue two) ∧ plainCore (tFetch (tRun tUser) tIssue two) .u0 0 ∧
      (getCore (tFetch (tRun tUser) tIssue two) tP).psw.s = false ∧ (getCore (tFetch (tRun tUser) tIssue two) tP).pc.toNat % 8192 + 2 ≤ 8192) ∧
    (Fetched (tRun tUser) tIssue 1 (tFetch (tRun tUser) tIssue one) ∧ plainCore (tFetch (tRun tUser) tIssue one) .u0 0) ∧
    (let s : State := { u0 := { executing := true, exe := { engines := [(255, { pc := BitVec.ofNat 48 (2 ^ 47) })] } } }
     Fetched s ⟨.engine .u0 255, 0⟩ 4 (tFetch s ⟨.engine .u0 255, 0⟩ { len := 4 })) ∧
    Fetched tSvc ⟨.service, 0⟩ 1 (tFetch tSvc ⟨.service, 0⟩ one) :=
  ⟨⟨(ready_of (e := two) (by decide +kernel)).toFetched, by unfold plainCore; decide +kernel, by decide +kernel, by decide +kernel⟩,
    ⟨(ready_of (e := one) (by decide +kernel)).toFetched, by unfold plainCore; decide +kernel⟩,
    (ready_of (e := { len := 4 }) (by decide +kernel)).toFetched, (ready_of (e := one) (by decide +kernel)).toFetched⟩
theorem wit_ServiceGroupStops :
    Ready tSvc ⟨.service, 0⟩ { len := 2, c := false, t := false, priv := true } (tFetch tSvc ⟨.service, 0⟩ { len := 2, c := false, t := false, priv := true }) :=
  ready_of (by decide +kernel)
/-- With and without a pending interrupt; the timer at its own value; a full set but one pin. -/
theorem wit_WaitsAndInterrupts :
    (Ready (tRun tCore) tIssue tPriv (tFetch (tRun tCore) tIssue tPriv) ∧
      Ready (tRun (tPend false false)) tIssue tPriv (tFetch (tRun (tPend false false)) tIssue tPriv)) ∧
    (let s : State := { u0 := { executing := true, exe := { engines := [(0, { pc := BitVec.ofNat 48 (2 ^ 47) })] } } }
     Ready s ⟨.engine .u0 0, 0⟩ tPriv (tFetch s ⟨.engine .u0 0, 0⟩ tPriv)) ∧
    Ready tSvc ⟨.service, 0⟩ tPriv (tFetch tSvc ⟨.service, 0⟩ tPriv) ∧
    (∀ ie ∈ [true, false], atBoundary (tRun (tPend ie true)) .u0 0 = true ∧ anyPending (tRun (tPend ie true)).u0 (tPend ie true) = true ∧
      intEnabled (tPend ie true) = ie) ∧
    (let c : Core := { tPend true false with tcmp := 1 }
     ∃ s1, timeTo (tRun c) .u0 1 = some s1 ∧ (atBoundary s1 .u0 0 && timerPending (getUnit s1 .u0) c && intEnabled c) = true) ∧
    (let c : Core := { tCore with pinWait := some 7 }
     (unitCore (tRun c).u0 0).pinWait = some 7 ∧ pinsInSet (tRun c).u0 7 (corePos (tRun c).u0 0, 0) < 8) :=
  ⟨⟨ready_of (by decide +kernel), ready_of (by decide +kernel)⟩, ready_of (by decide +kernel), ready_of (by decide +kernel), by decide +kernel,
    any_of (by decide +kernel), by decide +kernel⟩

-- the chain, stakes
/-- Both units execute in level, and the chain generator has counted a boundary ahead of them. -/
def tBoth : State :=
  { u0 := { executing := true, lvl := { status := 1 } }, u1 := { executing := true, lvl := { status := 1 } }, gen := { run := true, cn := 1 }
    sahya := { running := true } }
/-- Unit 0 executes alone. -/
def tSimp : State := { u0 := { executing := true, lvl := { status := 2 } }, gen := { run := true, cn := 1 }, sahya := { running := true } }
/-- A mode of CHN_SYNC. -/
def tMode (m : Word) : UnitState := { chn := { sync := m } }
/-- A unit in level that has a record before it. -/
def tTake (k : Stake) : State :=
  { tBoth with u0 := { tBoth.u0 with mem := tMem, feed := [k] }, u1 := { tBoth.u1 with mem := tMem, feed := [k] } }
/-- The header of those records. -/
def tHdr : StakeHdr := ⟨1024, 7⟩
/-- The records as a source sends them. -/
def tRec (source : Fin 5) (bk : Bool) (b : StakeBody) : Stake := record source tHdr bk b

/-- A start of the generator's own and one that follows a pulse; a chain that ends; a pulse missed; two bad pulses before. -/
theorem wit_ChainGeneratorTicks :
    (let s : State := { u0 := tMode 0x140, gen := { starting := some 0 } }
     ticking s ∧ s.gen.starting = some 0 ∧ syncMode s ≠ 2) ∧
    (let s : State := { u0 := tMode 2, gen := { starting := some 5, pulseSeen := true } }
     ticking s ∧ syncMode s = 2 ∧ s.gen.pulseSeen = true) ∧
    (ticking tBoth ∧ tBoth.gen.starting = none ∧ tBoth.gen.run = true ∧ tBoth.gen.relock = 0 ∧ tBoth.hub.frozen = false ∧
      tBoth.hub.resume = false ∧ tBoth.sahya.startMode = none) ∧
    (let s : State := { u0 := tMode 2, gen := { starting := some 5 } }
     ticking s ∧ syncMode s = 2 ∧ s.gen.pulseSeen = false) ∧
    (let s : State := { gen := { run := true, relock := 2 } }
     ticking s ∧ s.gen.run = true ∧ s.gen.relock = 2 ∧ s.hub.frozen = false ∧ s.hub.resume = false ∧ s.sahya.startMode = none) ∧
    (let s : State := { u0 := tMode 1, gen := { run := true } }
     syncMode s = 1 ∧ s.gen.run = true ∧ s.gen.stopped = false) ∧
    (let s : State := { u0 := { chn := { sync := 2, status := 4 } }, gen := { run := true, badPulses := 1 } }
     syncMode s = 2 ∧ s.gen.run = true ∧ bitOf (foreState s).chn.status 2 = true ∧ s.gen.badPulses < 2) := by
  unfold ticking; decide +kernel
/-- The Foresight, one boundary behind the generator. -/
theorem wit_UnitEdgeAdvancesTheBoundary : edgeDue tBoth .u0 = true ∧ isFore tBoth .u0 = true ∧ (backUnit tBoth).isSome = true ∧
    (getUnit tBoth .u0).feed = [] ∧ (getUnit tBoth .u0).trv.outHeld = [] ∧ ((getUnit tBoth .u0).cn + 1) % 32768 ≠ 0 ∧
    tBoth.hub.relevel = none := by decide +kernel
/-- A pressed die and a free one, and one whose empty buffer ends the pressure. -/
theorem wit_OutputsAndBackPressure :
    (let s : State := { tBoth with u0 := { tBoth.u0 with chn := { status := 0x140 } } }
     ∃ s1, timeTo s .u0 8 = some s1 ∧ pressed (getUnit s1 .u0) (portDie 0) = true) ∧
    (∃ s1, timeTo tBoth .u0 8 = some s1 ∧ (!pressed (getUnit s1 .u0) (portDie 0) && !(getUnit s1 .u0).dropped &&
      decide ((dieOf tBoth (portDie 0)).noCompareBefore ≤ (getUnit s1 .u0).cn)) = true) ∧
    (let s : State := modDie tBoth 0 (fun x => { x with pressSpace := true })
     (dieOf s 0).pressSpace = true ∧ 65536 ≤ sideFree (dieOf s 0) .u0 ∧ 65536 ≤ sideFree (dieOf s 0) .u1) ∧
    (dieOf tBoth 0).pressSpace = false ∧ (dieOf tBoth 0).lanesDown = false ∧ (dieOf tBoth 0).stopped = false :=
  ⟨any_of (by decide +kernel), any_of (by decide +kernel), by decide +kernel, by decide +kernel, by decide +kernel, by decide +kernel⟩
/-- The first chain of 1,024, and the time of an alarm. -/
theorem wit_StakesOfTheServiceDie :
    (rwsBad .chnCfg 2 = false ∧ stakeOpen tBoth (.rws .chnCfg 2) ∧ firmwareUp tBoth) ∧ isOff State.reset = true ∧ rwsBad .chnCfg (2 ^ 63) = true ∧
    (let s : State := { tBoth with gen := { tBoth.gen with cn := 1024 } }
     stakeOpen s (.timer false 9) ∧ firmwareUp s ∧ (s.gen.cn - (foreState s).lvl.start.toNat) % 1024 = 0) ∧
    (tBoth.gen.cn - (foreState tBoth).lvl.start.toNat) % 1024 ≠ 0 ∧
    (let s : State := { tBoth with sahya := { tBoth.sahya with alarm := some 9 } }
     s.sahya.alarm = some 9 ∧ stakeOpen s (.timer true 9) ∧ firmwareUp s ∧ (9 : Word) ≤ 9 ∧ (8 : Word) < 9) ∧
    ((getUnit tBoth .u0).executing = true ∧ (getUnit tBoth .u0).dropped = false ∧ coreRuns (unitCore (getUnit tBoth .u0) 47) = true) := by
  unfold stakeOpen firmwareUp; decide +kernel

/-- An Ethernet frame whose check fails. -/
def tFrame : EthFrame := ⟨0, 0, 64, false, false, false, 0, false, 0, false, false, []⟩
/-- A microcode patch. -/
def tImg : PatchImage := ⟨1, 5, [], []⟩

theorem wit_StakeRecordsApplied :
    (∀ k ∈ [tRec (dieSource 3) false (.input 1023 (.frame tFrame)), tRec 0 false (.entropy [1, 2, 3, 4]), tRec 0 false (.host 63 .b false [1]),
        tRec 0 false (.timer false 9), tRec (dieSource 0) false (.pressure true true), tRec 0 false (.rws .chnCfg 2), tRec 0 false (.cfg (.diverge 1)),
        tRec 0 false (.spare 47 55), tRec 0 false (.deconfig 47), tRec 0 false (.throttle 7)],
      takes (tTake k) .u0 k) ∧
    (∀ k ∈ [tRec 0 false (.mcode tImg), tRec 0 false (.scrub 0 1), tRec 0 false (.bench 64), tRec 0 false (.debug true 1), tRec 0 false (.sync false)],
      takes (tTake k) .u0 k) ∧
    (takes (tTake (tRec 0 true (.echo 0 5 0))) .u1 (tRec 0 true (.echo 0 5 0)) ∧ backUnit (tTake (tRec 0 true (.echo 0 5 0))) = some .u1) ∧
    (let k := tRec 0 false (.drop .u1 8)
     let s : State := { tTake k with u1 := { dropped := true } }
     takes s .u0 k ∧ (getUnit s UnitId.u0.other).dropped = true) ∧
    tFrame.fcsOk = false ∧ midParcel (bindMid (unitBind (tTake (tRec 0 false (.host 63 .b false [1]))).u0 63) .b) = none := by
  unfold takes; decide +kernel
theorem wit_StakeRecordsOrderAndReset :
    (let k := tRec 0 false (.throttle 1)
     let m : Stake := { k with seq := 6 }
     let s : State := { tBoth with u0 := { tBoth.u0 with feed := [k, m] } }
     k ∈ (getUnit s .u0).feed ∧ firstStake (getUnit s .u0).feed = some m ∧ m ≠ k) ∧
    (let k := tRec 0 false (.power 0 false)
     takes (tTake k) .u1 k ∧ UnitId.u1 ≠ foreUnit (tTake k) ∧ powerRefused (getUnit (tTake k) .u1) 0 = ccOk) ∧
    (let k := tRec 0 false (.blockReset 0 15)
     takes (tTake k) .u0 k) ∧
    (let k := tRec 0 false (.mchk (BitVec.ofNat 48 (2 ^ 47)) 0)
     let c := unitCore (getUnit (tTake k) .u0) 47
     takes (tTake k) .u0 k ∧ c.offline = false ∧ c.vectorStop = false ∧ c.ecause.mcip = false ∧ c.txn = none) ∧
    (let k := tRec 0 false (.code 64 (List.replicate 2048 1))
     takes (tTake k) .u0 k ∧ (List.replicate 2048 (1 : Word)).length = 2048 ∧ (64 : BitVec 52).toNat % 64 = 0) ∧
    (let k := tRec 0 false (.throttle 1)
     backUnit (tTake k) = some .u1 ∧ (getUnit (tTake k) .u1).feed.any (fun m => decide (m.source = 0) && m.seq == 7) = true) := by
  unfold takes; decide +kernel

-- retry, closure, re-level
/-- Both units in level have ended chain 0. -/
def tEnded : State := { tBoth with u0 := { tBoth.u0 with cn := 1 }, u1 := { tBoth.u1 with cn := 1 } }
/-- A re-level of Unit 1 in a phase. -/
def tRel (phase step : Nat) : Relevel :=
  ⟨.u1, 1, false, 400, 16, 8, false, true, none, false, 0, phase, 0, step, 0, false, none, 0, 0, 0⟩
/-- The hub carries out that re-level. -/
def tRelS (phase step : Nat) (hub : HubState) : State := { tSimp with u1 := { dropped := true }, hub := { hub with relevel := some (tRel phase step) } }

/-- Kinds 1 and 6; the room for the last echo; a sequence to the last position. -/
theorem wit_RetriesEchoesAndSparing :
    (∀ kind ∈ [(1 : BitVec 8), 6], (timeTo tBoth .u0 8).isSome = true ∧ backUnit tBoth ≠ some .u0 ∧ kind ≠ 0 ∧ kind.toNat ≤ 6 ∧
      unitOpen tBoth .u0 8 = true ∧ coreRuns (unitCore tBoth.u0 0) = true ∧ (unitCore tBoth.u0 0).resumeAt ≤ 8 ∧ tBoth.u0.ucc ≤ 8 ∧
      (unitCore tBoth.u0 0).retrying ≠ some (kind, (unitCore tBoth.u0 0).pc)) ∧
    (let s : State := { tBoth with u0 := { tBoth.u0 with exe := { cores := [(0, { retrying := some (6, 0) })] } } }
     (timeTo s .u0 8).isSome = true ∧ unitOpen s .u0 8 = true ∧ (unitCore s.u0 0).retrying = some (6, (unitCore s.u0 0).pc)) ∧
    (backUnit tBoth = some .u1 ∧ unitOpen tBoth .u1 8 = true ∧ coreRuns (unitCore tBoth.u1 0) = true) ∧
    (let e : Stake := { source := 0, stamp := 5000, seq := 0, bkOnly := true, body := .echo 1 1 0 }
     let s : State := { tBoth with u1 := { tBoth.u1 with feed := List.replicate 63 e }, hub := { reports := [(0, 256, 1, 0)] } }
     backUnit s = some .u1 ∧ isFed s .u1 = true ∧ (((0 : CoreId).val, 256, 1, 0) : Nat × Nat × BitVec 8 × BitVec 24) ∈ s.hub.reports ∧
       (getUnit s .u1).ucc + 256 ≤ 256 ∧ echoCount (getUnit s .u1) < 64) ∧
    (let s : State := { tBoth with u0 := { tBoth.u0 with ub := 200000, exe := { spareRun := some ⟨47, 55, 0⟩ } } }
     (getUnit s .u0).exe.spareRun = some ⟨47, 55, 0⟩ ∧ (timeTo s .u0 (0 + 208000)).isSome = true ∧ s.sahya.failing = [] ∧ s.hub.debugWait = none) ∧
    (let s : State := { tBoth with u0 := { tBoth.u0 with exe := { ucode := { stallEnd := some 4096 } } } }
     (getUnit s .u0).exe.ucode.stallEnd = some 4096 ∧ (timeTo s .u0 4096).isSome = true) ∧
    isOff State.reset = true ∧ isOff (tRelS 5 0 {}) = false ∧ relevelPhase (tRelS 5 0 {}) = 5 := by
  refine ⟨?_, ?_, ?_, ?_, ?_, ?_, ?_, ?_, ?_⟩ <;> decide +kernel
/-- Equal and unequal streams of chain 0, a referee at work, records that differ, and errors of one unit alone. -/
theorem wit_ClosureComparesAndDecides :
    (compares tEnded 0 0 ∧ sameStreams tEnded 0 0 ∧ decisionHolds tEnded 0 = false) ∧
    (let s := modDie tEnded 3 (fun x => { x with side0 := [⟨0, [⟨0, .link 0 [1]⟩]⟩] })
     compares s 3 0 ∧ ¬ sameStreams s 3 0 ∧ s.hub.decision = none) ∧
    (let s : State := { tEnded with hub := { recs0 := [(0, [1])], recs1 := [(0, [2])] } }
     chainEnded s 0 = true ∧ recsEqual [1] [2] = false ∧ s.hub.decision = none) ∧
    (let s := modDie tSimp 0 (fun x => { x with referee := some ⟨0, .isMatch, .isMatch, .isMatch⟩ })
     (dieOf s 0).referee = some ⟨0, .isMatch, .isMatch, .isMatch⟩ ∧ backUnit s = none) ∧
    ((dieOf tSimp (portDie 0)).waitOut = [] ∧ (dieOf tSimp (portDie 0)).pressSpace = false) ∧
    (let s := modDie tSimp 0 (fun x => { x with waitOut := [⟨0, .link 255 [1]⟩] })
     (dieOf s (portDie 255)).waitOut = [⟨0, .link 255 [1]⟩] ∧ txRoom (portOf s 255) ([1] : List Byte).length = true ∧ (dieOf s (portDie 255)).pressSpace = false) ∧
    (let s := modDie tSimp 0 (fun x => { x with slotOpen := true })
     (dieOf s 0).stopped = false ∧ (dieOf s 0).slotOpen = true ∧ (dieOf s 0).inj = none ∧ (dieOf s 0).rotDue = false ∧ (dieOf tSimp 0).slotOpen = false) ∧
    (∀ u ∈ [UnitId.u0, .u1], let s : State := { tEnded with hub := { decision := some { cn := 0 }, ubs := [(0, 0), (1, 10400)], indic := [(u, 10399)] } }
     backUnit s = some .u1 ∧ relevelPhase s ≠ 6 ∧ indicated s u 0 = true ∧ indicated s u.other 0 = false) ∧
    ((backUnit tEnded).isSome = true ∧ tEnded.bench.checkstop = false) := by
  unfold compares sameStreams; decide +kernel
/-- Each phase of a re-level, the residue at its bounds of 64 and 16 pages. -/
theorem wit_RelevelPhasesFollow :
    (let s : State := { tSimp with u0 := { tSimp.u0 with clo := { cfg := 4 } }, u1 := { dropped := true }, sahya := { running := true, auto := true } }
     s.sahya.auto = true ∧ sahyaUp s = true ∧ isOff s = false ∧ lvlState (foreState s) = 2 ∧ bitsOf (foreState s).clo.cfg 1 2 = 2 ∧
     bitsOf (foreState s).clo.drop 0 8 ≠ 8 ∧ relevelCode { s with sahya := { s.sahya with auto := false } } (foreUnit s).other 2 = ccOk) ∧
    (∀ k ∈ [1, 2, 3, 4], (tRelS k 0 {}).hub.relevel = some (tRel k 0) ∧ (tRel k 0).phase = k ∧ (tRel k 0).freezeAt = none ∧
      (tRel k 0).passes + 1 < (tRel k 0).maxpass) ∧
    (let pages := fun n => (List.range n).map (fun k => (k, true))
     let s := fun n k => { tRelS k 0 {} with u0 := { tSimp.u0 with mem := { mapA := { pages := pages n } } } }
     (copyRes (s 64 3) { tRel 3 0 with passes := 1 }).1 = 4 * (tRel 3 0).maxres ∧ 4 * (tRel 3 0).maxres < (copyRes (s 65 3) { tRel 3 0 with passes := 1 }).1 ∧
     (copyRes (s 16 4) { tRel 4 0 with passes := 1 }).1 = (tRel 4 0).maxres ∧ (copyRes (s 16 4) { tRel 4 0 with passes := 1 }).2 ≤ 512) ∧
    (let s := tRelS 5 6 { frozen := true }
     s.hub.frozen = true ∧ s.hub.resume = false ∧ s.hub.relevel = some (tRel 5 6) ∧ (tRel 5 6).step < 7) ∧
    (let s := tRelS 6 7 { frozen := true, resume := true }
     s.hub.frozen = true ∧ s.hub.resume = true) := by decide +kernel

-- stations, the fieldbook, links, transport
/-- A RAW station with OUT direction and rings of 64 entries: its TX ring at 4096, CQ 0 at 8192. -/
def tDesc : List Word := [9, 6 * 2 ^ 52 + 4096, 0, 0, 0, 0, 6 * 2 ^ 52 + 8192]
/-- A station. -/
def tStn (st : StnSt) : Station := { st := st, desc := tDesc, cqKnown := true }
/-- Unit 0 of a module in level with station 1,048,575 and memory. -/
def tStnS (data : Tab Byte) (t : Station) : State :=
  { tBoth with u0 := { tBoth.u0 with mem := { tMem with data := data }, trv := { stations := [(1048575, t)] } } }
/-- The same at a later boundary. -/
def tStnAt (ub : Nat) (t : Station) : State := { tStnS [] t with u0 := { (tStnS [] t).u0 with ub := ub } }
/-- The bytes of that station's descriptor at 0. -/
def tDescMem : Tab Byte := [(0, 9), (9, 0x10), (14, 0x60), (49, 0x20), (54, 0x60)]
/-- The last station. -/
def tN : StationId := 1048575

/-- OPEN of a granted station, a command that ends each other state, and a command held until CQ 0 has room. -/
theorem wit_StationCommands :
    (let s : State := { tStnS tDescMem {} with u0 := { (tStnS tDescMem {}).u0 with trv := { stations := [(1048575, {})], grants := [(1048575, some 0)] } } }
     let b := begun s .u0 tN
     let r := dmaRead (getUnit b .u0) (stnAgent tN) 0 0 128
     let t0 : Station := { stnS (setUnit b .u0 r.1) .u0 tN with desc := (bytesWords 16 r.2.1).take 13, peer := [], descAddr := 0 }
     takesCmd s .u0 tN ∧ (stnS s .u0 tN).st = .closed ∧ tabGet (fun _ => (none : Grant)) (getUnit b .u0).trv.grants tN = some 0 ∧ r.2.2 = .ok ∧
     stnParcel t0 = 0 ∧ descOk t0 = true ∧ descBookOk r.1 t0 = true ∧
     (openPeer (modS (setUnit b .u0 r.1) .u0 tN (fun _ => t0)) .u0 tN).any (fun q => q.2 && !stnJournal (stnS q.1 .u0 tN)) = true) ∧
    (takesCmd (tStnS [] {}) .u0 tN ∧ (stnS (tStnS [] {}) .u0 tN).cqKnown = false ∧
      tabGet (fun _ => (none : Grant)) (getUnit (tStnS [] {}) .u0).trv.grants tN = none) ∧
    (let s := tStnS [] (tStn .opened)
     takesCmd s .u0 tN ∧ (stnS s .u0 tN).st = .opened) ∧
    (let s := tStnS [] { tStn .quiescing with reserved := 1 }
     (stnS s .u0 tN).st = .quiescing ∧ stnInFlight (getUnit s .u0) tN = false ∧
     (cmdDone (modS s .u0 tN (fun t => { t with st := .quiesced })) .u0 tN 0).isSome = true) ∧
    (∀ c ∈ [ConnSt.established, .lost], let s := tStnS [] { tStn .quiesced with conn := { st := c } }
     takesCmd s .u0 tN ∧ (stnS s .u0 tN).st = .quiesced ∧ stationSlots (getUnit s .u0) tN = 0 ∧ outOpen (getUnit s .u0) tN (stnS s .u0 tN) = false ∧
     (stnS s .u0 tN).txProd = (stnS s .u0 tN).txc ∧ (stnS s .u0 tN).conn.st = c) ∧
    (let s := tStnS [] { tStn .replaying with replay := some ⟨0⟩ }
     takesCmd s .u0 tN ∧ (stnS s .u0 tN).st = .replaying ∧ (stnS s .u0 tN).replay.isSome = true ∧ stnJournal (stnS s .u0 tN) = false ∧
     ((ackNow (modS (begun s .u0 tN) .u0 tN (fun t => { t with st := .opened, replay := none })) .u0 tN true).bind
       (fun s => cmdDone s .u0 tN 0)).isSome = true) ∧
    (let s := tStnS [] { tStn .opened with waitCmd := some 2 }
     (stnS s .u0 tN).waitCmd = some 2 ∧ cqRoom (stnS s .u0 tN) 0 1 = true ∧ (stnS s .u0 tN).st = .opened) ∧
    (stnS (tStnS [] { tStn .opened with busy := true }) .u0 tN).busy = true := by
  refine ⟨?_, ?_, ?_, ?_, ?_, ?_, ?_, ?_⟩ <;> (try unfold takesCmd) <;> decide +kernel

/-- The state and the entry when a TX entry at 4096 is taken. -/
def tEntry (s : State) : Option (State × TxEntry) :=
  match eRead s .u0 tN 4096 64 with
  | some (s0, some bs) => some (modS s0 .u0 tN (fun t => { t with txc := t.txc + 1, reserved := t.reserved + txNeeds (txEntry (bytesWords 8 bs)) }),
      txEntry (bytesWords 8 bs))
  | _ => none

theorem entry_of {s : State} {op : Nat} {P : State → TxEntry → Bool} (h0 : (let t := stnS s .u0 tN
    decide (t.st = .opened ∧ t.txProd ≠ t.txc ∧ ringLog (dW t 1) ≠ 0 ∧ (stnTransport t = 2 ∨ t.conn.estab = true) ∧
      ringBase (dW t 1) + t.txc.toNat % 2 ^ ringLog (dW t 1) * 64 = 4096)) = true)
    (h : (tEntry s).any (fun r => decide (r.2.op = op) && !r.2.bad && cqRoom (stnS s .u0 tN) 0 (txNeeds r.2) && P r.1 r.2) = true) :
    ∃ s1 e, takesEntry s .u0 tN op s1 e ∧ P s1 e = true := by
  obtain ⟨⟨s1, e⟩, hr, hp⟩ := any_of h
  simp only [Bool.and_eq_true, decide_eq_true_eq, Bool.not_eq_true'] at h0 hp
  obtain ⟨⟨⟨hop, hb⟩, hc⟩, hP⟩ := hp
  obtain ⟨h1, h2, h3, h4, h5⟩ := h0
  refine ⟨s1, e, ⟨h1, h2, h3, h4, ?_, hop, hb, hc⟩, hP⟩
  unfold tEntry at hr
  split at hr
  · rename_i s0 bs he
    cases hr
    exact ⟨s0, bs, by rw [h5]; exact he, rfl, rfl⟩
  · cases hr

/-- One entry of each kind, of no bytes, with an open slot for a settlement. -/
def tTxS (op : Byte) (transport : Word) : State :=
  let t : Station := { tStn .opened with txProd := 1, desc := (1 + 4 * transport) :: tDesc.tail, conn := { estab := true } }
  { tStnS (if op = 0 then [] else [(4096, op)]) t with u0 := { (tStnS (if op = 0 then [] else [(4096, op)]) t).u0 with
      trv := { stations := [(1048575, t)], slots := [(0, some ⟨1048575, 0, 0x4100000, 0, 0⟩)] } } }

theorem wit_DoorbellsAndEntries :
    (∃ s1 e, takesEntry (tTxS 0 2) .u0 tN 0 s1 e ∧ (doSend s1 .u0 tN e).isSome = true) ∧
    (∃ s1 e, takesEntry (tTxS 1 1) .u0 tN 1 s1 e ∧ (doSendSettle s1 .u0 tN e).isSome = true) ∧
    ∃ s1 e, takesEntry (tTxS 2 1) .u0 tN 2 s1 e ∧ (settleSlot (getUnit s1 .u0) tN e.slot).isSome = true :=
  ⟨entry_of (by decide +kernel) (by decide +kernel), entry_of (by decide +kernel) (by decide +kernel), entry_of (by decide +kernel) (by decide +kernel)⟩

/-- Unit 0 of a module in level with a fieldbook and stations. -/
def tFb (fb : FbState) (stns : Tab Station) (cn : Nat) : State :=
  { tBoth with u0 := { tBoth.u0 with cn := cn, fb := fb, trv := { stations := stns } } }
/-- A native station that is a mirror sink, and a native station of the last number. -/
def tSink : Station := { st := .opened, desc := [0x44] }
/-- A book's entry in the fieldbook: its first two bytes. -/
def tBook (b0 b1 : Byte) : Tab Byte := if b1 = 0 then [(0x1000 + 64 * 255, b0)] else [(0x1000 + 64 * 255, b0), (0x1001 + 64 * 255, b1)]
/-- A mirror message, the first of its book. -/
def tMir : MirrorMsg := ⟨0, false, false, 1, 0, 0, 1, 1, 0, 0, 0, 0, 0, 0, []⟩

/-- The second try of a write is its last good one; the last book, found and not found; a confirmation; 4,096 chains. -/
theorem wit_FieldbookAndMirror :
    (let s := tFb { flight := [⟨0, [1], false, 8, .nothing⟩] } [] 0
     (getUnit s .u0).fb.flight = [⟨0, [1], false, 8, .nothing⟩] ∧ (getUnit s .u0).fb.waiting = [] ∧ (1 : Fin 5).val < 2 ∧ (timeTo s .u0 8).isSome = true) ∧
    (let s := tFb {} [(1048575, tSink)] 0
     (stnS s .u0 tN).st = .opened ∧ stnMsink (stnS s .u0 tN) = true ∧ (hwTake s .u0 tN).any (fun s1 => mirrorBook (getUnit s1 .u0) tMir == none) = true) ∧
    (let s := tFb { view := tBook 2 0 } [(1048575, tSink)] 0
     (hwTake s .u0 tN).any (fun s1 => mirrorBook (getUnit s1 .u0) tMir == some 255 && (mirrorTake s1 .u0 tN 255 tMir).isSome) = true) ∧
    (let s := tFb { view := tBook 1 1 } [(0, tSink)] 0
     bookMirrored (getUnit s .u0) 255 = true ∧ (stnS s .u0 (bookMstn (getUnit s .u0) 255)).st = .opened ∧
     (hwTake s .u0 (bookMstn (getUnit s .u0) 255)).isSome = true) ∧
    (let s := tFb { view := tBook 1 1, mirror := [(255, { unconf := [(1, 0)] })] } [] 4096
     bookMirrored (getUnit s .u0) 255 = true ∧
     (mirrorOf (getUnit s .u0) 255).unconf.any (fun p => decide (p.2 + 4096 ≤ (getUnit s .u0).cn)) = true ∧ bookLost (getUnit s .u0) 255 = false ∧
     liveStns (getUnit s .u0) = []) := by
  refine ⟨?_, ?_, ?_, ?_, ?_⟩ <;> decide +kernel

/-- A module whose last port is in a state. -/
def tPort (x : DiePort) : State := { tBoth with ports := [(1023, x)] }
/-- The last port, up, for Ethernet frames of at most 1500 bytes of payload. -/
def tEth : DiePort := { conf := true, up := true, cfg := 0x5DC0000, mac := 1 }
/-- The last port, up, a native link. -/
def tNat : DiePort := { conf := true, up := true, cfg := 6 }
/-- A frame for the port, of the greatest length. -/
def tFr : EthFrame := { tFrame with dstMac := 1, len := 1514 }
/-- A flit with LLSEQ 0 for module 0. -/
def tFlit : Flit := ⟨false, true, true, 0, 0, 0, 0, 0, []⟩
/-- The last port. -/
def tQ : PortId := 1023

/-- Frames for the port and for another, without room and of the greatest length; a flit in turn and out of turn. -/
theorem wit_PortsAndLanes :
    (tEth.conf = true ∧ tEth.up = true ∧ portNative tEth = false ∧ frameWanted tEth tFr = true ∧ frameWanted tEth { tFr with dstMac := 2 } = false ∧
      tFr.len + 4 = frameMax tEth tFr ∧ tEth.rxBytes + tFr.len ≤ rxCap tEth ∧ bitOf tEth.cfg 9 = false ∧
      rxCap tEth < ({ tEth with rxBytes := 32768 } : DiePort).rxBytes + tFr.len) ∧
    (let s := tPort { tEth with rx := [.frame tFr] }
     (portOf s tQ).rx = .frame tFr :: [] ∧ bitOf (portOf s tQ).cfg 9 = false ∧ dieOpen s tQ (.frame tFr)) ∧
    (portOf (tPort tEth) tQ = tEth ∧ (1 : BitVec 16) ≠ 0 ∧ dieIdle (tPort tEth) tQ) ∧
    (let s := tPort { tEth with tx := [[1]], paused := 5 }
     (portOf s tQ).up = true ∧ (portOf s tQ).tx = [[1]] ∧ dieIdle s tQ) ∧
    (let s : State := { ports := [(1023, { tEth with up := false })] }
     (portOf s tQ).conf = true ∧ (portOf s tQ).up = false ∧ portNative (portOf s tQ) = false ∧ (dieOf s (portDie tQ)).stopped = false ∧
     (dieOf s (portDie tQ)).lanesDown = false ∧ isOff s = true) ∧
    (let s : State := { ports := [(1023, tEth)] }
     (portOf s tQ).up = true ∧ isOff s = true ∧ dieIdle s tQ) ∧
    (portOf (tPort tNat) tQ = tNat ∧ portNative tNat = true ∧ tNat.conf = true ∧ tNat.up = true ∧ tNat.tx = [] ∧ dieIdle (tPort tNat) tQ ∧
      tFlit.llseq = tNat.llExpect ∧ tFlit.dst = (tPort tNat).pow.modId ∧ tNat.sinceAck + 1 < 32 ∧ { tFlit with llseq := 1 }.llseq ≠ tNat.llExpect ∧
      tNat.replays + 1 < 16) ∧
    (0 < (portOf (tPort { tNat with sinceAck := 1 }) tQ).sinceAck ∧ ({ tNat with replays := 14 } : DiePort).replays + 1 < 16 ∧
      ({ tNat with sinceAck := 30 } : DiePort).sinceAck + 1 < 32) := by
  unfold dieOpen dieIdle; decide +kernel

/-- A native station with a connection. -/
def tConn (c : Conn) : Station := { st := .opened, desc := [4], conn := c }
/-- The body of a handshake. -/
def tBody : HsBody := ⟨0, 0, 0, 0, 0, false, 0⟩
/-- A segment, with or without a body. -/
def tSeg (b : Option HsBody) : Segment := ⟨1, true, true, false, 16, 0, 0, 0, 0, 0, [], [], b, 0, 0, 0⟩
/-- The state in which a segment that passes acts. -/
def tTaken (s : State) (ty : SegType) (g : Segment) : State :=
  modConn (segValid s .u0 tN ty g).1 .u0 tN (fun c => { endProbe c with lastValid := (getUnit (segValid s .u0 tN ty g).1 .u0).ucc })

theorem taken_of {s : State} {ty : SegType} {g : Segment} (h : (decide ((stnS s .u0 tN).st ≠ .closed) && (segValid s .u0 tN ty g).2) = true) :
    segTaken s .u0 tN ty g (tTaken s ty g) := by
  rw [Bool.and_eq_true, decide_eq_true_eq] at h
  exact ⟨h.1, _, Prod.ext rfl h.2, rfl⟩

/-- The station in a connection state. -/
def tC (st : ConnSt) : State := tStnS [] (tConn { st := st })

/-- A segment that fails, and one of each type that passes. -/
theorem wit_SegmentsAndTimers :
    ((stnS (tC .closed) .u0 tN).st ≠ .closed ∧ (segValid (tC .closed) .u0 tN .data (tSeg none)).2 = false) ∧
    (segTaken (tC .established) .u0 tN .data (tSeg none) (tTaken (tC .established) .data (tSeg none)) ∧
      ((applyAck (tTaken (tC .established) .data (tSeg none)) .u0 tN (tSeg none)).bind (fun s2 => dataSeg s2 .u0 tN (tSeg none) (.accept 0))).isSome = true) ∧
    (segTaken (tC .established) .u0 tN .ack (tSeg none) (tTaken (tC .established) .ack (tSeg none)) ∧
      (applyAck (tTaken (tC .established) .ack (tSeg none)) .u0 tN (tSeg none)).isSome = true) ∧
    (segTaken (tC .listen) .u0 tN .init (tSeg (some tBody)) (tTaken (tC .listen) .init (tSeg (some tBody))) ∧
      (stnS (tTaken (tC .listen) .init (tSeg (some tBody))) .u0 tN).conn.st = .listen) ∧
    (segTaken (tC .initSent) .u0 tN .initAck (tSeg (some tBody)) (tTaken (tC .initSent) .initAck (tSeg (some tBody))) ∧
      (stnS (tTaken (tC .initSent) .initAck (tSeg (some tBody))) .u0 tN).conn.st = .initSent ∧
      (establish (modConn (tTaken (tC .initSent) .initAck (tSeg (some tBody))) .u0 tN (fun c => { c with peerNonce := tBody.nonce })) .u0 tN tBody
        (some tBody.nonce)).isSome = true) ∧
    (let s := tStnS [] (tConn { st := .initRcvd, pendBody := some tBody })
     segTaken s .u0 tN .ready (tSeg (some tBody)) (tTaken s .ready (tSeg (some tBody))) ∧
     (stnS (tTaken s .ready (tSeg (some tBody))) .u0 tN).conn.pendBody = some tBody ∧
     tBody.nonce = (stnS (tTaken s .ready (tSeg (some tBody))) .u0 tN).conn.pendNonce) ∧
    (let s := tStnS [] (tConn { st := .initRcvd, pendBody := some tBody, pendNonce := 5 })
     segTaken s .u0 tN .ready (tSeg (some tBody)) (tTaken s .ready (tSeg (some tBody))) ∧
     tBody.nonce ≠ (stnS (tTaken s .ready (tSeg (some tBody))) .u0 tN).conn.pendNonce) ∧
    (segTaken (tC .closing) .u0 tN .close (tSeg none) (tTaken (tC .closing) .close (tSeg none)) ∧
      (stnS (tTaken (tC .closing) .close (tSeg none)) .u0 tN).conn.st = .closing) ∧
    (segTaken (tC .closing) .u0 tN .closeAck (tSeg none) (tTaken (tC .closing) .closeAck (tSeg none)) ∧
      (finishClose (modConn (tTaken (tC .closing) .closeAck (tSeg none)) .u0 tN (fun c => { c with st := .closed, ladder := none })) .u0 tN).isSome = true) ∧
    (segTaken (tC .established) .u0 tN .probe (tSeg none) (tTaken (tC .established) .probe (tSeg none)) ∧
      ((applyAck (tTaken (tC .established) .probe (tSeg none)) .u0 tN (tSeg none)).bind
        (fun s2 => sendAck s2 .u0 tN (ackValue (getUnit s2 .u0) tN (stnS s2 .u0 tN)))).isSome = true) := by
  refine ⟨?_, ⟨taken_of ?_, ?_⟩, ⟨taken_of ?_, ?_⟩, ⟨taken_of ?_, ?_⟩, ⟨taken_of ?_, ?_, ?_⟩, ⟨taken_of ?_, ?_, ?_⟩, ⟨taken_of ?_, ?_⟩,
    ⟨taken_of ?_, ?_⟩, ⟨taken_of ?_, ?_⟩, ⟨taken_of ?_, ?_⟩⟩ <;> decide +kernel
/-- The timers, each at the UCC at which it falls due. -/
theorem wit_SegmentsAndTimers_timers :
    (let s := tStnS [] (tConn { st := .established, ladder := some (6, 8) })
     (stnS s .u0 tN).conn.ladder = some (6, 8) ∧
     (timeTo s .u0 8).any (fun s1 => decide (6 + 1 < rtoSteps (getUnit s1 .u0) (stnS s1 .u0 tN)) && (ladderSend s1 .u0 tN).isSome) = true) ∧
    (let t : Station := { st := .opened, desc := [], peer := [0, 2 ^ 48], conn := { st := .established } }
     let s := tStnAt 5200000 t
     t.conn.st = .established ∧ stnTransport t = 0 ∧ bitsOf (peerW t 1) 48 16 ≠ 0 ∧ t.conn.probing = false ∧
     (timeTo s .u0 (t.conn.lastValid + usCycles s (1000 * bitsOf (peerW t 1) 48 16))).isSome = true) ∧
    (let s := tStnAt 332800000 (tConn { st := .lost })
     (stnS s .u0 tN).conn.st = .lost ∧ stnActive (stnS s .u0 tN) = true ∧ (timeTo s .u0 (0 + usCycles s 64000)).isSome = true) ∧
    (let s := tStnS [] (tConn { st := .initSent, tie := some 9 })
     (stnS s .u0 tN).conn.tie = some 9 ∧ (stnS s .u0 tN).conn.st = .initSent ∧ (timeTo s .u0 9).isSome = true) ∧
    (let s := tStnS [] (tConn { parts := [⟨3, 8, [], 9, .discard⟩] })
     (stnS s .u0 tN).conn.parts.find? (fun p => p.seq == 3) = some ⟨3, 8, [], 9, .discard⟩ ∧ (timeTo s .u0 9).isSome = true) ∧
    (let t := tConn { st := .established, ackDue := true, ackAt := 9 }
     let s := tStnS [] t
     (timeTo s .u0 (t.conn.ackAt + ackInterval s t)).any (fun s1 => (sendAck s1 .u0 tN (ackValue (getUnit s1 .u0) tN t)).isSome) = true) := by
  refine ⟨?_, ?_, ?_, ?_, ?_, ?_⟩ <;> decide +kernel

-- coherence and DRAM
/-- A unit with a coherence state. -/
def tCoh (coh : CohState) : State := { tBoth with u0 := { tBoth.u0 with mem := { tMem with coh := coh } } }
/-- A request of line 1, or of a line of the fieldbook, by an agent. -/
def tReq (a : Fin 80) (line : BitVec 46) : CohReq := ⟨a, line, 0, false, none, none⟩
/-- The state with an entry of line 1. -/
def tDir (e : DirEnt) (dead : List Nat) : State := tCoh { dir := [(1, e)], dead := dead }
/-- An owned entry and a shared one with two holders. -/
def tOwned : DirEnt := { st := .owned, holders := 4, own := 2 }
/-- A shared entry. -/
def tShared : DirEnt := { st := .shared, holders := 3 }
/-- The words of a book of kind 3 in the fieldbook, one page at 0x4100000. -/
def tBook3 : Tab Byte := [(0x4FC0, 3), (0x4FCA, 0x10), (0x4FCB, 0x04), (0x4FCD, 1)]
/-- The line of that page's first byte. -/
def tFbLine : BitVec 46 := BitVec.ofNat 46 ((0x800000000000 + 0x4100000) / 64)

/-- Lines free, shared and owned, the last agent, a line of the fieldbook, a wrong tag, and a line in service. -/
theorem wit_CoherenceRequests :
    (∀ k ∈ [ReqKind.rds, .rdx, .rdo, .wrl, .stc, .cln, .fls], requestFree (tCoh {}) .u0 (tReq 73 1) ∧
      homeClear (tCoh {}) (tCoh {}).u0 { kind := k, req := tReq 73 1 } ∧ fbLine 1 = false ∧ (dirOf (tCoh {}).u0 1).st = .free ∧
      (dirOf (tCoh {}).u0 1).pin ≠ some (pinSelf (tReq 73 1)) ∧ (sendInv (tCoh {}).u0 1 false (holderList (dirOf (tCoh {}).u0 1))).2 = []) ∧
    (∀ k ∈ [ReqKind.rds, .rdx, .upg, .wrl, .fls], requestFree (tDir tShared []) .u0 (tReq 0 1) ∧
      homeClear (tDir tShared []) (tDir tShared []).u0 { kind := k, req := tReq 0 1 } ∧ (dirOf (tDir tShared []).u0 1).st = .shared ∧
      (dirOf (tDir tShared []).u0 1).holders.getLsbD 0 = true ∧ (sendInv (tDir tShared []).u0 1 true (holderList (dirOf (tDir tShared []).u0 1))).2 ≠ []) ∧
    (∀ k ∈ [ReqKind.rds, .rdx, .rdo, .cln], requestFree (tDir tOwned []) .u0 (tReq 0 1) ∧
      homeClear (tDir tOwned []) (tDir tOwned []).u0 { kind := k, req := tReq 0 1 } ∧ (dirOf (tDir tOwned []).u0 1).st = .owned ∧
      (dirOf (tDir tOwned []).u0 1).own ≠ (0 : Fin 80).val ∧ isDead (tDir tOwned []).u0 (dirOf (tDir tOwned []).u0 1).own = false) ∧
    (let s := tDir { tOwned with own := 0, holders := 1, pin := some (0, 0) } []
     requestFree s .u0 (tReq 0 1) ∧ homeClear s s.u0 { kind := .stc, req := tReq 0 1 } ∧ (dirOf s.u0 1).pin = some (pinSelf (tReq 0 1)) ∧
     (dirOf s.u0 1).st = .owned ∧ (dirOf s.u0 1).own = (0 : Fin 80).val) ∧
    (let s : State := { tBoth with u0 := { tBoth.u0 with mem := tMem, fb := { view := tBook3 } } }
     requestFree s .u0 (tReq 0 tFbLine) ∧ homeClear s s.u0 { kind := .wrt, req := tReq 0 tFbLine, off := 63, data := [1] } ∧
     fbLine tFbLine.toNat = true ∧ (63 : BitVec 6).toNat + ([1] : List Byte).length ≤ 64) ∧
    (let q : CohReq := { tReq 0 1 with parcel := 63 }
     requestFree (tCoh {}) .u0 q ∧ tagOk (tCoh {}).u0 (bridgeOpen (tCoh {})) { kind := .rds, req := q } = false) ∧
    (let v : Svc := { job := { kind := .rdo, req := tReq 1 1 } }
     let s := tCoh { svc := [(1, some v)] }
     fabricRuns s.u0 = true ∧ answers s.u0 0 1 ∧ trackerFull s.u0 1 = false ∧ s.u0.mem.coh.parked = [] ∧ svcOf s.u0 1 = some v) := by
  refine ⟨?_, ?_, ?_, ?_, ?_, ?_, ?_⟩ <;> (try unfold requestFree) <;> (try unfold homeClear) <;> (try unfold answers) <;> decide +kernel

/-- A message between the home and agent 79 about line 1. -/
def tMsg (k : MsgKind) : CohMsg := { kind := k, line := 1, agent := 79, st := .e }
/-- A unit with that message in flight and the agent's copy of the line. -/
def tFly (k : MsgKind) (home flag : Bool) (st : AgSt) (coh : CohState) : State :=
  tCoh { coh with ag := [(128 + 79, st)], msgs := [{ tMsg k with home := home, flag := flag }] }
/-- A line in service for agent 79. -/
def tJob (k : ReqKind) : Svc := { job := { kind := k, req := tReq 79 1 } }

/-- Each kind of message to the last position, for each state of its copy. -/
theorem wit_CoherenceMessages :
    (∀ st ∈ [AgSt.s, .w, .e, .d], let s := tFly .eack false false st {}
     fabricRuns s.u0 = true ∧ mayEvict s.u0 79 1 = true ∧ agOf s.u0 79 1 = st ∧ s.u0.mem.coh.salv.contains (79, 1) = false) ∧
    (let s := tFly .eack false false .d { wt := true }
     fabricRuns s.u0 = true ∧ s.u0.mem.coh.wt = true ∧ isDead s.u0 79 = false ∧ agOf s.u0 79 1 = .d) ∧
    (∀ k ∈ [MsgKind.fws, .fwx, .fwo, .clnf, .inv], ∀ st ∈ [AgSt.i, .w, .e, .d], let s := tFly k false false st {}
     (takeMsg (getUnit s .u0) (isMsg k 79 1)).any (fun r => !isDead r.2 79 && !evicting r.2 79 1 && agOf r.2 79 1 == st && !r.1.flag) = true) ∧
    (let s := tFly .fws false false .d { dead := [79] }
     (takeMsg (getUnit s .u0) (isMsg .fws 79 1)).any (fun r => isDead r.2 79) = true) ∧
    (let s := tFly .dat false false .i { svc := [(1, some (tJob .rds))] }
     (takeMsg (getUnit s .u0) (isMsg .dat 79 1)).any (fun r => svcOf r.2 1 == some (tJob .rds) && r.1.st != .i) = true) ∧
    (∀ k ∈ [MsgKind.dat, .ack], let s := tFly k true false .i {}
     (takeMsg (getUnit s .u0) (fun m => decide (m.kind = k) && m.agent == 79 && m.line == 1 && m.home)).isSome = true) ∧
    (∀ k ∈ [ReqKind.upg, .rdx], let s := tFly .gnt false false .s { svc := [(1, some (tJob k))] }
     (takeMsg (getUnit s .u0) (isMsg .gnt 79 1)).any (fun r => svcOf r.2 1 == some (tJob k) && !(tJob k).needData && agOf r.2 79 1 != .i) = true) ∧
    (let s := tFly .cmp false false .i { svc := [(1, some (tJob .rdo))] }
     (takeMsg (getUnit s .u0) (isMsg .cmp 79 1)).any (fun r => svcOf r.2 1 == some (tJob .rdo) && r.2.mem.coh.parked.isEmpty) = true) ∧
    (∀ k ∈ [MsgKind.gone, .eack, .done, .err], (takeMsg (getUnit (tFly k false true .i {}) .u0) (isMsg k 79 1)).isSome = true) ∧
    (let s := tCoh { msgs := [{ kind := .rsvl, line := 0, agent := 55, engine := 15 }] }
     (takeMsg (getUnit s .u0) (fun m => isMsg .rsvl 55 0 m && m.engine == 15)).isSome = true ∧
     coreAt { s.u0 with exe := { map := [(47, 55)] } } 55 = some 47) ∧
    (let s := tCoh { walks := [79], wtSweep := true }
     (getUnit s .u0).mem.coh.walks.contains 79 = true ∧ (∀ e ∈ (getUnit s .u0).mem.coh.dir, ¬ (e.2.st = .owned ∧ e.2.own = 79)) ∧
     (getUnit s .u0).mem.coh.wtSweep = true) ∧
    takeMsg (getUnit (tCoh {}) .u0) (isMsg .eack 79 1) = none := by
  refine ⟨?_, ?_, ?_, ?_, ?_, ?_, ?_, ?_, ?_, ?_, ?_, ?_⟩ <;> decide +kernel

/-- The last controller in a state. -/
def tMc (m : McState) : State := { tBoth with u0 := { tBoth.u0 with mem := { tMem with mc := tMem.mc.setIfInBounds 11 m } } }
/-- A read and a write of line 704, which the last controller serves. -/
def tRd (retired : Bool) : McReq := { port := 0, line := 704, write := none, since := 0, bank := 0, row := 0, retired := retired }
/-- The write. -/
def tWr : McReq := { tRd false with write := some (List.replicate 64 1, 0) }

/-- An error of a whole symbol of sub-word 1. -/
def tErr (dev : Fin 18) : SymErr := { sub := 1, dev := dev, flip := 0xFF }

/-- An open row, a closed one and another; room for the last write; each outcome of a read; the multiples of the refresh interval; a hold. -/
theorem wit_DramControllers :
    (∀ row ∈ [some 0, none, some 1], let s := tMc { regs := [(0x018, 2)], rq := [tRd false], openRow := [(0, row)] }
     let k : DramCmd := match row with | some 0 => .read | none => .activate | _ => .precharge
     (timeTo s .u0 8).any (fun s1 => channelOpen (getUnit s1 .u0) 11 8 && (firstCandidate s1 (getUnit s1 .u0) 11 8
       ((([(0, k)].filterMap (fun e => ((queued (mcOf (getUnit s1 .u0) 11))[e.1]?).map (fun r => (r, e.2)))).filter
         (fun e => candidateOk s1 (getUnit s1 .u0) 11 8 e.1 e.2))) == some (tRd false, k))) = true) ∧
    (let s := tMc { wq := List.replicate 127 tWr, blocked := [tWr] }
     portHead (mcOf (getUnit s .u0) 11) true (fun _ => true) = some tWr ∧ (mcOf (getUnit s .u0) 11).wq.length < 128) ∧
    (let s := tMc { issued := [tRd false] }
     (mcOf (getUnit s .u0) 11).issued = tRd false :: [] ∧ eccTesting s.u0 11 = false ∧
     readOutcome s.u0 11 704 false (.data []) = .clean ∧ readOutcome s.u0 11 704 false (.data [tErr 3]) = .ce 3 0x02ABFF ∧
     readOutcome s.u0 11 704 false (.data [tErr 3, tErr 4]) = .ue 0x02E000) ∧
    (let s := tMc { issued := [tRd false], late := true }
     readOutcome s.u0 11 704 false (.data []) = .mark 5 (markSynd 5)) ∧
    (let s := tMc { regs := [(0x800, 3)], issued := [{ tRd false with port := 7 }] }
     eccTesting s.u0 11 = true ∧ bitOf (mcReg s.u0 11 0x800) 1 = true) ∧
    (let s := tMc { regs := [(0x018, 2), (0x0C0, 4)] }
     (timeTo s .u0 16).any (fun s1 => decide (2 * refInterval (getUnit s1 .u0) 11 ≠ 0) && decide ((16 - (mcOf (getUnit s1 .u0) 11).refBase) % (2 * refInterval (getUnit s1 .u0) 11) = 0) &&
       decide (bitsOf (mcReg (getUnit s1 .u0) 11 0x018) 0 3 = 2) && !(mcOf (getUnit s1 .u0) 11).fchgHold) = true ∧
     (timeTo { tBoth with u0 := { tBoth.u0 with mem := { mc := Vector.replicate 12 { regs := [(0x0C0, 4)] } } } } .u0 1).any (fun s1 => (List.finRange 12).all (fun c =>
       decide (2 * refInterval (getUnit s1 .u0) c ≠ 0) && decide ((1 - (mcOf (getUnit s1 .u0) c).refBase) % (2 * refInterval (getUnit s1 .u0) c) ≠ 0))) = true) ∧
    (let s := tMc { regs := [(0x018, 2), (0x0D0, 1)] }
     bitOf (mcReg (getUnit s .u0) 11 0x0D0) 0 = true ∧ bitsOf (mcReg (getUnit s .u0) 11 0x018) 0 3 = 2 ∧
     (queued (mcOf (getUnit s .u0) 11)).any (fun r => bankSlot r.bank == (3 : Fin 4).val) = false) ∧
    (let s := tMc { fchgHold := true }
     (∀ c : Fin 12, (mcOf (getUnit s .u0) c).fchgHold = true ∨ (mcOf (getUnit s .u0) c).late = true → (0x800 : BitVec 12).getLsbD c.val = true) ∧
     (mcOf (getUnit s .u0) 11).fchgHold = true ∧ (mcOf (getUnit s .u0) 11).late = false ∧ (0 : BitVec 12).getLsbD 11 = false) ∧
    (let s := tMc { regs := [(0x018, 1), (8, 1)] }
     bitsOf (mcReg (getUnit s .u0) 11 0x018) 0 3 = 1 ∧ bringupFail (getUnit s .u0) 11 false true true true 0 ≠ 0) ∧
    (let s : State := { tBoth with u0 := { tBoth.u0 with mem := { tMem with scrub := some { base := 0, len := 64, start := 0 } } } }
     s.u0.mem.scrub = some { base := 0, len := 64, start := 0 } ∧ isFbAddr (0 + 64 * 0) = false ∧ bankRetired s.u0 0 = false ∧
     tabGet chkDef s.u0.mem.dchk 0 = [] ∧ s.u0.held = false ∧ readOutcome s.u0 0 0 false (.data []) = .clean ∧
     readOutcome s.u0 0 0 false (.data [tErr 3]) = .ce 3 0x02ABFF ∧ readOutcome s.u0 0 0 false (.data [tErr 3, tErr 4]) = .ue 0x02E000) ∧
    (isFbAddr fbFirst = true ∧ fbUnreadable tBoth.u0 0 64 = false) ∧
    (isOff State.reset = true ∧ ∀ c, bitOf (mcReg (foreState State.reset) c 0x0C0) 17 = false) := by
  refine ⟨?_, ?_, ?_, ?_, ?_, ?_, ?_, ?_, ?_, ?_, ?_⟩ <;> decide +kernel

-- the cipher, compression and mailboxes
/-- The last cipher page. -/
def tPg : Fin 1024 := 1023
/-- Unit 0 with the last cipher page, page 0 of the same owner, and memory. -/
def tCph (g : CphPage) (data : Tab Byte) : State :=
  { tBoth with u0 := { tBoth.u0 with mem := { tMem with data := data }, cph := { pages := [(0, { owner := some (0, 0) }), (1023, g)] } } }
/-- The tag length that a mode's command names. -/
def tTagLen (m : Nat) : Nat := if m = 4 ∨ m = 5 ∨ m = 6 then 16 else if m = 12 then 8 else 0
/-- Word 0 of a command that loads its key. -/
def tCph0 (m : Nat) : Word := BitVec.ofNat 64 (m + 2 ^ 6 + 2 ^ 48 * tTagLen m)
/-- An idle page whose arguments name a mode and a context. -/
def tIdle (m ctx : Nat) : CphPage := { owner := some (0, 0), args := (Vector.replicate 10 0).setIfInBounds 0 (tCph0 m + BitVec.ofNat 64 (2 ^ 32 * ctx)) }
/-- The mode starts: on a page that another context owns, and on a good one. -/
def tStarts (m : Nat) : Bool :=
  let bad := getUnit (tCph (tIdle m 1) []) .u0
  let good := getUnit (tCph (tIdle m 0) []) .u0
  decide ((argCmd bad 1023).mode = m ∧ (argCmd good 1023).mode = m) &&
  decide (cphCheck (cphGo bad 1023) 1023 (pageOf (cphGo bad 1023) 1023) (argCmd bad 1023) = 2) &&
  decide (cphCheck (cphGo good 1023) 1023 (pageOf (cphGo good 1023) 1023) (argCmd good 1023) = 0) && (argCmd good 1023).loadKey
/-- A key of an algorithm, all of whose uses are open. -/
def tKey (alg : Nat) : HiddenKey :=
  { key := 0, alg := alg, use := 31, duse := 15, extIv := true, fixed := 0, slot := 0, derived := false, retired := false }
/-- A page that holds its key and the command of a mode: one block from 0 to 64, its tag at 256. -/
def tKeyed (m len : Nat) : CphPage :=
  { owner := some (0, 0), cmd := [tCph0 m, 0, 64, BitVec.ofNat 64 len, 0, 0, 0, 0, 256, 0], busy := true, key := some (tKey (if 8 ≤ m then 5 else 1)),
    keyDone := true }
/-- The state of such a page; for GCM decryption the tag of the empty message under the zero key and nonce, from the publication of GCM, test
case 1, at 256. -/
def tKeyedS (m len : Nat) : State :=
  tCph (tKeyed m len) (if m = 5 then
    (([0x58, 0xE2, 0xFC, 0xCE, 0xFA, 0x7E, 0x30, 0x61, 0x36, 0x7F, 0x1D, 0x57, 0xA4, 0xE7, 0x45, 0x5A] : List Byte).zipIdx 256).map (fun p => (p.2, p.1))
    else [])
/-- What `cipherRuns` asks of a mode, as a test that computes. -/
def tRunsB (s : State) (m : Nat) (k : HiddenKey) : Bool :=
  let x := getUnit s .u0
  let c := latched x 1023
  let t0 := freshCtx c k (pageOf x 1023).drawn
  let a := cphAad (modPage x 1023 (fun g => { g with ctx := none })) 0 c k t0
  let r := dmaRead a.1 72 0 c.src c.len
  let w := dmaWrite r.1 72 0 c.dst (pipeRun c k a.2.1 r.2.1).1
  let q := cphTag w.1 0 c (pipeTag c k (pipeRun c k a.2.1 r.2.1).2)
  decide (c.seg = 0 ∧ lenCode c t0.len c.auxLen = 0 ∧ a.2.2 = (0, .ok) ∧ r.2.2 = .ok ∧ w.2 = .ok) &&
  (decide (m ≠ 4 ∧ m ≠ 5 ∧ m ≠ 6 ∧ m ≠ 12) || decide (q.2 = (0, .ok)))

/-- What `cipherRuns` assumes. -/
def Runs (s : State) (m : Nat) : Prop :=
  ∃ k par ctx x1 t1 x2 d x3 x4 r, keyed (getUnit s .u0) 1023 m k par ctx ∧ (latched (getUnit s .u0) 1023).seg = 0 ∧
    lenCode (latched (getUnit s .u0) 1023) (freshCtx (latched (getUnit s .u0) 1023) k (pageOf (getUnit s .u0) 1023).drawn).len
      (latched (getUnit s .u0) 1023).auxLen = 0 ∧
    cphAad (modPage (getUnit s .u0) 1023 (fun g => { g with ctx := none })) par.toNat (latched (getUnit s .u0) 1023) k
      (freshCtx (latched (getUnit s .u0) 1023) k (pageOf (getUnit s .u0) 1023).drawn) = (x1, t1, 0, .ok) ∧
    dmaRead x1 72 par.toNat (latched (getUnit s .u0) 1023).src (latched (getUnit s .u0) 1023).len = (x2, d, .ok) ∧
    dmaWrite x2 72 par.toNat (latched (getUnit s .u0) 1023).dst (pipeRun (latched (getUnit s .u0) 1023) k t1 d).1 = (x3, .ok) ∧
    (if m = 4 ∨ m = 5 ∨ m = 6 ∨ m = 12 then r ≠ .wait ∧
      cphTag x3 par.toNat (latched (getUnit s .u0) 1023) (pipeTag (latched (getUnit s .u0) 1023) k (pipeRun (latched (getUnit s .u0) 1023) k t1 d).2) = (x4, 0, r)
      else x4 = x3)

theorem fst_of {α β : Type} {a : α × β} {v : β} (h : a.2 = v) : a = (a.1, v) := by rw [← h]
theorem snd_of {α β γ : Type} {a : α × β × γ} {v : γ} (h : a.2.2 = v) : a = (a.1, a.2.1, v) := by rw [← h]

theorem runs_of {s : State} {m : Nat} (k : HiddenKey) (hk : keyed (getUnit s .u0) 1023 m k 0 0) (h : tRunsB s m k = true) : Runs s m := by
  simp only [tRunsB, Bool.and_eq_true, Bool.or_eq_true, decide_eq_true_eq] at h
  obtain ⟨⟨h1, h2, h3, h4, h5⟩, h6⟩ := h
  by_cases hm : m = 4 ∨ m = 5 ∨ m = 6 ∨ m = 12
  · have h7 := h6.resolve_left (by omega)
    exact ⟨k, 0, 0, _, _, _, _, _, _, .ok, hk, h1, h2, snd_of h3, snd_of h4, fst_of h5,
      by rw [if_pos hm]; exact ⟨by decide, fst_of h7⟩⟩
  · exact ⟨k, 0, 0, _, _, _, _, _, _, .ok, hk, h1, h2, snd_of h3, snd_of h4, fst_of h5, by rw [if_neg hm]⟩

/-- A page whose key is derived into page 0. -/
def tKdf : CphPage := { tKeyed 7 0 with cmd := [tCph0 7, 0, 0, 0, 0, 8, 0, 0, 0, 0] }
/-- A slot of the key store of one counter value. -/
def tSlot (ctr : Nat) (retired : Bool) : State := { keys := { slots := [(8191, { ctr := ctr, retired := retired })] } }
/-- A page whose command has ended. -/
def tDone : CphPage :=
  { tKeyed 0 0 with done := some { code := 0, trust := true, ivDev := false, doneLen := 0, w2 := 0, w3 := 0, full := true, cpl := 0, irq := false, vec := 0 } }

/-- Each mode's start and run on the last page; the key bus; the last counter value and the one after it; a record written. -/
theorem wit_CipherCommands :
    (∀ m ∈ List.range 13, tStarts m = true) ∧
    (∀ m ∈ [1, 2, 3, 4, 6, 8, 9, 10, 11, 12], Runs (tKeyedS m 16) m) ∧ Runs (tKeyedS 5 0) 5 ∧
    keyed (getUnit (tKeyedS 0 0) .u0) 1023 0 (tKey 1) 0 0 ∧
    (let x := getUnit (tCph tKdf []) .u0
     let c := latched x 1023
     let r := dmaRead (modPage x 1023 (fun g => { g with ctx := none })) 72 0 c.aux c.auxLen
     keyed x 1023 7 (tKey 1) 0 0 ∧ c.seg = 0 ∧ c.tpage ≠ 1023 ∧ r.2.2 = .ok ∧ c.auxLen = 8 ∧ pageOf r.1 c.tpage = pageOf x c.tpage) ∧
    (let s : State := { tBoth with u0 := { tBoth.u0 with cph := { keyQ := [⟨1023, 8191, true, true⟩] } } }
     (getUnit s .u0).cph.keyQ = ⟨1023, 8191, true, true⟩ :: []) ∧
    ((slotOf (tSlot (2 ^ 64 - 1) false) 8191).ctr < 2 ^ 64 ∧ ¬ (slotOf (tSlot (2 ^ 64) false) 8191).ctr < 2 ^ 64 ∧
      (slotOf (tSlot 0 true) 8191).retired = true) ∧
    (let x := getUnit (tCph tDone []) .u0
     (pageOf x 1023).done.any (fun d => (cphRecord x 0 d).isSome && !d.irq) = true ∧ (pageOf x 1023).owner = some (0, 0)) ∧
    (pageOf (getUnit (tCph (tKeyed 0 0) []) .u0) 1023).done = none := by
  have hr : ∀ m ∈ [1, 2, 3, 4, 6, 8, 9, 10, 11, 12],
      keyed (getUnit (tKeyedS m 16) .u0) 1023 m (tKey (if 8 ≤ m then 5 else 1)) 0 0 ∧ tRunsB (tKeyedS m 16) m (tKey (if 8 ≤ m then 5 else 1)) = true := by
    unfold keyed
    decide +kernel
  have h5 : keyed (getUnit (tKeyedS 5 0) .u0) 1023 5 (tKey 1) 0 0 := by
    unfold keyed
    decide +kernel
  refine ⟨?_, fun m h => runs_of _ (hr m h).1 (hr m h).2, runs_of (tKey 1) h5 (by decide +kernel), ?_, ?_, ?_, ?_, ?_, ?_⟩ <;>
    (try unfold keyed) <;> decide +kernel

/-- An engine whose last channel has a ring of 16 entries at 0. -/
def tEng (own : Nat) (job : Option CmpJob) (prod : BitVec 32) : CmpEngine :=
  { chans := [(15, { owner := some (0, BitVec.ofNat 16 own), ring := 4, prod := prod })], job := job }
/-- Unit 0 whose last engine's last channel has a job at 0, the ring being of 16 entries. -/
def tCmpS (own : Nat) (data : Tab Byte) (job : Option CmpJob) (prod : BitVec 32) : State :=
  { tBoth with u0 := { tBoth.u0 with mem := { tMem with data := data }, cph := { cmp := (Vector.replicate 2 {}).setIfInBounds 1 (tEng own job prod) } } }
/-- A job of that channel that has ended. -/
def tJobC : CmpJob := { chan := 15, descAddr := 0, w6 := 1, w7 := 0, irq := false, vec := 0 }
/-- A job taken, as a test that computes. -/
def tTakes (s : State) (op : Nat) : Bool :=
  decide ((getUnit s .u0).cph.cmp[1].job = none ∧ cmpNext (getUnit s .u0) 1 = some 15) && (cmpJob (getUnit s .u0) 1 15 op).isSome

/-- A channel between the first parcel's supervisor and the last's. -/
def tMbx (st : MbxSt) (len : Nat) (bind : Word) : State := { tBoth with mail := { chans := [(63, { bind := bind, st := st, words := [5], len := len })] } }
/-- That binding. -/
def tBind : Word := 0x1000000000000 + 0x13F * 65536 + 0x100
/-- The side's access in a state. -/
def tAccess (st : MbxSt) (sd : Side) : Bool :=
  let s := tMbx st 1 tBind
  let mid := if sd = .a then 0x100 else 0x13F
  mbxReaches s mid && decide (midSide (mbxOf s 63) mid = some sd) && bindEn (mbxOf s 63).bind && decide (sahyaSide (mbxOf s 63) = none) &&
    decide ((mbxOf s 63).st = st)

/-- A job of each operation, with a wrong context and with a bad descriptor; an ended job; ring words; each side in each state; the lengths
0, 1, 16 and 17; bindings while off and in level; locks; a function whose message is composed or sent, and one without a channel. -/
theorem wit_CompressionAndMailboxes :
    (tTakes (tCmpS 1 [] none 1) 0 = true ∧ tTakes (tCmpS 1 [(0, 1)] none 1) 1 = true) ∧
    (∀ own ∈ [0, 1], let x := getUnit (tCmpS own [] none 1) .u0
     let r := dmaRead x 73 0 (cmpDesc (cmpChan x 1 15)) 64
     (cmpChan x 1 15).owner = some (0, BitVec.ofNat 16 own) ∧ r.2.2 = .ok ∧ bitsOf ((bytesWords 8 r.2.1).getD 0 (0 : Word)) 0 2 = 0 ∧
     (bitsOf ((bytesWords 8 r.2.1).getD 0 (0 : Word)) 32 16 = own ↔ own = 0) ∧ cmpBad (bytesWords 8 r.2.1) = true) ∧
    (let x := getUnit (tCmpS 0 [] (some tJobC) 1) .u0
     x.cph.cmp[1].job = some tJobC ∧ (cmpChan x 1 15).owner = some (0, 0) ∧
     (dmaWrite x 73 0 (tJobC.descAddr + 48) (wordsBytes [tJobC.w6, tJobC.w7])).2 = .ok ∧ tJobC.irq = false) ∧
    (bitsOf (2 ^ 5 : Word) 5 7 ≠ 0 ∧ bitsOf (2 ^ 63 : Word) 52 12 ≠ 0 ∧ bitsOf (2 ^ 52 - 4096 + 16 : Word) 5 7 = 0 ∧
      bitsOf (2 ^ 52 - 4096 + 16 : Word) 52 12 = 0 ∧ (cmpChan (getUnit (tCmpS 0 [] none 0) .u0) 1 15).prod = (cmpChan (getUnit (tCmpS 0 [] none 0) .u0) 1 15).cons) ∧
    (∀ sd ∈ [Side.a, .b], ∀ st ∈ [MbxSt.empty, .composing sd, .composing sd.other, .full sd, .full sd.other], tAccess st sd = true) ∧
    (∀ len ∈ [0, 1, 16, 17], ctlBadBits (.mbx 63 0x80) (BitVec.ofNat 64 len) = false ∧ bitsOf (BitVec.ofNat 64 len : Word) 0 5 = len) ∧
    (ctlBadBits (.mbx 63 (8 * 15)) (-1) = false ∧ ctlBadBits (.mbx 63 0x90) 0x700 = false) ∧
    ((tMbx .empty 0 0).mail.lock = false ∧ bindTaken tBind = true ∧ bindTaken 0x1000000000000 = false ∧ bitsOf tBind 49 15 = 0 ∧
      isOff State.reset = true ∧ isOff (tMbx .empty 0 0) = false ∧ (State.reset.mail.lockWritten = false)) ∧
    (bitsOf (1 : Word) 1 63 = 0 ∧ bitsOf (2 : Word) 1 63 ≠ 0) ∧
    (∀ n, midSide (mbxOf (tMbx .empty 0 tBind) n) 0x13 = none) ∧
    (∀ st ∈ [MbxSt.composing .a, .full .a], let s := tMbx st 1 0x1000001000013
     midSide (mbxOf s 63) 0x13 = some .a ∧ (mbxOf s 63).st = st) := by
  refine ⟨?_, ?_, ?_, ?_, ?_, ?_, ?_, ?_, ?_, ?_, ?_⟩ <;> decide +kernel

-- Sahya's commands
/-- A state with channel 63 between Sahya and a MID, and Sahya running. -/
def tSah (mid : Nat) (s : State) : State :=
  { s with mail := { chans := [(63, { bind := BitVec.ofNat 64 (2 ^ 48 + 2 ^ 16 * mid) })] }, sahya := { s.sahya with running := true } }
/-- The header of a command on that channel. -/
def tH : CmdHdr := { chan := 63, side := .b, v2 := false, tag := 0 }
/-- `cmdGives` as a test that computes. -/
def tGives (s : State) (g v : Nat) (args : List Word) (chk : State → Option Nat → List Word → Nat) (k : Nat) : Bool :=
  cmdServed s tH g v && (s.sahya.inbox.find? (isFrame tH g v)).isNone && decide (cmdCode s tH g v args chk = k)
theorem gives_of {s : State} {g v : Nat} {args : List Word} {chk : State → Option Nat → List Word → Nat} {k : Nat}
    (h : tGives s g v args chk k = true) : cmdGives s tH g v args chk k := by
  simpa only [cmdGives, tGives, Bool.and_eq_true, Option.isNone_iff_eq_none, decide_eq_true_eq, and_assoc] using h

/-- Memory with parcel 63 beside parcel 0, whose segment 0 all parcels may name. -/
def tMemP : MemState := { tMem with parcels := [(0, some tParcel), (63, some { tParcel with map := [] })], segs := [(0, { acl := -1 })] }
/-- A module in OFF with keys, an enabled cipher lock and books 254 (recovery journal) and 255 (mirror journal) without records. -/
def tOffS : State := tSah 0x13
  { u0 := { powered := true, initialised := true, mem := tMemP, clo := { status := 0x10000 }, cph := { lockEn := true } }
    u1 := { powered := true, initialised := true, mem := tMemP, clo := { status := 0x10000 } }
    keys := { root0 := some 0, slots := [(16382, { attrs := BitVec.ofNat 64 (3 + 2 ^ 19), key := 0x000102030405060708090A0B0C0D0E0F101112131415161718191A1B1C1D1E1F }),
      (16381, { attrs := BitVec.ofNat 64 (3 + 2 ^ 20) })] } }
/-- That module with no controller enabled. -/
def tOffN : State := tSah 0x13 {}
/-- That module with the chain running. -/
def tOffR : State := { tOffS with gen := { run := true } }
/-- A module in level with the same. -/
def tLvlS : State := tSah 0x13 { tBoth with u0 := { tBoth.u0 with mem := tMemP }, u1 := { tBoth.u1 with mem := tMemP } }


/-- The module with Unit 0 alone and Unit 1 dropped. -/
def tSimS : State := tSah 0x13 { tSimp with u1 := { dropped := true } }
/-- The module in level with a mirrored book 255. -/
def tMirS : State := tSah 0x13 { tBoth with u0 := { tBoth.u0 with fb := { view := tBook 1 1 } } }
/-- The module in level with a mirror book 255 and a journal 254. -/
def tTakS : State := tSah 0x13 { tBoth with u0 := { tBoth.u0 with fb := { view := [(0x1000 + 64 * 254, 1), (0x1000 + 64 * 255, 2)] }, trv := { grants := [(0, some 0)] } } }

/-- An import into the last slot succeeds with every wrapped key that opens; that the key of RFC 3394, 4.6 is one takes too long to evaluate here. -/
theorem import_gives (ws : List Word) (h : (keyUnwrap (slotOf tOffS 16382).key (importBlob ([16383, 16382, 3] ++ ws))).isNone = false) :
    cmdGives tOffS tH 8 3 ([16383, 16382, 3] ++ ws) chkKeyImport 0 := by
  refine ⟨by decide +kernel, by decide +kernel, ?_⟩
  have h1 : (issuerOk tOffS (bindMid (mbxOf tOffS tH.chan).bind tH.side) 8 3 && (!tOffS.boot.recovery || recoveryAllows 8 3)) = true := by
    decide +kernel
  have h2 : plainIssuer tOffS tH = none := by decide +kernel
  rw [cmdCode, h1, h2, Bool.not_true, if_neg Bool.false_ne_true]
  have e : num ([16383, 16382, 3] ++ ws) 2 = 16382 := rfl
  unfold chkKeyImport
  simp only [e, h]
  have hk : firstCode [need (decide (16383 < 16384)), need (decide (16382 < 16384)), need (attrsOk 3), need (kekOk tOffS 16382 (attrParcel 3)),
    (decide (attrAlg (slotOf tOffS 16383).attrs ≠ 0), 0x36), ((rootOf tOffS).isNone, 0x3A), (false, 0x38)] = 0 := by
    decide +kernel
  exact hk

/-- Each command of LEVEL to KEY answers OK on some operands, the last where they have a range. -/
theorem wit_SahyaCommandsOnTheModule :
    (tGives tOffS 1 1 [64, 1] chkLevelConfig 0 = true ∧ (∀ m ∈ List.range 4, tGives tOffR 1 2 [BitVec.ofNat 64 m] chkLevelStart 0 = true) ∧
      tGives tSimS 1 3 [13, 400, 0xFFFFFFFF, 255] chkLevelRelevel 0 = true ∧ tGives tLvlS 1 4 [] chkLevelCancel 0 = true ∧
      (∀ c ∈ List.range 2, tGives tLvlS 1 5 [15, 16, BitVec.ofNat 64 c] chkLevelBench 0 = true) ∧ tGives tLvlS 1 6 [] chkNone 0 = true ∧
      tGives tLvlS 1 7 [1, 0xFFFFFFFFFFFF] chkLevelDebug 0 = true) ∧
    (tGives tLvlS 2 1 [1, 2, 255, 65535] chkClosureConfig 0 = true ∧ tLvlS.sahya.injTag = none ∧
      tGives tLvlS 2 2 [15, 1] chkClosureInject 0 = true ∧ tGives tLvlS 2 3 [] chkNone 0 = true ∧ tGives tOffS 3 1 [-1] chkChainStart 0 = true) ∧
    (tGives tOffS 4 1 [62, 1, 0xFFFFFFFFFF000] chkParcelCreate 0 = true ∧ tGives tOffS 4 2 [63] chkParcelDestroy 0 = true ∧
      tGives tOffS 4 3 [63, 0xFFFFFFFFFFFF, 0xFFFFFFFFFFFF] chkParcelCores 0 = true ∧
      (∀ a ∈ ([[63, 0, 0x10000FFFF], [63, 1, 0xFFFF]] : List (List Word)), tGives tOffS 4 4 a chkParcelMap 0 = true) ∧
      tGives tOffS 4 5 [0, -1, 0] chkParcelSegment 0 = true ∧ tGives tOffS 4 6 [0, BitVec.ofNat 64 (installed tOffS.u0 / 4096 - 1)] chkParcelRetire 0 = true ∧
      tGives tOffS 4 7 [0, 255, 47] chkParcelVector 0 = true) ∧
    (tGives tOffS 6 1 [0xFFFFF, 1, 63, 262144] chkStationGrant 0 = true ∧ tGives tOffS 6 2 [0xFFFFF] chkStationQuery 0 = true ∧
      tGives tOffS 6 3 [0, 255, 1, 0x101DFFFF000] chkStationBook 0 = true ∧
      (∀ c ∈ List.range 2, tGives tMirS 6 4 [255, BitVec.ofNat 64 c] chkStationMirror 0 = true) ∧ tGives tTakS 6 5 [255, 254, 0, 0xFFFFF] chkStationTakeover 0 = true ∧
      tGives tOffS 6 6 [3] chkStationReconcile 0 = true ∧ tGives tLvlS 6 6 [2] chkStationReconcile 0 = true) ∧
    (tGives tOffS 7 1 [65535] chkPathModid 0 = true ∧
      tGives tOffS 7 2 ([1023, 0x23280000, 0xFFFFFFFFFFFF, 0xFFFFF] ++ List.replicate 8 0xFFFFFFFFFFFF) chkPathPort 0 = true ∧
      tGives tOffS 7 3 [1023] chkPathStatus 0 = true ∧ tGives tOffS 7 4 [255, 1, -1, -1] chkPathAddr 0 = true ∧
      tGives tOffS 7 5 ([4095, 1, 1] ++ List.replicate 8 0) chkPathGroup 0 = true ∧ tGives tOffS 7 6 [65535, 0xFFFFF] chkPathLink 0 = true) ∧
    (tGives tLvlS 8 1 [] chkKeyInit 0 = true ∧ tGives tOffS 8 2 [16383, 0, 5] chkKeyGenerate 0 = true ∧
      tGives tOffS 8 4 [16381, 16382] chkKeyExport 0 = true ∧ tGives tOffS 8 5 [16382] chkKeySlot 0 = true ∧ tGives tOffS 8 6 [16382] chkKeySlot 0 = true ∧
      tGives tOffS 8 7 [0x5A5A] chkMagic 0 = true) ∧
    (isOff tOffS = true ∧ isOff tLvlS = false ∧ liveDies tLvlS 15 ≠ 0) := by
  refine ⟨⟨?_, ?_, ?_, ?_, ?_, ?_, ?_⟩, ⟨?_, ?_, ?_, ?_, ?_⟩, ⟨?_, ?_, ?_, ?_, ?_, ?_, ?_⟩, ⟨?_, ?_, ?_, ?_, ?_, ?_, ?_⟩,
    ⟨?_, ?_, ?_, ?_, ?_, ?_⟩, ⟨?_, ?_, ?_, ?_, ?_, ?_⟩, ?_⟩ <;> decide +kernel

/-- A calibration set of `n` bytes with the CRC of them behind. -/
theorem cal_gen (n : Nat) (z : List Byte) (hz : tabGetList byteDef [] 0 n = z) :
    let t := tabSetList byteDef [] n (leBytes 4 (crc32 z).toNat)
    leNat (tabGetList byteDef t n 4) = (crc32 (tabGetList byteDef t 0 n)).toNat := by
  have h1 := Laws.tabGetList_tabSetList byteDef [] n (leBytes 4 (crc32 z).toNat) 0
  rw [Laws.leBytes_length] at h1
  have h2 := Laws.tabGetList_tabSetList_out byteDef [] n 0 n (leBytes 4 (crc32 z).toNat) (by omega)
  dsimp only
  rw [h1, h2, hz, Laws.leNat_leBytes]
  exact Nat.mod_eq_of_lt (crc32 z).isLt
theorem cal_ok : ∃ t, calOk t = true := ⟨_, decide_eq_true (cal_gen 65532 _ rfl)⟩

/-- A signed image of a KIND in the staging buffer, of generation 0 and no body: MAGIC, 1, KIND; the OTP's digest is that of its keys. -/
def tImgS (kind : Byte) : State :=
  let st : Tab Byte := [(0, 0x45), (1, 0x56), (2, 0x42), (3, 0x56), (4, 1), (6, kind)]
  { tOffS with boot := { tOffS.boot with staging := st, digests := [Config.sha384 (imgBytes (fun k => tabGet byteDef st k) 72 580)] } }
/-- An owner certificate in staging is valid where the digest and the two signature schemes, which have no body here, accept it. -/
theorem image_ok (h1 : Config.sha384 (imgBody (slotByte (tImgS 1) 2)) = imgBytes (slotByte (tImgS 1) 2) 24 48)
    (h2 : Config.rsaPssOk (imgBytes (slotByte (tImgS 1) 2) 72 512) (imgBytes (slotByte (tImgS 1) 2) 1024 512) (imgBytes (slotByte (tImgS 1) 2) 0 1024) = true)
    (h3 : Config.slhDsaOk (imgBytes (slotByte (tImgS 1) 2) 588 64) (imgBytes (slotByte (tImgS 1) 2) 1536 29792)
      (imgBytes (slotByte (tImgS 1) 2) 0 1024) = true) : slotCode (tImgS 1) 2 = 0 ∧ imgKind (slotByte (tImgS 1) 2) = 1 := by
  have hk : imgKind (slotByte (tImgS 1) 2) = 1 := by decide +kernel
  have hg : imgGen (slotByte (tImgS 1) 2) = 0 := by decide +kernel
  have hh : imgNum (slotByte (tImgS 1) 2) 0 4 = 0x56425645 ∧ imgNum (slotByte (tImgS 1) 2) 4 2 = 1 ∧ imgKind (slotByte (tImgS 1) 2) ≤ 5 ∧
      imgGen (slotByte (tImgS 1) 2) ≤ 3 ∧ (imgBytes (slotByte (tImgS 1) 2) 652 372).all (fun b => b == 0) ∧
      32768 + imgLen (slotByte (tImgS 1) 2) ≤ slotSize 2 ∧ (imgKind (slotByte (tImgS 1) 2) = 0 → imgSvn (slotByte (tImgS 1) 2) ≤ 64) ∧
      (2 ≤ imgKind (slotByte (tImgS 1) 2) → imgSvn (slotByte (tImgS 1) 2) = 0) := by decide +kernel
  have hd : imgKey (tImgS 1) (slotByte (tImgS 1) 2) = (some (Config.sha384 (imgBytes (slotByte (tImgS 1) 2) 72 580)), 0) := by
    unfold imgKey
    rw [hk, hg]
    rfl
  have hr : (tImgS 1).boot.revoked.getLsbD 0 = false := by decide +kernel
  refine ⟨?_, hk⟩
  unfold slotCode imageCode
  dsimp only
  rw [if_neg (fun h => h hh), hd]
  dsimp only
  rw [if_neg (fun h => h rfl), hr, if_neg Bool.false_ne_true, if_neg (fun h => absurd (hk.symm.trans h.1) (by decide)), if_pos ⟨h1, h2, h3⟩]
  rfl

/-- Each command of CIPHER to EXPERT answers OK on some operands, the last where they have a range. -/
theorem wit_SahyaCommandsOnItsUnits :
    (tGives tOffS 9 1 [1023, 63, 65535] chkCipherPage 0 = true ∧ tGives tOffS 9 1 [1023, 127, 0] chkCipherPage 0 = true ∧
      tGives tOffS 9 2 [1, 15, 63, 65535] chkCipherChannel 0 = true ∧ tGives tOffS 9 3 [1, 1023] chkCipherLock 0 = true ∧
      tGives tOffS 9 4 [] chkCipherTest 0 = true) ∧
    (tGives tOffN 10 1 [1, 255, 0, 0, 0, 0, 0, 0, 0, 0, 0xFFFF, 0xFFFF, 0, 3] chkMemConfig 0 = true ∧
      tGives tOffS 10 2 [11, 3, -1, -1, 0xFFFFFFFF] chkMemBoard 0 = true ∧ tGives tOffS 10 3 [] chkNone 0 = true ∧
      tGives tOffS 10 4 [1] chkFlag 0 = true ∧ (∀ c ∈ List.range 2, tGives tOffS 10 5 [BitVec.ofNat 64 c] chkMemClear 0 = true) ∧
      tGives tOffS 10 6 [0] chkMemClear 0 = true ∧ tGives tOffS 10 7 [1, 11, 1, 1] chkMemEcctest 0 = true ∧
      tGives tOffS 10 8 [11, 1] chkMemRetire 0 = true ∧ tGives tOffN 10 9 [0xF01, 65535] chkMemCtl 0 = true ∧
      tGives tOffN 10 10 (0x0D0301 :: List.replicate 13 65535) chkMemTiming 0 = true ∧ tGives tOffS 10 11 [7, 65535, 65535] chkMemQos 0 = true) ∧
    (tGives tLvlS 11 1 [0x800000000000, 4096] chkScrubRun 0 = true ∧ tGives tLvlS 11 2 [] chkNone 0 = true) ∧
    (tGives tOffS 12 1 [0x1E09, 1, 0xFFFFFFFFFFFF] chkFaultConfig 0 = true ∧ tGives tOffS 12 2 [0xE09] chkFaultRead 0 = true ∧
      tGives tOffS 12 3 [63] chkFaultRoute 0 = true ∧ tGives tOffS 12 4 [0xE09, -1] chkFaultInject 0 = true ∧
      (∀ k ∈ List.range 3, tGives tOffS 12 5 [BitVec.ofNat 64 k, 1023, 1024] chkFaultBbox 0 = true)) ∧
    (tGives tOffS 13 1 [51, 1] chkPowerDomain 0 = true ∧ tGives tOffS 13 1 [47, 1] chkPowerDomain 0 = true ∧ inServiceUnit tOffS .u1 = false ∧
      tGives tOffS 13 2 [] (chkPowerRead [0]) 0 = true ∧ tGives tOffS 13 3 [1, 7] chkPowerThrottle 0 = true ∧
      (∀ k ∈ List.range 3, tGives tOffS 13 4 [BitVec.ofNat 64 k, 1] chkPowerReset 0 = true)) ∧
    (tGives tOffS 14 1 [65424, 14] chkCalRead 0 = true ∧ tGives tOffS 14 2 [65528, -1] chkCalWrite 0 = true) ∧
    (tGives tOffS 15 1 [2, 0x7FFFF8, -1] chkImageWrite 0 = true ∧ tGives tOffS 15 4 [] chkNone 0 = true ∧
      tGives { tOffS with boot := { tOffS.boot with runningGen := 4 } } 15 5 [3] chkImageRevoke 0 = true ∧ tGives tOffS 15 6 [] chkNone 0 = true) ∧
    (tGives tOffS 16 1 [] chkNone 0 = true ∧ tGives tOffS 16 2 [] chkNone 0 = true) := by
  refine ⟨⟨?_, ?_, ?_, ?_, ?_⟩, ⟨?_, ?_, ?_, ?_, ?_, ?_, ?_, ?_, ?_, ?_, ?_⟩, ⟨?_, ?_⟩, ⟨?_, ?_, ?_, ?_, ?_⟩, ⟨?_, ?_, ?_, ?_, ?_, ?_⟩, ⟨?_, ?_⟩,
    ⟨?_, ?_, ?_, ?_⟩, ⟨?_, ?_⟩⟩ <;> decide +kernel

theorem served_cal (s : State) (t : Tab Byte) (h : CmdHdr) (g v : Nat) :
    cmdServed { s with boot := { s.boot with calStage := some t } } h g v = cmdServed s h g v := rfl
theorem code_cal (s : State) (t : Tab Byte) (h : CmdHdr) (g v : Nat) (a : List Word) (chk : State → Option Nat → List Word → Nat) :
    cmdCode { s with boot := { s.boot with calStage := some t } } h g v a chk =
      if !(issuerOk s (bindMid (mbxOf s h.chan).bind h.side) g v && (!s.boot.recovery || recoveryAllows g v)) then ccNotPermitted
      else chk { s with boot := { s.boot with calStage := some t } } (plainIssuer s h) a := rfl
/-- CAL.COMMIT of a set with its CRC. -/
theorem wit_calCommit : ∃ t, cmdGives { tOffS with boot := { tOffS.boot with calStage := some t } } tH 14 3 [0x5A5A] chkCalCommit 0 := by
  obtain ⟨t, ht⟩ := cal_ok
  have h1 : (issuerOk tOffS (bindMid (mbxOf tOffS tH.chan).bind tH.side) 14 3 && (!tOffS.boot.recovery || recoveryAllows 14 3)) = true := by
    decide +kernel
  refine ⟨t, ?_, rfl, ?_⟩
  · rw [served_cal]
    decide +kernel
  · rw [code_cal, h1, Bool.not_true, if_neg Bool.false_ne_true]
    unfold chkCalCommit
    rw [show calStaged { tOffS with boot := { tOffS.boot with calStage := some t } } = t from rfl, ht]
    rfl

/-- A command refused for its issuer, 0x300, with NOT_PERMITTED; and one that Sahya, stopped, does not serve. -/
theorem wit_commandsRefused (g v : Nat) (args : List Word) (chk : State → Option Nat → List Word → Nat) :
    cmdGives (tSah 0x300 {}) tH g v args chk ccNotPermitted ∧ cmdServed {} tH g v = false := by
  refine ⟨⟨?_, rfl, ?_⟩, rfl⟩
  · have h : (sahyaUp (tSah 0x300 {}) && sahyaChannel (tSah 0x300 {}) tH && !(tSah 0x300 {}).bench.checkstop) = true := by decide +kernel
    simp only [Bool.and_eq_true] at h
    rw [cmdServed, h.1.1, h.1.2, h.2]
    rfl
  · have h : issuerOk (tSah 0x300 {}) (bindMid (mbxOf (tSah 0x300 {}) tH.chan).bind tH.side) g v = false := by
      have h1 : bindMid (mbxOf (tSah 0x300 {}) tH.chan).bind tH.side = 0x300 := by decide +kernel
      rw [h1]
      rfl
    rw [cmdCode, h, Bool.false_and, Bool.not_false, if_pos rfl]

-- faults, the bench, power
/-- The module in OFF with the expert surface enabled, the staked-write path naming LVL_CFG. -/
def tExp (busy : Option Nat) : State := { tOffS with sahya := { tOffS.sahya with expEn := true, swAddr := 0x1010000, swBusy := busy } }

/-- Windows with and without BUSY; unlevelled and reserved bits; registers of the bench and of a control window; services up; an open source
window before and at N; the bench operations with VAON, frozen and not, armed and not. -/
theorem wit_FaultsAndTheBench :
    ((tExp none).sahya.expEn = true ∧ swBusyNow (tExp none) = false ∧ winLevelled (bitsOf (tExp none).sahya.swAddr 3 23 * 8) = true ∧
      isOff (tExp none) = true ∧ swBusyNow (tExp (some 1)) = true ∧ bitsOf (1 : Word) 1 63 = 0 ∧ State.reset.sahya.expEn = false) ∧
    ((0x8 : BitVec 26).toNat % 8 = 0 ∧ winBadBits (0x8 : BitVec 26).toNat 0 = false ∧ winBadBits (0x8 : BitVec 26).toNat (-1) = true) ∧
    (State.reset.pow.vaon = true ∧ bitsOf (0xFF03 : Word) 2 6 = 0 ∧ bitsOf (0xFF03 : Word) 16 48 = 0 ∧ bitsOf (0x1E : Word) 5 59 = 0 ∧
      bitOf (0x1E : Word) 0 = false ∧ (∀ k ∈ [1, 2, 3, 4], bitOf (0x1E : Word) k = true)) ∧
    (∀ p ∈ [0, 1], let x : UnitState := { tBoth.u0 with trv := { grants := [(0xFFFFF, some 0)] } }
     x.executing = true ∧ ctlListed (ctlLoc 0x10FFFFF050) = true ∧
     (ctlAccepts x { parcel := p, sup := false } true (ctlLoc 0x10FFFFF050) = true ↔ p = 0) ∧ ctlBadBits (ctlLoc 0x10FFFFF050) (-1) = false) ∧
    (tBoth.sahya.running = true ∧ tBoth.sahya.fwDown = false ∧ tBoth.sahya.lockStop = false ∧
      ({ pow := { phase := 10 } } : State).pow.phase ≠ 0) ∧
    (∀ w ∈ [6, 7], let x : Source := { n := 8, w := 1, react := 0, openW := true, wcnt := w, count := 2 ^ 32 - 2 }
     x.count < 2 ^ 32 - 1 ∧ x.openW = true ∧ (x.wcnt + 1 = x.n.toNat ↔ w = 7)) ∧
    (({ n := 1, w := 0, react := 0 } : Source).openW = false ∧ ({ n := 1, w := 0, react := 0 } : Source).n = 1) ∧
    tBoth.gen.run = true ∧ bitOf (3 : Word) 0 = true ∧ State.reset.bench.checkstop = false ∧ State.reset.bench.frozen = false := by
  decide +kernel

/-- A module in a start-up phase, its lands good. -/
def tPhase (n : Nat) : State := { pow := { phase := n, reset := .none, pwrGood := true, refclk := true, modResetN := true, perstN := true } }
/-- The module with a domain in a state. -/
def tDom (d : Nat) (st : BitVec 3) : State := { pow := { doms := [(d, { st := st })] } }
/-- Sahya running at a throttle level, cool for some milliseconds. -/
def tCool (level : BitVec 3) (ms : Nat) : State := { sahya := { running := true, level := level, coolMs := ms } }

/-- VAON present and absent; PWR_GOOD; resets in and out of phase 0; every phase's end and limit; unit resets; domains of units and dies;
temperatures and powers at their bounds; rails; the clock; JTAG in and out of reset. -/
theorem wit_PowerResetsAndStartUp :
    (({ pow := { vaon := false } } : State).pow.vaon = false ∧ State.reset.pow.vaon = true ∧ (tPhase 1).pow.pwrGood = true) ∧
    (State.reset.pow.phase = 0 ∧ State.reset.pow.reset = .cold ∧ (tPhase 10).pow.vaon = true ∧ (tPhase 10).pow.phase ≠ 0) ∧
    (let s : State := { pow := { (tPhase 0).pow with reset := .warm } }
     exitReady s = true ∧ exitReady State.reset = false) ∧
    (∀ n ∈ [1, 2, 3, 4, 5, 6, 7, 8, 9], phaseRuns (tPhase n) = true ∧ (tPhase n).pow.phase = n) ∧
    (let s : State := { pow := { unitReset := [(.u1, false)] } }
     (∀ e ∈ s.pow.unitReset, e.1 ≠ UnitId.u0) ∧ (∃ e ∈ s.pow.unitReset, e.1 = UnitId.u1) ∧ ∀ e ∈ s.sahya.resetTags, e.1 ≠ UnitId.u1) ∧
    ((domOf (tDom 23 domPoweringOn) 23).st ≠ domOff ∧ (domOf (tDom 23 domPoweringOn) 23).st ≠ domOn ∧ (tDom 23 domPoweringOn).u0.executing = false ∧
      (domOf (tDom 47 domOff) 47).st = domOff ∧ (domOf (tDom 47 domOn) 47).st = domOn ∧ (domOf (tDom 51 domPoweringOn) (48 + 3)).st = domPoweringOn) ∧
    (∀ l ∈ [(0 : BitVec 3), 6], (tCool l 9).sahya.running = true ∧ (tCool l 9).sahya.fwDown = false ∧ (tCool l 9).sahya.fixedThr = false ∧
      (tCool l 9).bench.checkstop = false ∧ (tCool l 9).sahya.level ≠ 7 ∧ (tCool l 9).sahya.coolMs = 9 ∧ (l = 6 → (tCool l 9).sahya.level ≠ 0)) ∧
    (let s : State := { tPhase 0 with gen := { run := true } }
     s.pow.refclk = true ∧ s.pow.phase = 0 ∧ s.gen.run = true) ∧
    (State.reset.pow.modResetN = false ∧ (tPhase 1).pow.modResetN = true) := by
  refine ⟨?_, ?_, ?_, ?_, ?_, ?_, ?_, ?_, ?_⟩ <;> decide +kernel

/-- A queue with a command in front, and the empty one; the step of the first. -/
theorem wit_AStepExecutesTheFrontCommand :
    ({ State.reset with pending := [.errorSet, .errorClr] } : State).pending = .errorSet :: [.errorClr] ∧ State.reset.pending = [] ∧
    (match step { State.reset with pending := [.errorSet, .errorClr] } with
      | .next t => t.bench.error && decide (t.pending = [.errorClr])
      | _ => false) = true := by decide +kernel
/-- The outcome is a next state. -/
def tNext : Host.Outcome State Fault Refusal → Bool
  | .next _ => true
  | _ => false
theorem isNext_of {o : Host.Outcome State Fault Refusal} (h : tNext o = true) : ∃ t, o = .next t := by
  cases o with
  | next t => exact ⟨t, rfl⟩
  | _ => cases h
/-- A step from a state whose memories are canonical that writes one. -/
theorem wit_EveryStepKeepsTheMemoriesCanonical :
    memoriesWf { tRun tCore with pending := [.std tIssue 0 (tEa 0)] } = true ∧
    ∃ t, step { tRun tCore with pending := [.std tIssue 0 (tEa 0)] } = .next t :=
  ⟨by decide +kernel, isNext_of (by decide +kernel)⟩

-- values: each expected result comes from an example of spec/, or from the standard that a rule names
/-- Core 0 of Unit 0 after an instruction of a state. -/
def tAfter (c : Instr) (s : State) : Core :=
  match exec c s with
  | .next t => unitCore t.u0 0
  | _ => {}

/-- 08 R241, its example: −7 by 2, and by 0. -/
theorem test_division :
    (let s := tWith { tCore with d := ((tRegs 3 (-7)).setIfInBounds 4 2) }
     rdD (tAfter (.div tIssue 5 3 4) s) 5 = -3 ∧ rdD (tAfter (.rem tIssue 6 3 4) s) 6 = -1 ∧
     rdD (tAfter (.divu tIssue 5 3 4) s) 5 = 0x7FFFFFFFFFFFFFFC) ∧
    (let s := tWith { tCore with d := tRegs 3 (-7) }
     rdD (tAfter (.div tIssue 5 3 4) s) 5 = -1 ∧ rdD (tAfter (.rem tIssue 6 3 4) s) 6 = -7 ∧ rdD (tAfter (.divu tIssue 5 3 4) s) 5 = -1) := by
  decide +kernel

/-- 08 R246, its example: +1,234,567 and −2,345,678; 31 nines and 1; a bad sign. -/
theorem test_decimal_sum :
    (let c := tAfter (.dadd tIssue 0 1) (tWith { tCore with k := #v[0x1234567C, 0x2345678D, 0, 0] })
     rdK c 0 = 0x1111111D ∧ c.psw.n = true ∧ c.psw.z = false ∧ c.psw.v = false) ∧
    (let c := tAfter (.dadd tIssue 2 3) (tWith { tCore with k := #v[0, 0, 0x9999999999999999999999999999999F, 0x1C] })
     rdK c 2 = 0xC ∧ c.psw.n = false ∧ c.psw.z = true ∧ c.psw.v = true) ∧
    (let c := tAfter (.dadd tIssue 2 3) (tWith { tCore with k := #v[0, 0, 0x9999999999999999999999999999999F, 0x13] })
     rdK c 2 = 0x9999999999999999999999999999999F ∧ c.ecause.code = 0x0A) := by decide +kernel

/-- The core of the example of 10 R326. -/
def tTrap : Core :=
  { tCore with pc := 0x20150, subn := false, d := tRegs 4 1, psw := { s := false }, a := tRegs 15 0x7FFFF000, ssp := 0x400000008000,
               codeTlb := [{ tPage with vpage := 16 }] }
/-- 10 R326, its example: FMUL.D of a subnormal value with SUBN = TRAP. -/
theorem test_subnormal_trap :
    let c := tAfter (.fmul tIssue false 2 4 6) (tWith tTrap)
    c.epc = 0x20150 ∧ c.ecause = { code := 0x0B, ilen := 1, iaddr := 0x20150 } ∧ c.eaddr = 0 ∧ rdA c 15 = 0x400000008000 ∧
    c.ssp = 0x400000008000 ∧ c.ea15 = 0x7FFFF000 ∧ c.psw.s = true ∧ c.pc = 256 := by decide +kernel

/-- 07 R238, its example: a code word's slot with its parity; a bit flipped. -/
theorem test_slot_parity : slotParityOk 0x0300030F027549C4 = true ∧ slotParityOk 0x0300030F027549C5 = false := by decide +kernel

/-- 11 R331, its example: the home slice and the set of an address. -/
theorem test_home : homeSlice (0x123456789AC0 / 64) = 2 ∧ homeSet (0x123456789AC0 / 64) = 0x41FB := by decide +kernel

/-- Controller 7, and controller 0, as the example of 12 R361 sets them. -/
def tMcEx : McState := { regs := [(0x008, 2 + 4 + 16), (0x020, 0x4008000), (0x028, 0x8010000), (0x030, 0x10080000), (0x038, 0x20100000), (0x048, 0x801000),
  (0x050, 0x1002000), (0x058, 0x2004000)] }
/-- The unit of that example. -/
def tDramEx : UnitState := { mem := { tMem with mc := ((Vector.replicate 12 {}).setIfInBounds 0 tMcEx).setIfInBounds 7 tMcEx } }
/-- 12 R361, its example: a line's place; 13 R398: the pages of a bank begin with those that the example names. -/
theorem test_dram_place :
    lineChan (0x1234567040 / 64) = 7 ∧
    dramPlace tDramEx (0x1234567040 / 64) = { sub := 0, dimm := 1, rank := 0, cid := 3, bg := 0, ba := 0, row := 0x308, col := 65 } ∧
    (∀ pa ∈ [0x4207000, 0x4507000, 0xA213000], let p := dramPlace tDramEx (pa / 64)
      lineChan (pa / 64) = 7 ∧ bankId p = bankId (dramPlace tDramEx (0x1234567040 / 64)) ∧ (p.row = 1 ↔ pa = 0xA213000)) := by decide +kernel

/-- The tables and maps of the example of 15 R454. -/
def tWalkEx : UnitState :=
  { mem := { tDramEx.mem with
      parcels := [(5, some { sys := false, ctxBase := 0, vectors := [], map := [⟨0, 0x29, false, false, false, false⟩, ⟨1, 0x2A, false, false, false, false⟩] })],
      segs := [(0x29, { acl := 32 }), (0x2A, { acl := 32 })],
      data := tabSetList byteDef (tabSetList byteDef (tabSetList byteDef [] 0x29100000400 (leBytes 8 0x100001001)) 0x29100001240 (leBytes 8 0x100002001))
        0x29100002D10 (leBytes 8 0x184020000F) } }
/-- 15 R454, its example: a walk of a 2 MiB page and the map behind it. -/
theorem test_walk : walkData tWalkEx 5 0x401234567ABC 4 0x100000000 = some (0x1840367, true, true) ∧
    (xlatePpa tWalkEx 5 0x1840367ABC).map (fun r => r.2) = some 0x2A840367ABC := by decide +kernel

/-- 17 R507, its example: N = 3: the third event of a window is severe. -/
theorem test_fault_window :
    let x0 : Source := { n := 3, w := 1024, react := 1 }
    let r1 := countEvent x0 6100
    let r2 := countEvent r1.1 6500
    let r3 := countEvent r2.1 6700
    (r1.1.openW, r1.1.opened, r1.1.wcnt, r1.2) = (true, 6100, 1, false) ∧ (r2.1.wcnt, r2.2) = (2, false) ∧ (r3.1.openW, r3.1.count, r3.2) = (false, 3, true) := by
  decide +kernel

/-- A row of the table of 08 R262: the instruction, D2 to D4, and what D2 and FPSW hold after it, under TRAP (none where it raises SUBNORMAL) and
under FLUSH. -/
structure FpRow where
  op : Instr
  acc : Word
  x : Word
  y : Word
  trap : Option (Word × BitVec 5)
  flush : Word × BitVec 5
/-- The rows of that table with the values of a format: M, Nm, −0, 0.5, 1.0, infinity and the root of M. -/
def tFpRows (g : Bool) (mx nm neg half one inf root : Word) : List FpRow :=
  let dn := inf ||| (if g then 0x400000 else 0x8000000000000)
  let add := Instr.fadd tIssue g 2 3 4
  let sub := Instr.fsub tIssue g 2 3 4
  let mul := Instr.fmul tIssue g 2 3 4
  let div := Instr.fdiv tIssue g 2 3 4
  let root' := Instr.fsqrt tIssue g 2 3
  let fma := Instr.fma tIssue g 2 3 4
  [⟨add, 7, 1, 1, none, (0, 0)⟩, ⟨add, 7, 1, mx, none, (mx, 0)⟩, ⟨add, 7, 1, nm, none, (nm, 0)⟩, ⟨add, 7, mx, mx, some (inf, 0x14), (inf, 0x14)⟩]
  ++ [⟨add, 7, mx, neg ||| mx, some (0, 0), (0, 0)⟩, ⟨sub, 7, 1, 1, none, (0, 0)⟩, ⟨sub, 7, nm + 1, nm, none, (0, 0x18)⟩]
  ++ [⟨sub, 7, mx, neg ||| mx, some (inf, 0x14), (inf, 0x14)⟩, ⟨mul, 7, 1, 1, none, (0, 0)⟩, ⟨mul, 7, 1, mx, none, (0, 0)⟩]
  ++ [⟨mul, 7, mx, mx, some (inf, 0x14), (inf, 0x14)⟩, ⟨mul, 7, nm, half, none, (0, 0x18)⟩, ⟨div, 7, 1, 1, none, (dn, 1)⟩]
  ++ [⟨div, 7, mx, 1, none, (inf, 2)⟩, ⟨div, 7, 1, mx, none, (0, 0)⟩, ⟨div, 7, mx, mx, some (one, 0), (one, 0)⟩]
  ++ [⟨div, 7, mx, half, some (inf, 0x14), (inf, 0x14)⟩, ⟨div, 7, one, mx, none, (0, 0x18)⟩, ⟨root', 7, 1, 0, none, (0, 0)⟩]
  ++ [⟨root', 7, neg ||| 1, 0, none, (neg, 0)⟩, ⟨root', 7, mx, 0, some (root, 0x10), (root, 0x10)⟩, ⟨root', 7, neg ||| mx, 0, some (dn, 1), (dn, 1)⟩]
  ++ [⟨fma, 0, 1, 1, none, (0, 0)⟩, ⟨fma, 1, one, one, none, (one, 0)⟩]
/-- The row holds. -/
def tFpHolds (r : FpRow) : Bool :=
  let run := fun (flush : Bool) => tAfter r.op (tWith { tCore with subn := flush, d := ((tRegs 2 r.acc).setIfInBounds 3 r.x).setIfInBounds 4 r.y })
  let c := run false
  let f := run true
  (match r.trap with
    | none => decide (c.ecause.code = 0x0B ∧ rdD c 2 = r.acc ∧ c.fpsw = 0)
    | some v => decide ((rdD c 2, c.fpsw) = v)) && decide ((rdD f 2, f.fpsw) = r.flush)
/-- 08 R262, its table, in both formats. -/
theorem test_fp_table :
    (tFpRows false 0x7FEFFFFFFFFFFFFF 0x10000000000000 0x8000000000000000 0x3FE0000000000000 0x3FF0000000000000 0x7FF0000000000000
      0x5FEFFFFFFFFFFFFF).all tFpHolds = true ∧
    (tFpRows true 0x7F7FFFFF 0x800000 0x80000000 0x3F000000 0x3F800000 0x7F800000 0x5F7FFFFF).all tFpHolds = true := by decide +kernel

/-- 1.5 + 2.25 = 3.75 and 1 / 3 to nearest, as IEEE 754 gives them. -/
theorem test_binary64 :
    fpAdd fmtD 0 false 0x3FF8000000000000 0x4002000000000000 = .value 0x400E000000000000 0 ∧
    fpDiv fmtD 0 false 0x3FF0000000000000 0x4008000000000000 = .value 0x3FD5555555555555 fInexact := by decide +kernel

/-- Multiplication in GF(2^8). -/
def gfMul (a b : Byte) : Byte := gfMulN 8 a b
/-- The inverse in GF(2^8), as the 254th power; 0 for 0. -/
def gfInv (a : Byte) : Byte :=
  let a2 := gfMul a a
  let a4 := gfMul a2 a2
  let a8 := gfMul a4 a4
  let a16 := gfMul a8 a8
  let a32 := gfMul a16 a16
  let a64 := gfMul a32 a32
  gfMul a2 (gfMul a4 (gfMul a8 (gfMul a16 (gfMul a32 (gfMul a64 (gfMul a64 a64))))))
/-- FIPS 197: the S-box is the inverse and the affine map, and the tables are inverses. -/
theorem test_aes_tables : ∀ n ∈ List.range 256, let a : Byte := BitVec.ofNat 8 n
    let b := gfInv a
    aesSub a = b ^^^ b.rotateLeft 1 ^^^ b.rotateLeft 2 ^^^ b.rotateLeft 3 ^^^ b.rotateLeft 4 ^^^ 0x63 ∧ aesInvSub (aesSub a) = a := by decide +kernel
/-- FIPS 197, C.1, both ways. -/
theorem test_aes :
    aesEnc (beBytes 16 0x000102030405060708090A0B0C0D0E0F) (beBytes 16 0x00112233445566778899AABBCCDDEEFF) = beBytes 16 0x69C4E0D86A7B0430D8CDB78070B4C55A ∧
    aesDecK (aesKeys (beBytes 16 0x000102030405060708090A0B0C0D0E0F)) (beBytes 16 0x69C4E0D86A7B0430D8CDB78070B4C55A) =
      beBytes 16 0x00112233445566778899AABBCCDDEEFF := by decide +kernel
/-- RFC 4493, example 2. -/
theorem test_cmac : aesCmacOf (beBytes 16 0x2B7E151628AED2A6ABF7158809CF4F3C) (beBytes 16 0x6BC1BEE22E409F96E93D7E117393172A) =
    beBytes 16 0x070A16B46B4D4144F79BDD9DD04A287C := by decide +kernel
/-- FIPS 81: "Now is t" under 0x0123456789ABCDEF. -/
theorem test_des : desEnc 0x0123456789ABCDEF 0x4E6F772069732074 = 0x3FA40E8A984D4815 := by decide +kernel
/-- The check value of CRC-32 over the digits 1 to 9. -/
theorem test_crc32 : crc32 [0x31, 0x32, 0x33, 0x34, 0x35, 0x36, 0x37, 0x38, 0x39] = 0xCBF43926 := by decide +kernel

/-- One ill-formed command for each check of well-formedness, refused. -/
theorem test_illFormed : (
  [Instr.mulwu tIssue 4 0 0, .kclr tIssue 4, .kadd tIssue 4 0, .kmov tIssue 0 4, .dadd tIssue 4 0, .dcmp tIssue 0 4, .mfkl tIssue 0 4, .mtkh tIssue 4 0]
  ++ [Instr.cvbd tIssue 4 0, .cvdb tIssue 0 4, .dshl tIssue 4 0, .dshl tIssue 0 32, .dshr tIssue 0 32, .csel tIssue 15 0 0 0, .b tIssue 15 0, .call tIssue 1 0]
  ++ [Instr.tbeg tIssue 1 0, .sext tIssue 0 0 3, .zext tIssue 0 0 3, .shifti tIssue 0 0 320, .mfc tIssue 0 0x2F, .mfc tIssue 0 0x40, .mfc tIssue 0 0x3E]
  ++ [Instr.mtc tIssue 0x2F 0, .mtc tIssue 0x40 0, .mtc tIssue 0x3E 0, .tabt tIssue 0x7F, .ldih tIssue 0 0x100000]
  ++ [Instr.movs tIssue ⟨false, 1, false, false, 0⟩, .movs tIssue ⟨false, 0, true, false, 0⟩, .cmps tIssue ⟨false, 1, false, false, 0⟩]
  ++ [Instr.fills tIssue ⟨false, 0, true, false, 0⟩, .xlats tIssue ⟨false, 0, false, false, 1⟩, .xlats tIssue ⟨false, 0, true, false, 0⟩]
  ++ [Instr.dadds tIssue ⟨false, 0, false, false, 0⟩, .dadds tIssue ⟨false, 0, false, true, 1⟩, .dadds tIssue ⟨false, 1, false, true, 0⟩]
  ++ [Instr.ldk tIssue 4 (tEa 0), .stk tIssue 4 (tEa 0), .ldb tIssue 0 ⟨0, 0, false, 1, 0⟩, .stb tIssue 0 ⟨0, 1, false, 0, 0⟩, .aref tIssue 0 ⟨0, 0, false, 1, 0⟩]
  ++ [Instr.hostStake .u0 tHdr 0 .a false [], .hostStake .u0 tHdr 0 .a false (List.replicate 17 0), .ctlMcode .u0 tHdr ⟨0, 0, List.replicate 1025 0, []⟩]
  ++ [Instr.ctlMcode .u0 tHdr ⟨0, 0, [], List.replicate 33 0⟩, .ctlCode .u0 tHdr 0 (List.replicate 2047 0), .wrl .u0 (tReq 0 0) (List.replicate 63 0)]
  ++ [Instr.wrt .u0 (tReq 0 0) 63 [0, 0], .stationTakeover tH 0 0 0 (List.replicate 13 0), .pathPort tH 0 0 0 0 (List.replicate 7 0)]
  ++ [Instr.pathGroup tH 0 0 0 (List.replicate 9 0), .memConfig tH (List.replicate 13 0), .memTiming tH 0 [], .memTiming tH 0 (List.replicate 14 0)]
  ++ [Instr.imageWrite tH 0 0 (List.replicate 13 0), .calWrite tH 0 (List.replicate 14 0), .keyImport tH 0 0 0 (List.replicate 6 0)]).all (fun c => !wellFormed c) = true := by decide +kernel
/-- Terms at the bounds that are well formed. -/
theorem test_wellFormed : (
  [Instr.mulwu tIssue 3 15 15, .dshl tIssue 3 31, .csel tIssue 14 0 0 0, .call tIssue 0 (-1), .sext tIssue 0 0 2, .shifti tIssue 0 0 319, .mfc tIssue 0 0x30]
  ++ [Instr.mtc tIssue 0x3F 0, .tabt tIssue 0x80, .ldih tIssue 0 0xFFFFF, .scans tIssue ⟨true, 15, true, true, 3⟩, .dadds tIssue ⟨true, 0, false, true, 0⟩]
  ++ [Instr.ldb tIssue 0 ⟨0, 15, true, 3, 0⟩, .hostStake .u0 tHdr 0 .a false (List.replicate 16 0), .wrt .u0 (tReq 0 0) 63 [0], .wrl .u0 (tReq 0 0) (List.replicate 64 0)]
  ++ [Instr.memTiming tH 0 (List.replicate 13 0), .keyImport tH 0 0 0 [], .calWrite tH 0 (List.replicate 13 0)]).all wellFormed = true := by decide +kernel

end Sys2Proof.Tests
end

section
/-! The memories of O60 leave out the view of a fieldbook stack (`fb.view`), and start-up's reconciliation writes one stack's
view into both stacks' memories. So a step keeps `memoriesWf` only where the views are canonical too, which `memoriesWf` does not ask. -/
namespace Sys2Proof.Proofs.Memories

open Sys2Proof.Machine Sys2Proof.Safety

/-- A copy of a stack takes what reads of the source see. -/
@[simp] theorem stackCopy_mem (a x : UnitState) : (stackCopy a x).fb.mem = a.fb.view := rfl

@[simp] theorem stacksTo_u0_mem (s : State) (a : UnitState) : (stacksTo s a).u0.fb.mem = a.fb.view := by
  simp [stacksTo, modBoth]

/-- Case 1 of 05 R164: Unit 0's stack alone can be read. -/
theorem reconcile_onlyFirstGood {s : State} (h0 : stackGood s.u0 = true) (h1 : stackGood s.u1 = false) :
    reconcile s = reconDone (stacksTo s s.u0) false [reconHead 1 false false 0] := by
  simp [reconcile, h0, h1]

@[simp] theorem copyRetired_mem (x : UnitState) : (copyRetired x).fb.mem = x.fb.mem := rfl

@[simp] theorem reconDone_u0 (s : State) (c : Bool) (ws : List Word) : (reconDone s c ws).u0 = s.u0 := rfl

/-- Start-up phase 6 where Unit 0's stack alone can be read: the view of that stack becomes its memory. -/
theorem phase6_u0_mem {s : State} (h0 : stackGood s.u0 = true) (h1 : stackGood s.u1 = false) :
    (phase6 s).u0.fb.mem = s.u0.fb.view := by
  rw [phase6, reconcile_onlyFirstGood h0 h1]
  simp [modBoth]

/-- The step that ends start-up phase 6 well (18 R510). -/
theorem step_endsPhase6 {s : State} {rest : List Instr} (hq : s.pending = .startupPhaseEnd true :: rest) (hp : s.pow.phase = 6)
    (hr : phaseRuns s = true) : step s = .next (nextPhase (phase6 { s with pending := rest })) := by
  have hr' : phaseRuns { s with pending := rest } = true := hr
  simp [step, hq, execStartupPhaseEnd, hr', phaseEnds, hp]

theorem stackWf_of_memoriesWf {s : State} (h : memoriesWf s = true) : tabWf (fun _ => 0) s.u0.fb.mem = true := by
  simp only [memoriesWf, Bool.and_eq_true] at h
  obtain ⟨⟨⟨⟨⟨⟨-, -⟩, hfb⟩, -⟩, -⟩, -⟩, -⟩ := h
  exact hfb

/-- Start-up in phase 6, every memory empty. The view of Unit 0's stack holds FORMAT 1 in byte 0, and it lists byte 1, which holds 0
as an unlisted byte does. -/
def listedZero : State := { pow := { phase := 6 }, u0 := { fb := { view := [(0, 1), (1, 0)] } } }

/-- `listedZero` with the end of its phase at the front of the queue satisfies the hypothesis of O60. -/
theorem listedZero_memoriesWf : memoriesWf { listedZero with pending := [.startupPhaseEnd true] } = true := rfl

theorem listedZero_onlyFirstGood : stackGood listedZero.u0 = true ∧ stackGood listedZero.u1 = false := by decide

/-- The end of the phase lists the zero byte in the memory of Unit 0's stack. -/
theorem listedZero_step :
    ∃ t, step { listedZero with pending := [.startupPhaseEnd true] } = .next t ∧ t.u0.fb.mem = [(0, 1), (1, 0)] :=
  ⟨_, step_endsPhase6 rfl rfl rfl, phase6_u0_mem listedZero_onlyFirstGood.1 listedZero_onlyFirstGood.2⟩

/-- Refutes O60: `memoriesWf` does not bound what reads of a fieldbook stack see, and the reconciliation of start-up phase 6
(05 R164) writes that into the stacks. The counterexample is a state that satisfies the hypothesis as it is stated, its view of
Unit 0's stack not canonical; nothing is said here of the states that a run from reset reaches. -/
theorem not_everyStepKeepsTheMemoriesCanonical : ¬ Obligations.EveryStepKeepsTheMemoriesCanonical := by
  unfold Obligations.EveryStepKeepsTheMemoriesCanonical
  intro h
  obtain ⟨t, hstep, hmem⟩ := listedZero_step
  have hwf := stackWf_of_memoriesWf (h _ t listedZero_memoriesWf hstep)
  rw [hmem] at hwf
  exact absurd hwf (by decide)

end Sys2Proof.Proofs.Memories
end

section
/-! The chain generator (O35): a tick of the running chain, the start of it, a pulse checked. -/
namespace Sys2Proof.Proofs.Generator

open Sys2Proof.Machine Sys2Proof.Claims

/-- What bit `m` of a word reads after bit `n` is given a value. -/
theorem bitOf_withBit {w : Nat} (x : BitVec w) {n : Nat} (hn : n < w) (m : Nat) (b : Bool) :
    bitOf (withBit x n b) m = if m = n then b else bitOf x m := by
  have hpow : BitVec.ofNat w (2 ^ n) = BitVec.twoPow w n := BitVec.eq_of_toNat_eq (by rw [BitVec.toNat_ofNat, BitVec.toNat_twoPow])
  by_cases h : m = n
  · cases b <;> simp [bitOf, withBit, withBits, hpow, h, hn]
  · cases b <;> simpa [bitOf, withBit, withBits, hpow, h, Ne.symm h] using BitVec.lt_of_getLsbD

/-- CHN_STATUS.RUN is shown, whether lock is held or not. -/
theorem showRun_run (x : UnitState) (lock : Bool) : bitOf (showRun x lock).chn.status 0 = true := by
  rw [showRun, bitOf_withBit _ (by decide), bitOf_withBit _ (by decide)]
  rfl

/-- A boundary of the generator outside a freeze, with no levelled start due: CN counts, the period chosen a chain before is taken up
(02 R30, R39), and entropy is due where the pool has room (03 R70). -/
theorem tickRun_plain {s : State} (hf : s.hub.frozen = false) (hr : s.hub.resume = false) (hm : s.sahya.startMode = none) :
    tickRun s = .next { s with
      gen := { s.gen with cn := s.gen.cn + 1, period := s.gen.nextPeriod, pulseOut := false, pulseSeen := false }
      sahya := { s.sahya with entDue := decide (s.sahya.pool ≤ 48) } } := by
  simp [tickRun, hf, hr, tickNow, hm]

/-- CHAIN_TICK with a start accepted: it waits for a follower's pulse, and else the chain begins (02 R41, R44). -/
theorem execChainTick_starting {s : State} {n : Nat} (ht : ticking s) (hs : s.gen.starting = some n) :
    execChainTick s = if syncMode s = 2 ∧ s.gen.pulseSeen = false then .next s else .next (chainBegin s n) := by
  obtain ⟨hst, hck, hlk⟩ := ht
  simp [execChainTick, hst, hck, hlk, hs]

/-- CHAIN_TICK while the chain runs and no re-lock is under way. -/
theorem execChainTick_running {s : State} (ht : ticking s) (hs : s.gen.starting = none) (hr : s.gen.run = true)
    (hl : s.gen.relock = 0) : execChainTick s = tickRun { s with gen := { s.gen with relock := 0 } } := by
  obtain ⟨hst, hck, hlk⟩ := ht
  simp [execChainTick, hst, hck, hlk, hs, hr, hl]

/-- RELOCK_TIMEOUT while a tick is withheld (02 R45). -/
theorem execRelockTimeout_withheld {s : State} (ht : ticking s) (hr : s.gen.run = true) (hl : s.gen.relock = 2) :
    execRelockTimeout s = tickRun { s with gen := { s.gen with relock := 0 } } := by
  obtain ⟨hst, hck, hlk⟩ := ht
  simp [execRelockTimeout, hst, hck, hlk, hr, hl]

/-- SYNC_PULSE_CHECK with lock held, short of the third bad pulse in a row (02 R43). -/
theorem execSyncPulseCheck_locked {s : State} {ok : Bool} (hm : syncMode s = 2) (hr : s.gen.run = true)
    (hl : bitOf (foreState s).chn.status 2 = true) (hb : ok = true ∨ s.gen.badPulses < 2) :
    execSyncPulseCheck ok s =
      .next { s with gen := { s.gen with badPulses := if ok then 0 else s.gen.badPulses + 1 } } := by
  cases ok with
  | true => simp [execSyncPulseCheck, hm, hr, hl]
  | false =>
    have hb' : s.gen.badPulses < 2 := by simpa using hb
    simp [execSyncPulseCheck, hm, hr, hl, hb']

/-- Settles O35: each row comes to one boundary of the generator, to the start of the chain, or to one field of the generator. -/
theorem chainGeneratorTicks : Obligations.ChainGeneratorTicks := by
  unfold Obligations.ChainGeneratorTicks
  refine ⟨?start, ?tick, ?startWaits, ?relockEnds, ?pulseOut, ?pulseIn, ?pulseChecked⟩
  case start =>
    intro s n ht hs hp
    have hgo : ¬ (syncMode s = 2 ∧ s.gen.pulseSeen = false) := fun h => by simp [hp h.1] at h
    refine ⟨chainBegin s n, ?_, rfl, rfl, rfl, showRun_run _ _, showRun_run _ _⟩
    rw [Laws.exec_chainTick, execChainTick_starting ht hs, if_neg hgo]
  case tick =>
    intro s ht hs hr hl hf hc hm
    exact ⟨_, (execChainTick_running ht hs hr hl).trans (tickRun_plain hf hc hm), rfl, rfl, rfl, rfl, rfl⟩
  case startWaits =>
    intro s n ht hs hm hp
    rw [Laws.exec_chainTick, execChainTick_starting ht hs, if_pos ⟨hm, hp⟩]
  case relockEnds =>
    intro s ht hr hl hf hc hm
    exact ⟨_, (execRelockTimeout_withheld ht hr hl).trans (tickRun_plain hf hc hm), rfl, rfl, rfl, rfl⟩
  case pulseOut =>
    intro s hm hr hst
    simp [execSyncPulseOut, hm, hr, hst]
  case pulseIn =>
    intro s hm
    simp [execSyncPulseIn, hm]
  case pulseChecked =>
    intro s ok hm hr hl hb
    exact execSyncPulseCheck_locked hm hr hl hb

end Sys2Proof.Proofs.Generator
end

section
/-! The state after reset (O59): every table is empty, so it reads its default. -/
namespace Sys2Proof.Proofs.Reset

open Sys2Proof.Machine

/-- Both units hold the defaults. -/
theorem getUnit_reset (u : UnitId) : getUnit State.reset u = {} := by cases u <;> rfl

/-- No core of a unit is listed, so each holds the default registers (log 5). -/
theorem unitCore_default (l : Nat) : unitCore {} l = {} := rfl

/-- No register of a controller is listed, so each reads its Reset column (12 R382). -/
theorem mcReg_default (c : Fin 12) (off : Nat) : mcReg {} c off = mcReset c.val off := by
  simp [mcReg, mcOf, Vector.get_replicate, tabGet]

/-- No channel is listed, so each is in the default state (16 R461, R465). -/
theorem mbxOf_reset (n : Fin 64) : mbxOf State.reset n = {} := rfl

/-- No source is listed, so each is in its reset state (17 R490). -/
theorem srcOf_reset (n : Nat) (i : SrcInfo) : srcOf State.reset n i = srcReset i := rfl

/-- Settles O59: the tables by the lemmas above, the registers by evaluation of the reset state. -/
theorem resetLeaves : Obligations.ResetLeaves := by
  unfold Obligations.ResetLeaves
  refine ⟨rfl, rfl, rfl, ?units, ?channels, rfl, rfl, rfl, rfl, rfl, rfl, rfl, ?sources, rfl, rfl, rfl, rfl, rfl, rfl⟩
  case units =>
    intro u
    rw [getUnit_reset]
    refine ⟨rfl, rfl, rfl, rfl, rfl, rfl, rfl, rfl, rfl, rfl, rfl, rfl, rfl, rfl, ?controllers, ?cores⟩
    case controllers => exact fun c => ⟨mcReg_default c 0, mcReg_default c 0x060, mcReg_default c 0x018⟩
    case cores =>
      intro l
      rw [unitCore_default]
      exact ⟨rfl, rfl, rfl, rfl⟩
  case channels =>
    intro n
    rw [mbxOf_reset]
    exact ⟨rfl, rfl⟩
  case sources =>
    intro n i _
    rw [srcOf_reset]
    exact ⟨rfl, rfl⟩

end Sys2Proof.Proofs.Reset
end

section
/-! Outputs and back-pressure (O37): what issuing a stake leaves of the dies, and where an emitted output stands. -/
namespace Sys2Proof.Proofs.Outputs

open Sys2Proof.Machine

theorem dieOf_modDie (s : State) (d : DieId) (f : DieState → DieState) : dieOf (modDie s d f) d = f (dieOf s d) := by
  simp [dieOf, modDie, Vector.get_eq_getElem]

@[simp] theorem dieOf_modUnit (s : State) (u : UnitId) (f : UnitState → UnitState) (d : DieId) :
    dieOf (modUnit s u f) d = dieOf s d := by
  simp [dieOf]

/-- A record on its way to the units changes no die. -/
@[simp] theorem dieOf_feedUnits (s : State) (k : Stake) (d : DieId) : dieOf (feedUnits s k) d = dieOf s d := by
  simp only [feedUnits]
  split <;> split <;> simp

/-- What a die that issues a stake changes of itself: its SEQ, its last STAMP, its stake line (03 R60, R64). -/
theorem dieOf_issueDie (s : State) (d : DieId) (b : StakeBody) :
    ∃ q st l, dieOf (issueDie s d b) d = { dieOf s d with seq := q, lastStamp := st, line := l } := by
  unfold issueDie
  split
  · exact ⟨_, _, _, rfl⟩
  · simp only [dieOf_feedUnits, dieOf_modDie]
    exact ⟨_, _, _, rfl⟩

theorem issueDie_pressSpace (s : State) (d : DieId) (b : StakeBody) :
    (dieOf (issueDie s d b) d).pressSpace = (dieOf s d).pressSpace := by
  obtain ⟨q, st, l, h⟩ := dieOf_issueDie s d b
  rw [h]

theorem issueDie_dieSide (s : State) (d : DieId) (b : StakeBody) (u : UnitId) :
    dieSide (dieOf (issueDie s d b) d) u = dieSide (dieOf s d) u := by
  obtain ⟨q, st, l, h⟩ := dieOf_issueDie s d b
  rw [h]
  cases u <;> rfl

/-- Back-pressure raised leaves the outputs that the die holds (02 R36). -/
theorem raisePressure_dieSide (s : State) (d : DieId) (u : UnitId) :
    dieSide (dieOf (raisePressure s d) d) u = dieSide (dieOf s d) u := by
  have hstep (f : DieState → DieState) (hf : ∀ x, dieSide (f x) u = dieSide x u) (s : State) (b : StakeBody) :
      dieSide (dieOf (issueDie (modDie s d f) d b) d) u = dieSide (dieOf s d) u := by
    rw [issueDie_dieSide, dieOf_modDie, hf]
  have hb : ∀ x : DieState, dieSide { x with pressBudget := true } u = dieSide x u := by cases u <;> exact fun _ => rfl
  have hsp : ∀ x : DieState, dieSide { x with pressSpace := true } u = dieSide x u := by cases u <;> exact fun _ => rfl
  simp only [raisePressure]
  split <;> split <;> simp [hstep, hb, hsp]

@[simp] theorem dieSide_setDieSide (x : DieState) (u : UnitId) (l : List ChainOut) : dieSide (setDieSide x u l) u = l := by
  cases u <;> rfl

@[simp] theorem hubSide_setHubSide (h : HubState) (u : UnitId) (l : List ChainOut) : hubSide (setHubSide h u l) u = l := by
  cases u <;> rfl

/-- The count of the chain's bytes leaves the sides. -/
@[simp] theorem dieSide_bytes (x : DieState) (u : UnitId) (n : Nat) : dieSide { x with bytes := n } u = dieSide x u := by
  cases u <;> rfl

/-- An output to a port that nothing discards stands last in its chain on the unit's side of the die (04 R94). -/
theorem emitOut_link {s : State} {u : UnitId} {ucc : Nat} {p : PortId} {bs : List Byte} (hd : (getUnit s u).dropped = false)
    (hc : s.bench.checkstop = false) (hl : (dieOf s (portDie p)).lanesDown = false) (hs : (dieOf s (portDie p)).stopped = false)
    (hn : (dieOf s (portDie p)).noCompareBefore ≤ (getUnit s u).cn) :
    dieSide (dieOf (emitOut s u ucc (.link p bs)) (portDie p)) u =
      addEntry (dieSide (dieOf s (portDie p)) u) (getUnit s u).cn { ucc := ucc, body := .link p bs } := by
  simp only [emitOut, outDie, hd, hc, hl, hs, not_lt.2 hn, Bool.or_self, decide_false, Bool.false_eq_true, if_false]
  rw [raisePressure_dieSide, dieOf_modDie]
  split <;> simp

/-- A mailbox output stands last in its chain on the unit's side of the hub (04 R94). -/
theorem emitOut_mailbox {s : State} {u : UnitId} {ucc : Nat} {ch : Fin 64} {mid : BitVec 16} {off : BitVec 12} {w : Word}
    (hd : (getUnit s u).dropped = false) (hc : s.bench.checkstop = false) :
    hubSide (emitOut s u ucc (.mailbox ch mid off w)).hub u =
      addEntry (hubSide s.hub u) (getUnit s u).cn { ucc := ucc, body := .mailbox ch mid off w } := by
  simp [emitOut, outDie, hd, hc]

/-- Time that passes in a unit is its UCC alone (log 4). -/
theorem timeTo_some {s s1 : State} {u : UnitId} {ucc : Nat} (h : timeTo s u ucc = some s1) :
    s1 = modUnit s u (fun x => { x with ucc := later x.ucc ucc }) := by
  unfold timeTo at h
  split at h
  · exact (Option.some.inj h).symm
  · cases h

/-- OUTPUT_EMIT to a port under back-pressure: the output waits in the engine (02 R36). -/
theorem execOutputEmit_pressed {s s1 : State} {u : UnitId} {ucc : Nat} {p : PortId} {bs : List Byte}
    (ht : timeTo s u ucc = some s1) (hp : pressed (getUnit s1 u) (portDie p) = true) :
    execOutputEmit u ucc (.link p bs) s =
      .next (modUnit s1 u (fun x => { x with trv := { x.trv with outHeld := x.trv.outHeld ++ [.link p bs] } })) := by
  simp [execOutputEmit, ht, emitPort, hp]

/-- OUTPUT_EMIT to a port without back-pressure emits at the unit's UCC (04 R94). -/
theorem execOutputEmit_free {s s1 : State} {u : UnitId} {ucc : Nat} {p : PortId} {bs : List Byte}
    (ht : timeTo s u ucc = some s1) (hp : pressed (getUnit s1 u) (portDie p) = false) :
    execOutputEmit u ucc (.link p bs) s = .next (emitOut s1 u (getUnit s1 u).ucc (.link p bs)) := by
  simp [execOutputEmit, ht, emitPort, hp]

/-- OUTPUT_EMIT of a mailbox output (04 R94). -/
theorem execOutputEmit_mailbox {s s1 : State} {u : UnitId} {ucc : Nat} {ch : Fin 64} {mid : BitVec 16} {off : BitVec 12} {w : Word}
    (ht : timeTo s u ucc = some s1) :
    execOutputEmit u ucc (.mailbox ch mid off w) s = .next (emitOut s1 u ucc (.mailbox ch mid off w)) := by
  simp [execOutputEmit, ht]

/-- Back-pressure for space that is in force ends once both sides have 64 KiB free (02 R37). -/
theorem endSpace_ends {s : State} {d : DieId} (hp : (dieOf s d).pressSpace = true) (h0 : 65536 ≤ sideFree (dieOf s d) .u0)
    (h1 : 65536 ≤ sideFree (dieOf s d) .u1) : (dieOf (endSpace s d) d).pressSpace = false := by
  simp [endSpace, hp, h0, h1, issueDie_pressSpace, dieOf_modDie]

/-- Without it, or with less free on a side, BACKPRESSURE_END changes nothing (02 R37). -/
theorem endSpace_stays {s : State} {d : DieId}
    (h : (dieOf s d).pressSpace = false ∨ sideFree (dieOf s d) .u0 < 65536 ∨ sideFree (dieOf s d) .u1 < 65536) :
    endSpace s d = s := by
  simp only [endSpace]
  rw [if_neg]
  simp only [Bool.and_eq_true, decide_eq_true_eq]
  rintro ⟨⟨hp, h0⟩, h1⟩
  rcases h with h | h | h
  · simp [hp] at h
  · omega
  · omega

/-- Settles O37: the two emissions by `emitOut_link` and `emitOut_mailbox`, the wait in the engine and the end of back-pressure
by what those rows do. -/
theorem outputsAndBackPressure : Obligations.OutputsAndBackPressure := by
  unfold Obligations.OutputsAndBackPressure
  refine ⟨?waits, ?port, ?mailbox, ?ends, ?stays⟩
  case waits =>
    intro s s1 u ucc p bs ht hp
    refine ⟨_, execOutputEmit_pressed ht hp, ?_⟩
    simp [timeTo_some ht]
  case port =>
    intro s s1 u ucc p bs ht hp hd hc hl hs hn
    refine ⟨_, execOutputEmit_free ht hp, ?_⟩
    have hdie : dieOf s1 (portDie p) = dieOf s (portDie p) := by rw [timeTo_some ht, dieOf_modUnit]
    have hbench : s1.bench = s.bench := by rw [timeTo_some ht, Laws.modUnit_bench]
    rw [emitOut_link hd (by rw [hbench, hc]) (by rw [hdie, hl]) (by rw [hdie, hs]) (by rw [hdie]; exact hn), hdie]
  case mailbox =>
    intro s s1 u ucc ch mid off w ht hd hc
    refine ⟨_, execOutputEmit_mailbox ht, ?_⟩
    have hhub : s1.hub = s.hub := by rw [timeTo_some ht, Laws.modUnit_hub]
    have hbench : s1.bench = s.bench := by rw [timeTo_some ht, Laws.modUnit_bench]
    rw [emitOut_mailbox hd (by rw [hbench, hc]), hhub]
  case ends =>
    intro s d hp h0 h1
    exact ⟨_, rfl, endSpace_ends hp h0 h1⟩
  case stays =>
    intro s d h
    rw [Laws.exec_backpressureEnd, execBackpressureEnd, endSpace_stays h]

end Sys2Proof.Proofs.Outputs
end

section
/-! A unit's edge (O36): only the unit's entry into the new chain moves its UB, UCC and CN. Every other part of the edge leaves them,
and leaves what the roles of the units rest on. -/
namespace Sys2Proof.Proofs.Edge

open Sys2Proof.Machine

/-- A unit without its chain registers, its execution state, its memory and its fieldbook: all that the work of a boundary other than
the entry into the chain leaves as it was, the UCC, UB, CN and the input queue among it. -/
def besides (x : UnitState) : UnitState := { x with chn := {}, exe := {}, mem := {}, fb := {} }

theorem ucc_of_besides {x y : UnitState} (h : besides x = besides y) : x.ucc = y.ucc := congrArg (fun z => z.ucc) h
theorem ub_of_besides {x y : UnitState} (h : besides x = besides y) : x.ub = y.ub := congrArg (fun z => z.ub) h
theorem cn_of_besides {x y : UnitState} (h : besides x = besides y) : x.cn = y.cn := congrArg (fun z => z.cn) h
theorem feed_of_besides {x y : UnitState} (h : besides x = besides y) : x.feed = y.feed := congrArg (fun z => z.feed) h
theorem dropped_of_besides {x y : UnitState} (h : besides x = besides y) : x.dropped = y.dropped := congrArg (fun z => z.dropped) h
theorem lvl_of_besides {x y : UnitState} (h : besides x = besides y) : x.lvl = y.lvl := congrArg (fun z => z.lvl) h

@[simp] theorem besides_shiftSigs (x : UnitState) : besides (shiftSigs x) = besides x := rfl
@[simp] theorem besides_modMc (x : UnitState) (c : Fin 12) (f : McState → McState) : besides (modMc x c f) = besides x := rfl
@[simp] theorem besides_setMcReg (x : UnitState) (c : Fin 12) (o : Nat) (w : Word) : besides (setMcReg x c o w) = besides x := rfl

/-- Work done item by item leaves what each item leaves. -/
theorem besides_foldl {A : Type} (f : UnitState → A → UnitState) (hf : ∀ y a, besides (f y a) = besides y) (l : List A)
    (x : UnitState) : besides (l.foldl f x) = besides x :=
  List.foldlRecOn (motive := fun y => besides y = besides x) l f rfl (fun y hy a _ => (hf y a).trans hy)

@[simp] theorem besides_retrainSlot (x : UnitState) (c : Fin 12) : besides (retrainSlot x c) = besides x := by
  simp only [retrainSlot]
  split
  · rfl
  · rw [besides_foldl, besides_modMc]
    intro y e
    cases e.2 <;> rfl

/-- Step 4 of 02 R33. -/
@[simp] theorem besides_openSlots (x : UnitState) : besides (openSlots x) = besides x :=
  besides_foldl _ besides_retrainSlot _ x

@[simp] theorem besides_applyChnCfg (x : UnitState) : besides (applyChnCfg x) = besides x := by
  simp only [applyChnCfg]
  split
  · rfl
  · split
    · rfl
    · split <;> rfl

@[simp] theorem besides_applyMcRws (x : UnitState) (c : Fin 12) (o : Nat) (w : Word) : besides (applyMcRws x c o w) = besides x := by
  simp only [applyMcRws]
  split
  · split <;> rfl
  · rfl

/-- Step 7 of 02 R33. -/
@[simp] theorem besides_applyRws (x : UnitState) : besides (applyRws x) = besides x := by
  simp only [applyRws]
  rw [besides_foldl, besides_applyChnCfg]
  intro y c
  rw [besides_foldl, besides_modMc]
  intro z e
  cases e.2 with
  | none => rfl
  | some w => exact besides_applyMcRws z c e.1 w

@[simp] theorem besides_fbAccept (x : UnitState) (w : FbWrite) : besides (fbAccept x w) = besides x := by
  simp only [fbAccept]
  split <;> rfl

@[simp] theorem besides_bookPut (x : UnitState) (eng b : Nat) (f : Nat → Word → Word) : besides (bookPut x eng b f) = besides x := by
  simp only [bookPut, fbEngPut, fbPut, besides_fbAccept]
  rfl

@[simp] theorem besides_advanceTail (x : UnitState) (b : Nat) : besides (advanceTail x b) = besides x := by
  simp only [advanceTail]
  split
  · rfl
  · split
    · rfl
    · exact besides_bookPut _ _ _ _

/-- The tails of the books at a boundary (05 R153). -/
@[simp] theorem besides_advanceTails (x : UnitState) : besides (advanceTails x) = besides x := by
  refine besides_foldl _ (fun y b => ?_) _ x
  split
  · rfl
  · exact besides_advanceTail y b

/-- What the roles of the units rest on (00 R10, 03 R93, 04 R121): which unit is dropped, LVL_STATUS of both, a re-level. -/
def roles (s : State) : (Bool × Word) × (Bool × Word) × Option Relevel :=
  ((s.u0.dropped, s.u0.lvl.status), (s.u1.dropped, s.u1.lvl.status), s.hub.relevel)

theorem roles_eq_iff {s t : State} : roles s = roles t ↔
    (s.u0.dropped = t.u0.dropped ∧ s.u0.lvl.status = t.u0.lvl.status) ∧
    (s.u1.dropped = t.u1.dropped ∧ s.u1.lvl.status = t.u1.lvl.status) ∧ s.hub.relevel = t.hub.relevel := by
  simp [roles]

theorem relevel_of_roles {s t : State} (h : roles s = roles t) : s.hub.relevel = t.hub.relevel := (roles_eq_iff.1 h).2.2

theorem foreUnit_of_roles {s t : State} (h : roles s = roles t) : foreUnit s = foreUnit t := by
  obtain ⟨⟨hd0, hs0⟩, ⟨hd1, -⟩, -⟩ := roles_eq_iff.1 h
  simp only [foreUnit, lvlRole, hd0, hd1, hs0]

theorem isFore_of_roles {s t : State} (h : roles s = roles t) (u : UnitId) : isFore s u = isFore t u := by
  simp only [isFore, foreUnit_of_roles h]

theorem lvlState_fore_of_roles {s t : State} (h : roles s = roles t) : lvlState (foreState s) = lvlState (foreState t) := by
  obtain ⟨⟨-, hs0⟩, ⟨-, hs1⟩, -⟩ := roles_eq_iff.1 h
  rw [foreState, foreState, foreUnit_of_roles h]
  cases foreUnit t with
  | u0 => simp only [getUnit, lvlState, hs0]
  | u1 => simp only [getUnit, lvlState, hs1]

theorem isLevelled_of_roles {s t : State} (h : roles s = roles t) : isLevelled s = isLevelled t := by
  obtain ⟨⟨hd0, -⟩, ⟨hd1, -⟩, hr⟩ := roles_eq_iff.1 h
  simp only [isLevelled, relevelPhase, lvlState_fore_of_roles h, hd0, hd1, hr]

theorem backUnit_of_roles {s t : State} (h : roles s = roles t) : backUnit s = backUnit t := by
  simp only [backUnit, isLevelled_of_roles h, foreUnit_of_roles h, relevel_of_roles h]

/-- A change of a unit that leaves its standing and its LVL_STATUS leaves the roles. -/
theorem roles_modUnit {s : State} {u : UnitId} {f : UnitState → UnitState} (hd : (f (getUnit s u)).dropped = (getUnit s u).dropped)
    (hl : (f (getUnit s u)).lvl = (getUnit s u).lvl) : roles (modUnit s u f) = roles s := by
  cases u <;> simp_all [roles, getUnit]

/-- So does one that leaves what stands besides. -/
theorem roles_modUnit_besides {s : State} {u : UnitId} {f : UnitState → UnitState} (hf : ∀ x, besides (f x) = besides x) :
    roles (modUnit s u f) = roles s :=
  roles_modUnit (dropped_of_besides (hf _)) (lvl_of_besides (hf _))

/-- In level with no re-level, the Foresight is not the Backsight. -/
theorem backUnit_ne_fore {s : State} {u : UnitId} (hf : isFore s u = true) (hr : s.hub.relevel = none) : backUnit s ≠ some u := by
  have hu : foreUnit s = u := of_decide_eq_true hf
  simp only [backUnit, hr, hu]
  cases u <;> split <;> simp [UnitId.other]

/-- Step 1 of 02 R33 leaves the unit's own state but for its signatures. -/
theorem getUnit_sealChain (s : State) (u : UnitId) : getUnit (sealChain s u) u = shiftSigs (getUnit s u) := by
  simp only [sealChain]
  split
  · simp
  · cases u <;> rfl

theorem sealChain_bin (s : State) (u : UnitId) : (sealChain s u).bin = s.bin := by
  simp only [sealChain]
  split
  · simp
  · cases u <;> rfl

theorem roles_sealChain (s : State) (u : UnitId) : roles (sealChain s u) = roles s := by
  have hm : roles (modUnit s u shiftSigs) = roles s := roles_modUnit_besides besides_shiftSigs
  rw [← hm]
  simp only [sealChain]
  split
  · rfl
  · cases u <;> rfl

/-- The die counts of a new chain are no unit's state (02 R35). -/
theorem getUnit_newDieChain (s : State) (u : UnitId) : getUnit (newDieChain s) u = getUnit s u := by cases u <;> rfl
theorem newDieChain_bin (s : State) : (newDieChain s).bin = s.bin := rfl
theorem roles_newDieChain (s : State) : roles (newDieChain s) = roles s := rfl

/-- With no output held, the end of back-pressure emits nothing (02 R36). -/
theorem flushHeld_none {s : State} {u : UnitId} (h : (getUnit s u).trv.outHeld = []) : flushHeld s u = s := by
  have hx : { getUnit s u with trv := { (getUnit s u).trv with outHeld := [] } } = getUnit s u := by rw [← h]
  simp only [flushHeld, h, List.filter_nil, List.foldl_nil, modUnit, hx, Laws.setUnit_getUnit]

/-- A unit has come from `s` to its next boundary (02 R31): UB is the next boundary's, UCC is UB, CN has counted; its input queue and
the roles are those of `s`. -/
structure Entered (s t : State) (u : UnitId) : Prop where
  ub : (getUnit t u).ub = nextUb s (getUnit s u)
  ucc : (getUnit t u).ucc = (getUnit t u).ub
  cn : (getUnit t u).cn = (getUnit s u).cn + 1
  feed : (getUnit t u).feed = (getUnit s u).feed
  roles : roles t = roles s

/-- Work that leaves what stands besides, and the roles, leaves the boundary reached. -/
theorem Entered.of_besides {s t t' : State} {u : UnitId} (h : Entered s t u) (hb : besides (getUnit t' u) = besides (getUnit t u))
    (hr : Edge.roles t' = Edge.roles t) : Entered s t' u where
  ub := (ub_of_besides hb).trans h.ub
  ucc := (ucc_of_besides hb).trans (h.ucc.trans (ub_of_besides hb).symm)
  cn := (cn_of_besides hb).trans h.cn
  feed := (feed_of_besides hb).trans h.feed
  roles := hr.trans h.roles

/-- Work in the unit alone. -/
theorem Entered.modUnit {s t : State} {u : UnitId} (h : Entered s t u) {f : UnitState → UnitState}
    (hf : ∀ x, besides (f x) = besides x) : Entered s (modUnit t u f) u :=
  h.of_besides (by rw [Laws.getUnit_modUnit, hf]) (roles_modUnit_besides hf)

/-- The entry into the new chain (02 R31), with no output held. -/
theorem enterChain_entered {s : State} {u : UnitId} (ho : (getUnit s u).trv.outHeld = []) : Entered s (enterChain s u) u := by
  simp only [enterChain]
  rw [flushHeld_none (by rw [Laws.getUnit_modUnit]; exact ho)]
  refine ⟨?_, ?_, ?_, ?_, roles_modUnit rfl rfl⟩ <;> rw [Laws.getUnit_modUnit] <;> rfl

/-- What the hub and the dies note of an edge (04 R105, R107) changes no unit and no re-level. -/
theorem hubEdge_leaves (s : State) (u : UnitId) :
    (hubEdge s u).u0 = s.u0 ∧ (hubEdge s u).u1 = s.u1 ∧ (hubEdge s u).hub.relevel = s.hub.relevel := by
  unfold hubEdge
  extract_lets x ubs lo h s1 k due one
  have h1 : s1.u0 = s.u0 ∧ s1.u1 = s.u1 ∧ s1.hub.relevel = s.hub.relevel := by
    by_cases hf : isFore s u = true <;> simp [s1, h, hf]
  clear_value s1
  split
  · exact h1
  · exact h1

theorem getUnit_hubEdge (s : State) (u : UnitId) : getUnit (hubEdge s u) u = getUnit s u := by
  obtain ⟨h0, h1, -⟩ := hubEdge_leaves s u
  cases u
  · exact h0
  · exact h1

theorem roles_hubEdge (s : State) (u : UnitId) : roles (hubEdge s u) = roles s := by
  obtain ⟨h0, h1, hr⟩ := hubEdge_leaves s u
  simp only [roles, h0, h1, hr]

/-- With no record waiting, none is due (02 R33 step 6). -/
theorem applyDue_none {s : State} {u : UnitId} (h : (getUnit s u).feed = []) : applyDue u (getUnit s u).feed.length s = s := by
  rw [h]
  rfl

/-- The dirty maps switch only at a boundary that 2^15 divides (04 R119). -/
theorem switchMaps_between (a b : DirtyMap) {n : Nat} (h : n % 32768 ≠ 0) : switchMaps a b n = (a, b, false) := by
  have h0 : n % 65536 ≠ 0 := by omega
  have h1 : n % 65536 ≠ 32768 := by omega
  simp [switchMaps, h0, h1]

theorem mapEdge_between {s : State} {u : UnitId} (h : (getUnit s u).cn % 32768 ≠ 0) : mapEdge s u = s := by
  simp only [mapEdge, switchMaps_between _ _ h]
  split
  · rfl
  · exact Laws.setUnit_getUnit s u

/-- The work of a Foresight's edge in level (02 R33). The steps of the module fall at the Backsight's edge, so what is left are the
steps of the unit, and only one of them moves the boundary. -/
theorem unitEdgeStep_entered {s : State} {u : UnitId} (hf : isFore s u = true) (hb : (backUnit s).isSome = true)
    (hfeed : (getUnit s u).feed = []) (ho : (getUnit s u).trv.outHeld = []) (hcn : ((getUnit s u).cn + 1) % 32768 ≠ 0)
    (hr : s.hub.relevel = none) : Entered s (unitEdgeStep s u) u := by
  unfold unitEdgeStep
  extract_lets sealed fresh entered opened last released collected applied latched mapped
  have hsealed : roles sealed = roles s := roles_sealChain s u
  have hfresh : fresh = newDieChain sealed := if_pos (by rw [isFore_of_roles hsealed, hf])
  have hunit : getUnit fresh u = shiftSigs (getUnit s u) := by rw [hfresh, getUnit_newDieChain, getUnit_sealChain]
  have hroles : roles fresh = roles s := by rw [hfresh, roles_newDieChain, hsealed]
  have hbin : fresh.bin = s.bin := by rw [hfresh, newDieChain_bin, sealChain_bin]
  clear_value fresh
  have henter : Entered s (enterChain fresh u) u := by
    obtain ⟨hub, hucc, hcn, hfd, hro⟩ := enterChain_entered (s := fresh) (u := u) (by rw [hunit]; exact ho)
    rw [hunit] at hub hcn hfd
    exact ⟨by rw [hub, nextUb, hbin]; rfl, hucc, hcn, hfd, hro.trans hroles⟩
  have hentered : Entered s entered u := henter.of_besides (by rw [getUnit_hubEdge]) (roles_hubEdge _ u)
  have hopened : Entered s opened u := hentered.modUnit besides_openSlots
  clear_value entered opened
  have hlast : last = false := by
    have hback : backUnit opened = backUnit s := backUnit_of_roles hopened.roles
    obtain ⟨b, hbu⟩ := Option.isSome_iff_exists.1 hb
    have hne : b ≠ u := fun e => backUnit_ne_fore hf hr (e ▸ hbu)
    simp [last, hback, hbu, hne]
  have hcollected : collected = opened := by simp [collected, released, hlast]
  have happlied : applied = opened := by
    simp only [applied, hcollected]
    exact applyDue_none (hopened.feed.trans hfeed)
  have hlatched : Entered s latched u := by
    have h : Entered s applied u := by rwa [happlied]
    exact h.modUnit (fun x => by rw [besides_advanceTails, besides_applyRws])
  have hmapped : Entered s mapped u := by
    rwa [show mapped = latched from mapEdge_between (by rw [hlatched.cn]; exact hcn)]
  clear_value mapped
  rw [if_pos (by rw [isFore_of_roles hmapped.roles, hf])]
  exact hmapped.of_besides (by cases u <;> rfl) rfl

/-- Without a re-level no freeze begins at an edge (04 R122). -/
theorem freezeEdge_none {s : State} {u : UnitId} (h : s.hub.relevel = none) : freezeEdge s u = s := by
  simp only [freezeEdge, h]

/-- Settles O36: the edge's work is `unitEdgeStep`, after which the unit stands at its next boundary. -/
theorem unitEdgeAdvancesTheBoundary : Obligations.UnitEdgeAdvancesTheBoundary := by
  unfold Obligations.UnitEdgeAdvancesTheBoundary
  intro s u hdue hf hb hfeed ho hcn hr
  have h : Entered s (unitEdgeStep s u) u := unitEdgeStep_entered hf hb hfeed ho hcn hr
  have hrelevel : (unitEdgeStep s u).hub.relevel = none := (relevel_of_roles h.roles).trans hr
  refine ⟨unitEdgeStep s u, ?_, h.ub, h.ucc, h.cn⟩
  rw [Laws.exec_unitEdge, execUnitEdge, if_pos hdue, freezeEdge_none hrelevel]

end Sys2Proof.Proofs.Edge
end

section
/-! What the service die stakes (O38): the units that a record is put on the way to, and the STAMP that it bears. -/
namespace Sys2Proof.Proofs.Issue

open Sys2Proof.Machine Sys2Proof.Claims

theorem isOff_of_roles {s t : State} (h : Edge.roles s = Edge.roles t) : isOff s = isOff t := by
  rw [isOff, isOff, Edge.lvlState_fore_of_roles h]

theorem dropped_of_roles {s t : State} (h : Edge.roles s = Edge.roles t) (u : UnitId) :
    (getUnit s u).dropped = (getUnit t u).dropped := by
  obtain ⟨⟨h0, -⟩, ⟨h1, -⟩, -⟩ := Edge.roles_eq_iff.1 h
  cases u
  · exact h0
  · exact h1

/-- Which units are fed rests on their roles (04 R112). -/
theorem isFed_of_roles {s t : State} (h : Edge.roles s = Edge.roles t) (u : UnitId) : isFed s u = isFed t u := by
  rw [isFed, isFed, dropped_of_roles h, isOff_of_roles h, Edge.foreUnit_of_roles h, Edge.backUnit_of_roles h]

/-- A record is meant for a unit that is fed: not the active one where it is for the Backsight alone (03 R81). -/
def reaches (s : State) (k : Stake) (u : UnitId) : Bool := isFed s u && !(k.bkOnly && decide (u = foreUnit s))

theorem reaches_of_roles {s t : State} (h : Edge.roles s = Edge.roles t) (k : Stake) (u : UnitId) : reaches s k u = reaches t k u := by
  rw [reaches, reaches, isFed_of_roles h, Edge.foreUnit_of_roles h]

/-- A record put last in a unit's queue, where it is meant for the unit. -/
def putFeed (s : State) (k : Stake) (u : UnitId) : State :=
  if reaches s k u then modUnit s u (fun x => { x with feed := x.feed ++ [k] }) else s

theorem feedUnits_eq (s : State) (k : Stake) : feedUnits s k = putFeed (putFeed s k .u0) k .u1 := rfl

@[simp] theorem roles_putFeed (s : State) (k : Stake) (u : UnitId) : Edge.roles (putFeed s k u) = Edge.roles s := by
  unfold putFeed
  split
  · exact Edge.roles_modUnit rfl rfl
  · rfl

theorem getUnit_putFeed (s : State) (k : Stake) (u : UnitId) : getUnit (putFeed s k u) u =
    if reaches s k u then { getUnit s u with feed := (getUnit s u).feed ++ [k] } else getUnit s u := by
  unfold putFeed
  split
  · exact Laws.getUnit_modUnit s u _
  · rfl

theorem getUnit_putFeed_ne (s : State) (k : Stake) {u v : UnitId} (h : u ≠ v) : getUnit (putFeed s k u) v = getUnit s v := by
  unfold putFeed
  split
  · exact Laws.getUnit_modUnit_ne s _ h
  · rfl

@[simp] theorem putFeed_sahya (s : State) (k : Stake) (u : UnitId) : (putFeed s k u).sahya = s.sahya := by
  unfold putFeed
  split <;> simp

@[simp] theorem feedUnits_sahya (s : State) (k : Stake) : (feedUnits s k).sahya = s.sahya := by simp [feedUnits_eq]

/-- A record on its way changes each unit's queue alone: it stands last in those that it is meant for. -/
theorem getUnit_feedUnits (s : State) (k : Stake) (u : UnitId) : getUnit (feedUnits s k) u =
    if reaches s k u then { getUnit s u with feed := (getUnit s u).feed ++ [k] } else getUnit s u := by
  rw [feedUnits_eq]
  cases u with
  | u0 => rw [getUnit_putFeed_ne _ _ (by decide), getUnit_putFeed]
  | u1 => rw [getUnit_putFeed, getUnit_putFeed_ne _ _ (by decide), reaches_of_roles (roles_putFeed s k .u0)]

/-- Outside a re-level, late edges and a re-lock a record bears the STAMP that its distance gives (03 R60). -/
theorem orderStamp_plain {s : State} {b : StakeBody} (ho : stakeOpen s b) (last dist : Nat) :
    orderStamp s last (plainStamp s dist) = (foreState s).ucc + dist := by
  obtain ⟨-, -, -, -, -, hrel, hlate, hlock⟩ := ho
  simp [orderStamp, plainStamp, hrel, hlate, hlock]

/-- Firmware issues at once what it may issue. -/
theorem issueFw_open {s : State} {b : StakeBody} (ho : stakeOpen s b) (hf : firmwareUp s) :
    issueFw s none b = stakeSvcNow s (plainStamp s 1024) false b := by
  obtain ⟨hck, hlk, hoff, hroom, hheld, -, -, -⟩ := ho
  obtain ⟨hrun, hdown⟩ := hf
  simp [issueFw, issueSvc, hrun, hdown, hck, hlk, hoff, hroom, hheld]

/-- The record that the service die makes of a body (03 R64). -/
def svcRecord (s : State) (stamp : Nat) (bk : Bool) (b : StakeBody) : Stake :=
  { source := 0, stamp := if bk then stamp else orderStamp s s.sahya.lastStamp stamp, seq := s.sahya.seq, bkOnly := bk, body := b }

/-- The service die has numbered a record, and keeps it in its line while a Backsight runs (03 R67, R68). -/
def booked (s : State) (k : Stake) : State :=
  { s with sahya := { s.sahya with
    seq := (s.sahya.seq + 1) % 2 ^ 32, lastStamp := k.stamp
    line := if (backUnit s).isSome then s.sahya.line ++ [k] else s.sahya.line } }

theorem stakeSvcNow_eq (s : State) (stamp : Nat) (bk : Bool) (b : StakeBody) :
    stakeSvcNow s stamp bk b = feedUnits (booked s (svcRecord s stamp bk b)) (svcRecord s stamp bk b) := rfl

@[simp] theorem getUnit_booked (s : State) (k : Stake) (u : UnitId) : getUnit (booked s k) u = getUnit s u := rfl
@[simp] theorem reaches_booked (s : State) (k m : Stake) (u : UnitId) : reaches (booked s k) m u = reaches s m u :=
  reaches_of_roles rfl m u

theorem getUnit_stakeSvcNow (s : State) (stamp : Nat) (bk : Bool) (b : StakeBody) (u : UnitId) :
    getUnit (stakeSvcNow s stamp bk b) u = if reaches s (svcRecord s stamp bk b) u then
      { getUnit s u with feed := (getUnit s u).feed ++ [svcRecord s stamp bk b] } else getUnit s u := by
  rw [stakeSvcNow_eq, getUnit_feedUnits, reaches_booked, getUnit_booked]

/-- A record for all units reaches those that are fed. -/
theorem reaches_all {s : State} {k : Stake} (h : k.bkOnly = false) (u : UnitId) : reaches s k u = isFed s u := by
  simp [reaches, h]

/-- What firmware stakes is staked 1,024 cycles ahead, and Sahya's time of day and alarm are as they were. -/
theorem issueFw_stakes {s : State} {b : StakeBody} (ho : stakeOpen s b) (hf : firmwareUp s) :
    svcStaked s (issueFw s none b) b ∧ (issueFw s none b).sahya.tod = s.sahya.tod ∧ (issueFw s none b).sahya.alarm = s.sahya.alarm := by
  have hrec : svcRecord s (plainStamp s 1024) false b =
      { source := 0, stamp := (foreState s).ucc + 1024, seq := s.sahya.seq, bkOnly := false, body := b } := by
    simp only [svcRecord, orderStamp_plain ho, Bool.false_eq_true, if_false]
  have hsahya : (issueFw s none b).sahya = (booked s (svcRecord s (plainStamp s 1024) false b)).sahya := by
    rw [issueFw_open ho hf, stakeSvcNow_eq, feedUnits_sahya]
  rw [hrec] at hsahya
  refine ⟨⟨fun u => ?_, by rw [hsahya]; rfl, by rw [hsahya]; rfl⟩, by rw [hsahya]; rfl, by rw [hsahya]; rfl⟩
  rw [issueFw_open ho hf, getUnit_stakeSvcNow, hrec, reaches_all rfl]
  split <;> rfl

theorem isOff_of_stakeOpen {s : State} {b : StakeBody} (ho : stakeOpen s b) : isOff s = false := by
  obtain ⟨-, -, hoff, -⟩ := ho
  exact hoff

theorem execRwsRegisterWrite_fed {s : State} {r : RwsReg} {w : Word} (hw : rwsBad r w = false) (ho : isOff s = false) :
    execRwsRegisterWrite r w s = .next (issueFw s none (.rws r w)) := by
  simp [execRwsRegisterWrite, hw, ho]

/-- While no unit executes, a write of CHN_CFG pends in both (log 16). -/
theorem execRwsRegisterWrite_off {s : State} {w : Word} (hw : rwsBad .chnCfg w = false) (ho : isOff s = true) :
    execRwsRegisterWrite .chnCfg w s = .next (modBoth s (fun x => chnCfgPend x w)) := by
  simp only [execRwsRegisterWrite, hw, ho, Bool.false_eq_true, if_false, if_true]
  rfl

theorem getUnit_modBoth (s : State) (f : UnitState → UnitState) (u : UnitId) : getUnit (modBoth s f) u = f (getUnit s u) := by
  cases u <;> rfl

/-- An alarm whose time has come. -/
theorem execTodAlarm_due {s : State} {tod a : Word} (ha : s.sahya.alarm = some a) (h : a ≤ tod) :
    execTodAlarm tod s = .next (issueFw { s with sahya := { s.sahya with alarm := none, tod := tod } } none (.timer true a)) := by
  have hlt : ¬ tod < a := BitVec.not_lt.2 h
  simp [execTodAlarm, ha, hlt]

/-- A draw from the pool: its oldest word goes, and an empty pool is noted (03 R70). -/
theorem getUnit_entDraw (s : State) (u : UnitId) : getUnit (entDraw s u) u = { getUnit s u with lvl := { (getUnit s u).lvl with
    pool := (getUnit s u).lvl.pool.tail, underrun := (getUnit s u).lvl.underrun || (getUnit s u).lvl.pool.isEmpty } } := by
  simp only [entDraw]
  cases hp : (getUnit s u).lvl.pool with
  | nil =>
    rw [if_pos List.isEmpty_nil, Laws.getUnit_modUnit, hp, List.isEmpty_nil, Bool.or_true]
    rfl
  | cons w r =>
    have hdrawn : getUnit (modUnit s u (fun x => { x with lvl := { x.lvl with pool := x.lvl.pool.drop 1 } })) u =
        { getUnit s u with lvl := { (getUnit s u).lvl with pool := r } } := by
      rw [Laws.getUnit_modUnit, hp]
      rfl
    rw [if_neg (by simp), List.isEmpty_cons, Bool.or_false]
    split <;> exact hdrawn

/-- ENT_DATA_READ by a core that runs (03 R70). -/
theorem execEntDataRead_runs {s : State} {u : UnitId} {l : CoreId} {d : Reg} (he : (getUnit s u).executing = true)
    (hd : (getUnit s u).dropped = false) (hc : coreRuns (unitCore (getUnit s u) l) = true) :
    execEntDataRead u l d s = .next (modUnit (entDraw s u) u (fun x =>
      let c := wrD (unitCore (getUnit (entDraw s u) u) l) d ((getUnit s u).lvl.pool.headD 0)
      foldCoreWrites (setUnitCore x l c) l [dItem c d])) := by
  simp [execEntDataRead, he, hd, hc]

/-- Settles O38: what is staked by `issueFw_stakes`, the entropy read by `getUnit_entDraw`. -/
theorem stakesOfTheServiceDie : Obligations.StakesOfTheServiceDie := by
  unfold Obligations.StakesOfTheServiceDie
  refine ⟨?rws, ?rwsOff, ?rwsReserved, ?todChange, ?todUpdate, ?todBetween, ?alarmSet, ?alarm, ?alarmAhead, ?entropy⟩
  case rws =>
    intro s r w hw ho hf
    exact ⟨_, execRwsRegisterWrite_fed hw (isOff_of_stakeOpen ho), (issueFw_stakes ho hf).1⟩
  case rwsOff =>
    intro s w hw ho
    refine ⟨_, execRwsRegisterWrite_off hw ho, fun u => ?_⟩
    rw [getUnit_modBoth]
    exact ⟨rfl, by rw [chnCfgPend, Generator.bitOf_withBit _ (by decide), if_pos rfl]⟩
  case rwsReserved =>
    intro s r w hw
    simp [execRwsRegisterWrite, hw]
  case todChange =>
    intro s tod ho hf
    obtain ⟨hst, htod, -⟩ := issueFw_stakes (s := { s with sahya := { s.sahya with tod := tod } }) ho hf
    exact ⟨_, rfl, hst, htod⟩
  case todUpdate =>
    intro s tod ho hf hn
    obtain ⟨hst, htod, -⟩ := issueFw_stakes (s := { s with sahya := { s.sahya with tod := tod } }) ho hf
    refine ⟨_, ?_, hst, htod⟩
    simp [execTodUpdate, (isOff_of_stakeOpen ho), hn]
  case todBetween =>
    intro s tod hn
    simp [execTodUpdate, hn]
  case alarmSet => exact fun s tod => rfl
  case alarm =>
    intro s tod a ha ho hf hle
    obtain ⟨hst, -, halarm⟩ := issueFw_stakes (s := { s with sahya := { s.sahya with alarm := none, tod := tod } }) ho hf
    exact ⟨_, execTodAlarm_due ha hle, hst, halarm⟩
  case alarmAhead =>
    intro s tod a ha hlt
    simp [execTodAlarm, ha, hlt]
  case entropy =>
    intro s u l d he hd hc
    refine ⟨_, execEntDataRead_runs he hd hc, ?_⟩
    rw [Laws.getUnit_modUnit, getUnit_entDraw]
    exact ⟨Laws.unitCore_setUnitCore _ _ _, rfl, rfl⟩

end Sys2Proof.Proofs.Issue
end

section
/-! What the service die, the dies and the fault collector leave of the units: the work of the mailboxes, the stakes and the releases
changes no more of a unit than its input queue, its mailbox views and its closure registers, and none of it moves a UCC. -/
namespace Sys2Proof.Proofs.Service

open Sys2Proof.Machine

/-- A unit without its input queue, its mailbox views and its closure registers. -/
def rest (x : UnitState) : UnitState := { x with feed := [], views := [], clo := {} }

/-- Both units so. -/
def rests (s : State) : UnitState × UnitState := (rest s.u0, rest s.u1)

theorem rest_getUnit {s t : State} (h : rests s = rests t) (u : UnitId) : rest (getUnit s u) = rest (getUnit t u) := by
  cases u
  · exact congrArg Prod.fst h
  · exact congrArg Prod.snd h

/-- Units that agree so differ in those three parts alone. -/
theorem eq_of_rest {x y : UnitState} (h : rest x = rest y) : x = { y with feed := x.feed, views := x.views, clo := x.clo } := by
  cases x
  cases y
  simp only [rest, UnitState.mk.injEq] at h
  simp [h]

theorem rests_modUnit {s : State} {u : UnitId} {f : UnitState → UnitState} (hf : ∀ x, rest (f x) = rest x) :
    rests (modUnit s u f) = rests s := by
  cases u <;> simp [rests, hf]

theorem rests_modBoth {s : State} {f : UnitState → UnitState} (hf : ∀ x, rest (f x) = rest x) : rests (modBoth s f) = rests s :=
  (rests_modUnit hf).trans (rests_modUnit hf)

/-- Work done item by item leaves what each item leaves. -/
theorem rests_foldl {A : Type} (f : State → A → State) (hf : ∀ t a, rests (f t a) = rests t) (l : List A) (s : State) :
    rests (l.foldl f s) = rests s :=
  List.foldlRecOn (motive := fun t => rests t = rests s) l f rfl (fun t ht a _ => (hf t a).trans ht)

@[simp] theorem rest_applyHostView (x : UnitState) (n : Fin 64) (sd : Side) (notice : Bool) (ws : List Word) :
    rest (applyHostView x n sd notice ws) = rest x := rfl

@[simp] theorem rest_applyHubCfg (x : UnitState) (e : CfgEffect) : rest (applyHubCfg x e) = rest x := by cases e <;> rfl

@[simp] theorem rests_putFeed (s : State) (k : Stake) (u : UnitId) : rests (Issue.putFeed s k u) = rests s := by
  unfold Issue.putFeed
  split
  · exact rests_modUnit fun _ => rfl
  · rfl

@[simp] theorem rests_feedUnits (s : State) (k : Stake) : rests (feedUnits s k) = rests s := by simp [Issue.feedUnits_eq]

@[simp] theorem rests_stakeSvcNow (s : State) (n : Nat) (bk : Bool) (b : StakeBody) : rests (stakeSvcNow s n bk b) = rests s :=
  rests_feedUnits _ _

@[simp] theorem rests_issueSvc (s : State) (o : Option Nat) (b : StakeBody) : rests (issueSvc s o b) = rests s := by
  unfold issueSvc
  split
  · rfl
  · split
    · simp
    · rfl

@[simp] theorem rests_issueFw (s : State) (o : Option Nat) (b : StakeBody) : rests (issueFw s o b) = rests s := by
  unfold issueFw
  split <;> simp

@[simp] theorem rests_drainHeldIn (n : Nat) (s : State) : rests (drainHeldIn n s) = rests s := by
  induction n generalizing s with
  | zero => rfl
  | succ n ih =>
    unfold drainHeldIn
    split
    · rfl
    · split
      · exact (ih _).trans (rests_stakeSvcNow _ _ _ _)
      · rfl

@[simp] theorem rests_hubCfg (s : State) (e : CfgEffect) : rests (hubCfg s e) = rests s := by
  unfold hubCfg
  split
  · exact rests_modBoth fun x => rest_applyHubCfg x e
  · simp

-- the mailboxes
@[simp] theorem rests_setMbx (s : State) (n : Fin 64) (m : MbxChan) : rests (setMbx s n m) = rests s := rfl
@[simp] theorem rests_setReplies (s : State) (n : Nat) (l : List (List Word)) : rests (setReplies s n l) = rests s := rfl
@[simp] theorem rests_setBatch (s : State) (n : Nat) (l : List (List Word)) : rests (setBatch s n l) = rests s := rfl

@[simp] theorem rests_hostTo (s : State) (n : Fin 64) (sd : Side) (notice : Bool) (ws : List Word) :
    rests (hostTo s n sd notice ws) = rests s := by
  unfold hostTo
  split
  · rfl
  · split
    · exact rests_modBoth fun x => rest_applyHostView x n sd notice ws
    · simp

@[simp] theorem rests_noticeSide (m : MbxChan) (n : Fin 64) (sd : Side) (s : State) : rests (noticeSide m n sd s) = rests s := by
  unfold noticeSide
  split <;> simp

@[simp] theorem rests_noticeBoth (m : MbxChan) (n : Fin 64) (s : State) : rests (noticeBoth m n s) = rests s := by
  simp [noticeBoth]

@[simp] theorem rests_deliverMsg (s : State) (n : Fin 64) (sd : Side) (ws : List Word) : rests (deliverMsg s n sd ws) = rests s := by
  simp [deliverMsg]

@[simp] theorem rests_pumpReply (s : State) (n : Fin 64) : rests (pumpReply s n) = rests s := by
  simp only [pumpReply]
  split
  · split <;> simp
  · rfl

@[simp] theorem rests_queueReplies (s : State) (n : Fin 64) (l : List (List Word)) : rests (queueReplies s n l) = rests s := by
  simp [queueReplies]

@[simp] theorem rests_postReply (s : State) (h : CmdHdr) (g v code i : Nat) (ws : List Word) :
    rests (postReply s h g v code i ws) = rests s := by
  unfold postReply
  split <;> simp

@[simp] theorem rests_postEvent (s : State) (g code : Nat) (ws : List Word) : rests (postEvent s g code ws) = rests s := by
  unfold postEvent
  split
  · rfl
  · split
    · simp
    · rfl

@[simp] theorem rests_acceptBatch (s : State) (n : Fin 64) (sd : Side) (l : List (List Word)) : rests (acceptBatch s n sd l) = rests s := by
  simp only [acceptBatch]
  split
  · simp
  · split
    · simp
    · rfl

@[simp] theorem rests_sahyaFrame (s : State) (n : Fin 64) (sd : Side) (ws : List Word) : rests (sahyaFrame s n sd ws) = rests s := by
  simp only [sahyaFrame]
  split
  · split
    · simp
    · rfl
  · split
    · simp
    · split
      · split <;> simp
      · simp

@[simp] theorem rests_sahyaPoll (s : State) (n : Fin 64) : rests (sahyaPoll s n) = rests s := by
  simp only [sahyaPoll]
  split
  · rfl
  · split <;> simp

@[simp] theorem rests_mbxAccess (s : State) (n : Fin 64) (mid : Nat) (f : MbxChan → Side → MbxChan) :
    rests (mbxAccess s n mid f) = rests s := by
  simp only [mbxAccess]
  split
  · rfl
  · split <;> simp

@[simp] theorem rests_mbxWrite (s : State) (n : Fin 64) (mid off : Nat) (w : Word) : rests (mbxWrite s n mid off w) = rests s := by
  unfold mbxWrite
  split
  · split <;> simp
  · split
    · simp
    · split
      · simp
      · split <;> simp

-- the releases
@[simp] theorem rests_modDie (s : State) (d : DieId) (f : DieState → DieState) : rests (modDie s d f) = rests s := rfl

@[simp] theorem rests_hubRelease (s : State) (u : UnitId) (n : Nat) : rests (hubRelease s u n) = rests s := by
  refine (rests_foldl _ (fun t e => ?_) _ _).trans rfl
  split <;> simp

@[simp] theorem rests_laneSend (s : State) (p : Nat) (bs : List Byte) : rests (laneSend s p bs) = rests s := rfl
@[simp] theorem rests_setPort (s : State) (p : Nat) (x : DiePort) : rests (setPort s p x) = rests s := rfl

@[simp] theorem rests_drainTx (n : Nat) (s : State) (p : Nat) : rests (drainTx n s p) = rests s := by
  induction n generalizing s with
  | zero => rfl
  | succ n ih =>
    simp only [drainTx]
    split
    · rfl
    · repeat' split
      all_goals simp [ih]

@[simp] theorem rests_portSend (s : State) (p : Nat) (bs : List Byte) : rests (portSend s p bs) = rests s := by
  simp only [portSend]
  split <;> simp

@[simp] theorem rests_drainWaitOut (n : Nat) (s : State) (d : DieId) : rests (drainWaitOut n s d) = rests s := by
  induction n generalizing s with
  | zero => rfl
  | succ n ih =>
    simp only [drainWaitOut]
    split
    · rfl
    · split
      · simp [ih]
      · split <;> simp [ih]

@[simp] theorem rests_dieRelease (s : State) (d : DieId) (u : UnitId) (n : Nat) : rests (dieRelease s d u n) = rests s := by
  simp [dieRelease, dieReleaseEntries]

/-- The release of one die's chains in simplex (04 R113). -/
def dieSimplexRelease (u : UnitId) (hi : Nat) (s : State) (d : DieId) : State :=
  if (dieOf s d).lanesDown || (dieOf s d).stopped then
    modDie s d (fun x => { x with side0 := dropChains x.side0 (hi - 1), side1 := dropChains x.side1 (hi - 1) })
  else
    let s := (chainsBelow (dieSide (dieOf s d) u) hi).foldl (fun s n => dieRelease s d u n) s
    if hi = 0 then s else modDie s d (fun x => { x with released := some (hi - 1) })

@[simp] theorem rests_dieSimplexRelease (u : UnitId) (hi : Nat) (s : State) (d : DieId) : rests (dieSimplexRelease u hi s d) = rests s := by
  have hfold (l : List Nat) : rests (l.foldl (fun s n => dieRelease s d u n) s) = rests s := rests_foldl _ (by simp) l s
  simp only [dieSimplexRelease]
  split
  · rfl
  · split
    · exact hfold _
    · exact hfold _

@[simp] theorem rests_simplexRelease (s : State) : rests (simplexRelease s) = rests s := by
  have hdies : ∀ (u : UnitId) (hi : Nat), rests (dieSimplexRelease u hi (dieSimplexRelease u hi (dieSimplexRelease u hi
      (dieSimplexRelease u hi s 0) 1) 2) 3) = rests s := by simp
  have hhub (u : UnitId) (l : List Nat) (t : State) : rests (l.foldl (fun s n => hubRelease s u n) t) = rests t :=
    rests_foldl _ (by simp) l t
  unfold simplexRelease
  extract_lets u hi one dies hub
  have h : rests hub = rests s := (hhub u _ dies).trans (hdies u hi)
  split
  · exact h
  · exact h

@[simp] theorem rests_discardSide (s : State) (u : UnitId) : rests (discardSide s u) = rests s := rfl
@[simp] theorem rests_discardAll (s : State) : rests (discardAll s) = rests s := rfl

@[simp] theorem rests_stopQueues (s : State) : rests (stopQueues s) = rests s := rfl

@[simp] theorem rests_emptyLines (s : State) : rests (emptyLines s) = rests s := (rests_drainHeldIn _ _).trans rfl

@[simp] theorem rests_relevelEvent (s : State) (r : Relevel) (code : Nat) (ws : List Word) :
    rests (relevelEvent s r code ws) = rests s := by
  unfold relevelEvent
  split
  · split
    · simp
    · split <;> simp
  · simp

-- the fault collector

@[simp] theorem rests_bbRecord (s : State) (ws : List Word) : rests (bbRecord s ws) = rests s := by
  unfold bbRecord
  split <;> rfl

@[simp] theorem rests_bbFreezeWith (s : State) (c : BitVec 3) : rests (bbFreezeWith s c) = rests s := by
  unfold bbFreezeWith
  split <;> rfl

@[simp] theorem rests_latchFirst (s : State) (src ucc cn : Nat) : rests (latchFirst s src ucc cn) = rests s := by
  unfold latchFirst
  split <;> rfl

@[simp] theorem rests_declareFailing (s : State) (l : Nat) : rests (declareFailing s l) = rests s := by
  unfold declareFailing
  split <;> rfl

@[simp] theorem rests_pumpFailing (s : State) : rests (pumpFailing s) = rests s := by
  simp only [pumpFailing]
  split
  · rfl
  · split
    · rfl
    · split
      · exact (rests_issueFw _ _ _).trans rfl
      · exact (rests_issueFw _ _ _).trans rfl

/-- The UCC of each unit. -/
def uccs (s : State) : Nat × Nat := (s.u0.ucc, s.u1.ucc)

theorem ucc_of_uccs {s t : State} (h : uccs s = uccs t) (u : UnitId) : (getUnit s u).ucc = (getUnit t u).ucc := by
  cases u
  · exact congrArg Prod.fst h
  · exact congrArg Prod.snd h

theorem uccs_of_rests {s t : State} (h : rests s = rests t) : uccs s = uccs t :=
  congrArg (fun p : UnitState × UnitState => (p.1.ucc, p.2.ucc)) h

theorem uccs_modUnit {s : State} {u : UnitId} {f : UnitState → UnitState} (hf : (f (getUnit s u)).ucc = (getUnit s u).ucc) :
    uccs (modUnit s u f) = uccs s := by
  cases u <;> simp_all [uccs, getUnit]

@[simp] theorem selfRefresh_ucc (x : UnitState) : (selfRefresh x).ucc = x.ucc := by
  refine Edge.ucc_of_besides (Edge.besides_foldl _ (fun y c => ?_) _ x)
  simp only
  split
  · exact Edge.besides_setMcReg _ _ _ _
  · rfl

@[simp] theorem haltUnit_ucc (x : UnitState) : (haltUnit x).ucc = x.ucc := selfRefresh_ucc x

theorem uccs_selfRefreshBoth (s : State) : uccs (modBoth s selfRefresh) = uccs s :=
  (uccs_modUnit (selfRefresh_ucc _)).trans (uccs_modUnit (selfRefresh_ucc _))

theorem uccs_moduleCheckstop (s : State) : uccs (moduleCheckstop s) = uccs s := by
  unfold moduleCheckstop
  split
  · rfl
  · extract_lets frozen gen stopped silenced bench ended
    have hfrozen : uccs frozen = uccs s := uccs_of_rests (rests_bbFreezeWith s 1)
    have hsilenced : uccs silenced = uccs stopped := uccs_of_rests ((rests_stopQueues _).trans (rests_discardAll stopped))
    have hended : uccs ended = uccs silenced := rfl
    rw [uccs_selfRefreshBoth, hended, hsilenced, ← hfrozen]
    rfl

/-- A choice between two states that leave the UCCs leaves them. -/
theorem uccs_ite {c : Prop} [Decidable c] {s a b : State} (ha : uccs a = uccs s) (hb : uccs b = uccs s) :
    uccs (if c then a else b) = uccs s := by
  split
  · exact ha
  · exact hb

/-- An event of a fault source moves no UCC where the drop of a unit moves none. -/
theorem uccs_raiseWith {drop : State → UnitId → State} (hd : ∀ t u, uccs (drop t u) = uccs t) (s : State) (src ucc : Nat)
    (info : Word) (inj : Bool) : uccs (raiseWith drop s src ucc info inj) = uccs s := by
  unfold raiseWith
  split
  · rfl
  · extract_lets cn attr o
    split
    extract_lets counted hub noted react recorded failing marked latched bench shown checked bench' stopped dropped reset told posted
    have hnoted : uccs noted = uccs s := by
      simp only [noted]
      split <;> rfl
    have hrecorded : uccs recorded = uccs s := uccs_ite ((uccs_of_rests (rests_bbRecord _ _)).trans hnoted) hnoted
    have hmarked : uccs marked = uccs s := by
      simp only [marked]
      split
      · exact ((uccs_of_rests (rests_declareFailing _ _)).trans (uccs_modUnit rfl)).trans hrecorded
      · exact hrecorded
    have hlatched : uccs latched = uccs s := uccs_ite ((uccs_of_rests (rests_latchFirst _ _ _ _)).trans hmarked) hmarked
    have hshown : uccs shown = uccs s := uccs_ite hlatched hlatched
    have hchecked : uccs checked = uccs s := (uccs_moduleCheckstop _).trans hshown
    have hstopped : uccs stopped = uccs s := uccs_ite (uccs_ite hchecked hchecked) hshown
    have hdropped : uccs dropped = uccs s := by
      simp only [dropped]
      split
      · exact uccs_ite ((hd _ _).trans hstopped) hstopped
      · exact hstopped
    have hreset : uccs reset = uccs s := by
      simp only [reset]
      split
      · exact uccs_ite ((uccs_of_rests (rests_issueSvc _ _ _)).trans hdropped) hdropped
      · exact hdropped
    have htold : uccs told = uccs s :=
      uccs_ite ((uccs_of_rests ((rests_issueFw _ _ _).trans (rests_postEvent _ _ _ _))).trans hreset) hreset
    have hposted : uccs posted = uccs s := uccs_ite ((uccs_of_rests (rests_postEvent _ _ _ _)).trans htold) htold
    exact uccs_ite ((uccs_of_rests (rests_pumpFailing _)).trans hmarked) ((uccs_of_rests (rests_pumpFailing _)).trans hposted)

theorem uccs_raisePlain (s : State) (src ucc : Nat) (info : Word) : uccs (raisePlain s src ucc info) = uccs s :=
  uccs_raiseWith (fun _ _ => rfl) s src ucc info false

theorem uccs_lastUnit (s : State) : uccs (lastUnit s) = uccs s := uccs_raisePlain _ _ _ _

theorem uccs_relevelAbort (s : State) (cause : Nat) : uccs (relevelAbort s cause) = uccs s := by
  unfold relevelAbort
  split
  · rfl
  · next r _ =>
    split
    · rfl
    · extract_lets halted hub resumed through hub' emptied released phased levelled raised
      have hhalted : uccs halted = uccs s := uccs_modUnit (haltUnit_ucc _)
      have hresumed : uccs resumed = uccs s := uccs_ite hhalted hhalted
      have hthrough : uccs through = uccs s := (uccs_modUnit rfl).trans hresumed
      clear_value through
      have hemptied : uccs emptied = uccs s := (uccs_of_rests (rests_emptyLines _)).trans hthrough
      have hreleased : uccs released = uccs s :=
        (uccs_of_rests ((rests_simplexRelease _).trans (rests_discardSide _ _))).trans hemptied
      have hlevelled : uccs levelled = uccs s := (uccs_of_rests ((rests_hubCfg _ _).trans (rests_hubCfg _ _))).trans hreleased
      have hraised : uccs raised = uccs s := (uccs_raisePlain _ _ _ _).trans hlevelled
      exact (uccs_of_rests (rests_relevelEvent _ _ _ _)).trans hraised

/-- The drop of a unit moves no UCC (04 R112 to R114). -/
theorem uccs_dropUnit (s : State) (u : UnitId) (cause : Nat) : uccs (dropUnit s u cause) = uccs s := by
  unfold dropUnit
  split
  · rfl
  · split
    · split
      · extract_lets raised hub counted aborted
        have hraised : uccs raised = uccs s := uccs_raisePlain _ _ _ _
        have hcounted : uccs counted = uccs s := uccs_ite hraised hraised
        have haborted : uccs aborted = uccs s := (uccs_relevelAbort _ _).trans hcounted
        exact (uccs_of_rests (rests_issueSvc _ _ _)).trans haborted
      · exact uccs_lastUnit s
    · split
      · extract_lets wasFore halted discarded hub late hub' cleared sahya auto keys emptied issued raised
        have hhalted : uccs halted = uccs s := uccs_modUnit (haltUnit_ucc _)
        have hdiscarded : uccs discarded = uccs s := (uccs_of_rests (rests_discardSide _ _)).trans hhalted
        clear_value discarded
        have hlate : uccs late = uccs s := uccs_ite hdiscarded hdiscarded
        clear_value late
        have hauto : uccs auto = uccs s := hlate
        clear_value auto
        have hemptied : uccs emptied = uccs s := uccs_ite hauto ((uccs_of_rests (rests_emptyLines _)).trans hauto)
        have hissued : uccs issued = uccs s := (uccs_of_rests (rests_issueSvc _ _ _)).trans hemptied
        have hraised : uccs raised = uccs s := (uccs_raisePlain _ _ _ _).trans hissued
        exact (uccs_of_rests (rests_simplexRelease _)).trans hraised
      · exact uccs_lastUnit s

/-- No event of a fault source moves a UCC (17 R490 to R493). -/
theorem uccs_raiseUnitFree (s : State) (u : UnitId) (off : Nat) : uccs (raiseUnitFree s u off) = uccs s :=
  uccs_raiseWith (fun t v => uccs_dropUnit t v 0x03) _ _ _ _ false

end Sys2Proof.Proofs.Service
end

section
/-! What the coherence fabric leaves of a unit: its work lies in the unit's memory, its cores and its signatures, so the unit besides
(02 R33) is as it was. A core taken out of its run moves no UCC. -/
namespace Sys2Proof.Proofs.Fabric

open Sys2Proof.Machine Sys2Proof.Proofs.Edge Sys2Proof.Proofs.Service

theorem besides_memory (x : UnitState) (m : MemState) : besides { x with mem := m } = besides x := rfl
@[simp] theorem besides_setUnitCore (x : UnitState) (l : Nat) (c : Core) : besides (setUnitCore x l c) = besides x := rfl
@[simp] theorem besides_setAg (x : UnitState) (a l : Nat) (st : AgSt) : besides (setAg x a l st) = besides x := rfl
@[simp] theorem besides_putBytes (x : UnitState) (a : Nat) (bs : List Byte) : besides (putBytes x a bs) = besides x := rfl

@[simp] theorem besides_setDir (x : UnitState) (l a : Nat) (e : DirEnt) : besides (setDir x l a e) = besides x := by
  simp only [setDir]
  split <;> rfl

@[simp] theorem besides_l3Fill (x : UnitState) (l : Nat) : besides (l3Fill x l) = besides x := by
  unfold l3Fill
  split
  · rfl
  · split <;> rfl

@[simp] theorem besides_l3Dirty (x : UnitState) (l : Nat) : besides (l3Dirty x l) = besides x := by
  unfold l3Dirty
  split <;> rfl

@[simp] theorem besides_takeDirty (x : UnitState) (l : Nat) : besides (takeDirty x l) = besides x := by
  simp only [takeDirty]
  split <;> simp

@[simp] theorem besides_dropCopies (x : UnitState) (l : Nat) (ps : List Nat) : besides (dropCopies x l ps) = besides x :=
  besides_foldl _ (fun y p => besides_setAg y p l .i) ps x

@[simp] theorem besides_recallEntry (x : UnitState) (l a : Nat) : besides (recallEntry x l a) = besides x := by simp [recallEntry]

@[simp] theorem besides_touchEntry (x : UnitState) (l : Nat) : besides (touchEntry x l) = besides x := by
  simp only [touchEntry]
  split <;> rfl

@[simp] theorem besides_cohOwn (x : UnitState) (a l : Nat) : besides (cohOwn x a l) = besides x := by
  simp only [cohOwn]
  split
  · rfl
  · rfl
  · split <;> simp

@[simp] theorem besides_writeThrough (x : UnitState) (a l : Nat) : besides (writeThrough x a l) = besides x := by
  unfold writeThrough
  split <;> simp

@[simp] theorem besides_storeEffects (x : UnitState) (l : Nat) (c e : Option Nat) : besides (storeEffects x l c e) = besides x := by
  simp only [storeEffects]
  split
  all_goals split <;> simp <;> rfl

@[simp] theorem besides_performStore (x : UnitState) (a addr : Nat) (bs : List Byte) (c e : Option Nat) :
    besides (performStore x a addr bs c e) = besides x := by
  simp [performStore]

@[simp] theorem besides_performWrl (x : UnitState) (a l : Nat) (bs : List Byte) : besides (performWrl x a l bs) = besides x := by
  simp only [performWrl, wrlLine, besides_storeEffects, besides_l3Dirty, besides_memory, besides_putBytes, besides_setDir,
    besides_dropCopies]

@[simp] theorem besides_wrtHome (x : UnitState) (a l : Nat) (c e : Option Nat) : besides (wrtHome x a l c e) = besides x := by
  simp only [wrtHome]
  split <;> simp

@[simp] theorem besides_fbCoreStore (x : UnitState) (l a : Nat) (bs : List Byte) : besides (fbCoreStore x l a bs) = besides x := by
  simp only [fbCoreStore, fbPut, besides_fbAccept]
  exact besides_wrtHome _ _ _ _ _

@[simp] theorem besides_releaseLines (x : UnitState) (p : Nat) (ls : List Nat) : besides (releaseLines x p ls) = besides x :=
  besides_foldl _ (fun y l => besides_setDir y l p _) ls x

@[simp] theorem besides_txAbort (x : UnitState) (l : Nat) (code : BitVec 8) : besides (txAbort x l code) = besides x := by
  unfold txAbort
  split <;> simp

@[simp] theorem besides_releasePin (x : UnitState) (p e l : Nat) : besides (releasePin x p e l) = besides x := by
  simp only [releasePin]
  split <;> simp

@[simp] theorem besides_clearRsv (x : UnitState) (l : Nat) : besides (clearRsv x l) = besides x := by simp [clearRsv]

@[simp] theorem besides_txResolve (x : UnitState) (l : Nat) (w : Bool) (c : Option Nat) (st : Option (Nat × Nat)) :
    besides (txResolve x l w c st).1 = besides x := by
  simp only [txResolve]
  split
  · rfl
  · split
    · rfl
    · split
      · exact besides_foldl _ (fun y (h : Nat × (Nat × Nat)) => besides_txAbort y h.1 1) _ x
      · rfl

@[simp] theorem besides_ensureWay (x : UnitState) (l a : Nat) : besides (ensureWay x l a).1 = besides x := by
  simp only [ensureWay]
  split
  · rfl
  · split
    · rfl
    · split
      · simp
      · split
        · rfl
        · split <;> simp

@[simp] theorem besides_coreTouch (x : UnitState) (l line : Nat) (w : Bool) (st : Option (Nat × Nat)) :
    besides (coreTouch x l line w st).1 = besides x := by
  have hresolved := besides_txResolve x line w (some l) st
  unfold coreTouch
  split
  · next y hy =>
    rw [hy] at hresolved
    have hway := besides_ensureWay y line (corePos y l)
    split
    · next z hz => rw [hz] at hway; exact hway.trans hresolved
    · next z hz => rw [hz] at hway; exact hway.trans hresolved
  · exact hresolved

@[simp] theorem besides_salvageAgent (x : UnitState) (a : Nat) : besides (salvageAgent x a) = besides x := by
  refine besides_foldl _ (fun y line => ?_) _ x
  simp only
  repeat' split
  all_goals simp

@[simp] theorem besides_killAgent (x : UnitState) (a : Nat) : besides (killAgent x a) = besides x := besides_salvageAgent x a

theorem uccs_setUnit {s : State} {u : UnitId} {x : UnitState} (h : besides x = besides (getUnit s u)) : uccs (setUnit s u x) = uccs s := by
  have hu : x.ucc = (getUnit s u).ucc := ucc_of_besides h
  cases u <;> simp_all [uccs, setUnit, getUnit]

/-- The oldest store of a core, performed or refused (15 R454), moves no UCC. -/
theorem uccs_drainHead {s t : State} {u : UnitId} {l : Nat} (h : drainHead s u l = some t) : uccs t = uccs s := by
  simp only [drainHead] at h
  split at h
  · exact congrArg uccs (Option.some.inj h).symm
  · split at h
    · rw [← Option.some.inj h, uccs_raiseUnitFree]
      exact uccs_setUnit rfl
    · split at h
      · rw [← Option.some.inj h]
        exact uccs_setUnit (besides_fbCoreStore _ _ _ _)
      · next e r _ _ _ =>
        have htouch := besides_coreTouch (getUnit s u) l (e.addr / 64) true none
        split at h
        · next x hx =>
          rw [hx] at htouch
          rw [← Option.some.inj h]
          exact uccs_setUnit ((besides_performStore _ _ _ _ _ _).trans htouch)
        · next y _ _ hy =>
          rw [hy] at htouch
          split at h
          · rw [← Option.some.inj h]
            exact uccs_setUnit htouch
          · cases h

theorem uccs_forceBuf (n : Nat) (s : State) (u : UnitId) (l : Nat) : uccs (forceBuf u l n s) = uccs s := by
  induction n generalizing s with
  | zero => rfl
  | succ n ih =>
    simp only [forceBuf]
    split
    · rfl
    · split
      · next t ht => exact (ih t).trans (uccs_drainHead ht)
      · exact (ih _).trans (uccs_setUnit (besides_performStore _ _ _ _ _ _))

/-- A core taken out of its run (09 R294) leaves each unit's UCC. -/
theorem uccs_haltCore (s : State) (u : UnitId) (l : Nat) : uccs (haltCore s u l) = uccs s :=
  (uccs_forceBuf 65 _ u l).trans (uccs_setUnit (by simp))

/-- The work that takes an agent out of service keeps the cores' registers. -/
@[simp] theorem salvageAgent_cores (x : UnitState) (a : Nat) : (salvageAgent x a).exe.cores = x.exe.cores := by
  refine List.foldlRecOn (motive := fun y : UnitState => y.exe.cores = x.exe.cores) _ _ rfl (fun y hy line _ => ?_)
  simp only
  repeat' split
  all_goals simp [hy]

@[simp] theorem killAgent_cores (x : UnitState) (a : Nat) : (killAgent x a).exe.cores = x.exe.cores := salvageAgent_cores x a

@[simp] theorem unitCore_killAgent (x : UnitState) (a l : Nat) : unitCore (killAgent x a) l = unitCore x l := by simp [unitCore]

end Sys2Proof.Proofs.Fabric
end

section
/-! Fields of a word, as bits and as numbers. -/
namespace Sys2Proof.Proofs.Fields

open Sys2Proof.Machine

/-- The bits of a word after a field of it is written. -/
theorem getLsbD_withBits {w : Nat} (x : BitVec w) (lo len v i : Nat) : (withBits x lo len v).getLsbD i =
    (decide (i < w) && if lo ≤ i ∧ i < lo + len then v.testBit (i - lo) else x.getLsbD i) := by
  simp only [withBits, BitVec.getLsbD_or, BitVec.getLsbD_and, BitVec.getLsbD_not, BitVec.getLsbD_ofNat, Nat.testBit_mul_two_pow,
    Nat.testBit_mod_two_pow, Nat.testBit_two_pow_sub_one]
  by_cases hi : i < w
  · by_cases hlo : lo ≤ i
    · by_cases hhi : i < lo + len
      · have hd : i - lo < len := by omega
        simp [hi, hlo, hhi, hd]
      · have hd : ¬ i - lo < len := by omega
        simp [hi, hlo, hhi, hd]
    · simp [hi, hlo]
  · have hx : x.getLsbD i = false := BitVec.getLsbD_of_ge x i (by omega)
    simp [hi, hx]

/-- The bits of a field read as a number. -/
theorem testBit_bitsOf {w : Nat} (x : BitVec w) (lo len i : Nat) :
    (bitsOf x lo len).testBit i = (decide (i < len) && x.getLsbD (lo + i)) := by
  simp [bitsOf, Nat.testBit_mod_two_pow, Nat.testBit_div_two_pow, BitVec.getLsbD, Nat.add_comm]

/-- A field reads what was written to it, to its length. -/
theorem bitsOf_withBits_same {w : Nat} (x : BitVec w) {lo len : Nat} (v : Nat) (h : lo + len ≤ w) :
    bitsOf (withBits x lo len v) lo len = v % 2 ^ len := by
  refine Nat.eq_of_testBit_eq fun i => ?_
  rw [testBit_bitsOf, getLsbD_withBits, Nat.testBit_mod_two_pow]
  by_cases hi : i < len
  · have h1 : lo + i < w := by omega
    simp [hi, h1]
  · simp [hi]

/-- A write of one field leaves a field that lies apart from it. -/
theorem bitsOf_withBits_apart {w : Nat} (x : BitVec w) {lo len lo' len' : Nat} (v : Nat) (h : lo' + len' ≤ lo ∨ lo + len ≤ lo') :
    bitsOf (withBits x lo len v) lo' len' = bitsOf x lo' len' := by
  refine Nat.eq_of_testBit_eq fun i => ?_
  rw [testBit_bitsOf, testBit_bitsOf, getLsbD_withBits]
  by_cases hi : i < len'
  · have hout : ¬ (lo ≤ lo' + i ∧ lo' + i < lo + len) := by omega
    rw [if_neg hout]
    by_cases hw : lo' + i < w
    · simp [hw]
    · simp [hw, BitVec.getLsbD_of_ge x (lo' + i) (by omega)]
  · simp [hi]

end Sys2Proof.Proofs.Fields
end

section
/-! Stake records taken by a unit (03 R61): the record leaves the queue, the unit comes to its STAMP, and the body acts. -/
namespace Sys2Proof.Proofs.Taking

open Sys2Proof.Machine Sys2Proof.Claims Sys2Proof.Proofs.Service Sys2Proof.Proofs.Fabric

/-- A record of this kind is for the Backsight alone (03 R81). -/
def backOnly : StakeBody → Bool
  | .echo .. => true
  | _ => false

/-- A record that leaves a queue changes no more of a unit than its queue. -/
theorem rests_unfeed (s : State) (u : UnitId) (k : Stake) : rests (unfeed s u k) = rests s := by
  have hgone : ∀ g : List Stake → List Stake, rests (modUnit s u (fun x => { x with feed := g x.feed })) = rests s :=
    fun _ => rests_modUnit fun _ => rfl
  unfold unfeed
  extract_lets gone left
  split
  · exact hgone gone
  · split
    · exact (rests_drainHeldIn _ _).trans (hgone gone)
    · exact hgone gone

theorem rests_modUnit_congr {s t : State} {u : UnitId} {f : UnitState → UnitState} (h : rests s = rests t)
    (hf : rest (getUnit s u) = rest (getUnit t u) → rest (f (getUnit s u)) = rest (f (getUnit t u))) :
    rests (modUnit s u f) = rests (modUnit t u f) := by
  obtain ⟨h0, h1⟩ := Prod.ext_iff.1 h
  cases u
  · exact Prod.ext (hf h0) h1
  · exact Prod.ext h0 (hf h1)

/-- The unit at the STAMP of a record that it takes: its UCC has come there, its queue is what remains (03 R61). Its views and its
closure registers are left open. -/
def Arrived (s s' : State) (u : UnitId) (n : Nat) : Prop :=
  rests s' = rests (modUnit s u (fun x => { x with ucc := n }))

theorem Arrived.unit {s s' : State} {u : UnitId} {n : Nat} (h : Arrived s s' u n) :
    ∃ f v c, getUnit s' u = { getUnit s u with ucc := n, feed := f, views := v, clo := c } := by
  have hu := rest_getUnit h u
  rw [Laws.getUnit_modUnit] at hu
  exact ⟨_, _, _, eq_of_rest hu⟩

/-- What a unit does that takes a record: its body acts on a state in which the unit has come to the STAMP. -/
theorem takeStake_takes {s : State} {u : UnitId} {k : Stake} (ht : takes s u k) (v : ProgVerdict) :
    ∃ s', Arrived s s' u k.stamp ∧ takeStake s u k v = applyBody s' u k.source k.stamp k.body v := by
  obtain ⟨-, -, -, -, hfirst, hucc, hopen⟩ := ht
  refine ⟨modUnit (unfeed s u k) u (fun x => { x with ucc := k.stamp }), ?_, ?_⟩
  · exact rests_modUnit_congr (rests_unfeed s u k) fun h => congrArg (fun z : UnitState => { z with ucc := k.stamp }) h
  · simp [takeStake, hfirst, not_lt.2 hucc, hopen]

/-- A row whose record stands in the unit's queue comes to the taking of that record (03 R61). -/
theorem stakeRow_takes {s : State} {u : UnitId} {source : Fin 5} {h : StakeHdr} {b : StakeBody}
    (ht : takes s u (record source h (backOnly b) b)) (v : ProgVerdict) :
    ∃ s', Arrived s s' u h.stamp ∧ stakeRow s u source h b v = applyBody s' u source h.stamp b v := by
  obtain ⟨s', harr, htake⟩ := takeStake_takes ht v
  refine ⟨s', harr, ?_⟩
  obtain ⟨hoff, hdrop, hexec, hmem, -⟩ := ht
  unfold stakeRow
  extract_lets x k
  have hk : k = record source h (backOnly b) b := by cases b <;> rfl
  rw [hk, if_neg (by simp [x, hoff, hdrop, hexec]), if_pos hmem]
  exact htake

/-- A record that stands in the queue is found there by its source and SEQ. -/
theorem queued_of_mem {s : State} {u : UnitId} {h : StakeHdr} {b : StakeBody} {bk : Bool}
    (hm : record 0 h bk b ∈ (getUnit s u).feed) : (getUnit s u).feed.any (fun m => decide (m.source = 0) && m.seq == h.seq) = true :=
  List.any_eq_true.2 ⟨_, hm, by simp [record]⟩

/-- A record that stands in the queue may be taken whether firmware runs or not (16 R457). -/
theorem fwStake_of_mem {s : State} {u : UnitId} {h : StakeHdr} {b : StakeBody} {bk : Bool}
    (hm : record 0 h bk b ∈ (getUnit s u).feed) : fwStake s u h b = stakeRow s u 0 h b .discard := by
  simp [fwStake, queued_of_mem hm]

theorem mem_of_takes {s : State} {u : UnitId} {k : Stake} (ht : takes s u k) : k ∈ (getUnit s u).feed := by
  obtain ⟨-, -, -, hm, -⟩ := ht
  exact hm

/-- What a row does whose record a unit takes, told of the state in which the record's body acts. -/
theorem applied_of_body {c : Instr} {s : State} {u : UnitId} {source : Fin 5} {h : StakeHdr} {b : StakeBody} {v : ProgVerdict}
    {p : UnitState → Prop} (ht : takes s u (record source h (backOnly b) b)) (hc : exec c s = .next (stakeRow s u source h b v))
    (hb : ∀ s', Arrived s s' u h.stamp → (getUnit (applyBody s' u source h.stamp b v) u).ucc = (getUnit s' u).ucc ∧
      p (getUnit (applyBody s' u source h.stamp b v) u)) : applied c s u h p := by
  obtain ⟨s', harr, hrow⟩ := stakeRow_takes ht v
  obtain ⟨hucc, hp⟩ := hb s' harr
  obtain ⟨f, vw, cl, hu⟩ := harr.unit
  refine ⟨_, hc, ?_, ?_⟩
  · rw [hrow, hucc, hu]
  · rw [hrow]
    exact hp

/-- The same where the body is a change `g` of the unit alone. -/
theorem applied_of_change {c : Instr} {s : State} {u : UnitId} {source : Fin 5} {h : StakeHdr} {b : StakeBody} {v : ProgVerdict}
    {p : UnitState → Prop} (g : UnitState → UnitState) (ht : takes s u (record source h (backOnly b) b))
    (hc : exec c s = .next (stakeRow s u source h b v))
    (hg : ∀ s', Arrived s s' u h.stamp → applyBody s' u source h.stamp b v = modUnit s' u g)
    (hucc : ∀ x, (g x).ucc = x.ucc)
    (hp : ∀ f vw cl, p (g { getUnit s u with ucc := h.stamp, feed := f, views := vw, clo := cl })) : applied c s u h p := by
  refine applied_of_body ht hc fun s' harr => ?_
  obtain ⟨f, vw, cl, hu⟩ := harr.unit
  rw [hg s' harr, Laws.getUnit_modUnit]
  exact ⟨hucc _, hu ▸ hp f vw cl⟩

theorem exec_of_fwStake {c : Instr} {s : State} {u : UnitId} {h : StakeHdr} {b : StakeBody} {bk : Bool}
    (hc : exec c s = .next (fwStake s u h b)) (ht : takes s u (record 0 h bk b)) :
    exec c s = .next (stakeRow s u 0 h b .discard) := by
  rw [hc, fwStake_of_mem (mem_of_takes ht)]

-- a frame whose check fails (06 R177)
@[simp] theorem uPort_modUPort (x : UnitState) (p : Nat) (f : UnitPort → UnitPort) : uPort (modUPort x p f) p = f (uPort x p) := by
  simp [uPort, modUPort]

@[simp] theorem uPort_modStn (x : UnitState) (n p : Nat) (f : Station → Station) : uPort (modStn x n f) p = uPort x p := rfl

/-- A frame with a failed FCS is counted at its port, and at the port's raw station where there is one. -/
theorem applyFrame_badFcs (s : State) (u : UnitId) (p : Nat) {f : EthFrame} (v : ProgVerdict) (hf : f.fcsOk = false) :
    (getUnit (applyFrame s u p f v) u).ucc = (getUnit s u).ucc ∧
    uPort (getUnit (applyFrame s u p f v) u) p =
      { uPort (getUnit s u) p with frames := (uPort (getUnit s u) p).frames + 1, fcs := (uPort (getUnit s u) p).fcs + 1 } := by
  simp only [applyFrame, hf, Bool.not_false, if_true, Bool.false_eq_true, if_false]
  split
  · simp [modS]
    rfl
  · simp
    rfl

/-- A HOST record for a side that is no parcel's changes the view alone (16 R463). -/
theorem applyHost_view {s : State} {u : UnitId} {n : Fin 64} {sd : Side} (notice : Bool) (ws : List Word)
    (h : midParcel (bindMid (unitBind (getUnit s u) n) sd) = none) :
    applyHost s u n sd notice ws = modUnit s u (fun x => applyHostView x n sd notice ws) := by
  have hb : unitBind (getUnit (modUnit s u (fun x => applyHostView x n sd notice ws)) u) n = unitBind (getUnit s u) n := by
    rw [Laws.getUnit_modUnit]
    rfl
  simp only [applyHost, hb, h]

/-- A message stands in the view with its words, FULL, and its length (16 R463, R464). -/
theorem applyHostView_message (x : UnitState) (n : Fin 64) (sd : Side) (ws : List Word) :
    let v := tabGet (fun _ => ({} : MbxView)) (applyHostView x n sd false ws).views (viewKey n sd)
    v.words = ws ∧ bitOf v.status 0 = true ∧ bitsOf v.status 2 5 = ws.length % 32 := by
  simp only [applyHostView, Bool.false_eq_true, if_false, Laws.tabGet_tabSet_same]
  refine ⟨trivial, ?_, Fields.bitsOf_withBits_same _ _ (by decide)⟩
  simp [bitOf, withBit, Fields.getLsbD_withBits]

/-- Pressure of a die, as a unit that takes its record has it (02 R36, R37). -/
def pressOn (d : DieId) (space : Bool) (x : UnitState) : UnitState :=
  let b : BitVec 4 := BitVec.ofNat 4 (2 ^ d.val)
  let c := x.chn
  let first := c.pressSeen &&& b == 0
  let c := if space then { c with pressSpace := c.pressSpace ||| b } else { c with pressBudget := c.pressBudget ||| b }
  let c := if first then { c with pressSeen := c.pressSeen ||| b, pressCnt := c.pressCnt.set d.val (c.pressCnt.get d + 1) d.isLt } else c
  showPress { x with chn := c }

theorem applyPressure_on (s : State) (u : UnitId) (d : DieId) (space : Bool) :
    applyPressure s u d true space = modUnit s u (pressOn d space) := rfl

/-- CHN_STATUS.PRESS shows a pressure in force (02 R49). -/
theorem showPress_bit (x : UnitState) (d : DieId) : bitOf (showPress x).chn.status (8 + d.val) =
    ((showPress x).chn.pressBudget ||| (showPress x).chn.pressSpace).getLsbD d := by
  have hd := d.isLt
  have hw : 8 + d.val < 64 := by omega
  rw [bitOf, showPress, Fields.getLsbD_withBits, if_pos (by omega), Nat.add_sub_cancel_left, decide_eq_true hw, Bool.true_and]
  rfl

theorem pressOn_inForce (d : DieId) (space : Bool) (x : UnitState) :
    (if space then (pressOn d space x).chn.pressSpace else (pressOn d space x).chn.pressBudget).getLsbD d = true := by
  have hbit : (BitVec.ofNat 4 (2 ^ d.val)).getLsbD d = true := by
    rw [BitVec.getLsbD_ofNat, Nat.testBit_two_pow_self, decide_eq_true d.isLt, Bool.true_and]
  cases space
  · simp only [pressOn, showPress, Bool.false_eq_true, if_false]
    split <;> rw [BitVec.getLsbD_or, hbit, Bool.or_true]
  · simp only [pressOn, showPress, if_true]
    split <;> rw [BitVec.getLsbD_or, hbit, Bool.or_true]

theorem pressOn_shown (d : DieId) (space : Bool) (x : UnitState) : bitOf (pressOn d space x).chn.status (8 + d.val) = true := by
  have hforce := pressOn_inForce d space x
  refine (showPress_bit _ d).trans ?_
  rw [BitVec.getLsbD_or]
  cases space
  · exact Bool.or_eq_true_iff.2 (.inl hforce)
  · exact Bool.or_eq_true_iff.2 (.inr hforce)

-- records on the cores
/-- A logical core changed, the cache of its position taken out of service (11 R350). -/
def coreOut (x : UnitState) (l : Nat) (f : Core → Core) : UnitState := killAgent (modUnitCore x l f) (corePos x l)

@[simp] theorem unitCore_coreOut (x : UnitState) (l : Nat) (f : Core → Core) : unitCore (coreOut x l f) l = f (unitCore x l) := by
  simp [coreOut]

@[simp] theorem coreOut_ucc (x : UnitState) (l : Nat) (f : Core → Core) : (coreOut x l f).ucc = x.ucc :=
  Edge.ucc_of_besides (besides_killAgent _ _)

/-- The start of a sparing sequence (10 R316). -/
theorem applySpare_starts (s : State) (u : UnitId) (l p n : Nat) :
    (getUnit (applySpare s u l p n) u).ucc = (getUnit s u).ucc ∧
    (unitCore (getUnit (applySpare s u l p n) u) l).sparing = true ∧
    (getUnit (applySpare s u l p n) u).exe.spareRun = some { core := l, target := p, start := n } := by
  have hunit : ∃ y, (unitCore y l).sparing = true ∧ y.ucc = (getUnit s u).ucc ∧ getUnit (applySpare s u l p n) u =
      { y with exe := { y.exe with spareRun := some { core := l, target := p, start := n } } } := by
    refine ⟨coreOut (getUnit (haltCore s u l) u) l (fun c => { c with sparing := true }), ?_, ?_, Laws.getUnit_modUnit _ _ _⟩
    · rw [unitCore_coreOut]
    · rw [coreOut_ucc]
      exact ucc_of_uccs (uccs_haltCore s u l) u
  obtain ⟨y, hsp, hucc, hy⟩ := hunit
  rw [hy]
  exact ⟨hucc, hsp, rfl⟩

/-- A core offline and deconfigured; a core that was online leaves the count of LVL_STATUS.CORES (03 R88). -/
def coreStopped (x : UnitState) (l : Nat) (wasOffline : Bool) : UnitState :=
  let y := coreOut x l (fun c => { c with offline := true, deconf := true })
  if wasOffline then y else setCores y (coresOnline y - 1)

theorem unitCore_coreStopped (x : UnitState) (l : Nat) (o : Bool) :
    unitCore (coreStopped x l o) l = { unitCore x l with offline := true, deconf := true } := by
  cases o
  · exact unitCore_coreOut x l _
  · exact unitCore_coreOut x l _

theorem coreStopped_ucc (x : UnitState) (l : Nat) (o : Bool) : (coreStopped x l o).ucc = x.ucc := by
  cases o
  · exact coreOut_ucc x l _
  · exact coreOut_ucc x l _

/-- A core that is deconfigured stops for good (03 R88). -/
theorem applyDeconfig_stops {s : State} {u : UnitId} {l : Nat} (h : (unitCore (getUnit s u) l).deconf = false) :
    (getUnit (applyDeconfig s u l) u).ucc = (getUnit s u).ucc ∧
    (unitCore (getUnit (applyDeconfig s u l) u) l).offline = true ∧ (unitCore (getUnit (applyDeconfig s u l) u) l).deconf = true := by
  unfold applyDeconfig
  extract_lets c halted c' stopped y kept noted
  rw [if_neg (by simp [c, h])]
  have hstopped : (getUnit stopped u).ucc = (getUnit s u).ucc ∧
      (unitCore (getUnit stopped u) l).offline = true ∧ (unitCore (getUnit stopped u) l).deconf = true := by
    have hout : getUnit stopped u = coreStopped (getUnit halted u) l c'.offline := Laws.getUnit_modUnit _ _ _
    rw [hout, unitCore_coreStopped, coreStopped_ucc]
    exact ⟨ucc_of_uccs (uccs_haltCore s u l) u, rfl, rfl⟩
  clear_value stopped
  split
  · obtain ⟨hucc, hoff, hdec⟩ := hstopped
    have hrest : rests (postEvent noted 0x01 0x84 [BitVec.ofNat 64 (l + 2 ^ 8 * corePos y l), BitVec.ofNat 64 y.cn]) = rests stopped :=
      rests_postEvent _ _ _ _
    rw [eq_of_rest (rest_getUnit hrest u)]
    exact ⟨hucc, hoff, hdec⟩
  · exact hstopped

-- the drop of the other unit
theorem besides_epochPut (x : UnitState) (n : Nat) : Edge.besides (epochPut x n) = Edge.besides x := by
  simp only [epochPut, fbEngPut, fbPut]
  exact (Edge.besides_fbAccept _ _).trans rfl

/-- LVL_STATUS of the unit that remains (03 R93): SIMPLEX, its role, one more drop, and bit 5 after a debug request. -/
def dropStatus (st : Word) (u : UnitId) (cause : Nat) : Word :=
  let st := withBits (withBits st 0 3 2) 3 2 (2 + u.toNat)
  let st := withBits st 16 16 (saturate 16 (bitsOf st 16 16 + 1))
  if cause = 8 then withBit st 5 true else st

theorem dropStatus_fields (st : Word) (u : UnitId) (cause : Nat) :
    bitsOf (dropStatus st u cause) 0 3 = 2 ∧ bitsOf (dropStatus st u cause) 3 2 = 2 + u.toNat := by
  have hlow (n : Nat) : bitsOf (withBits (withBits (withBits st 0 3 2) 3 2 (2 + u.toNat)) 16 16 n) 0 3 = 2 ∧
      bitsOf (withBits (withBits (withBits st 0 3 2) 3 2 (2 + u.toNat)) 16 16 n) 3 2 = 2 + u.toNat := by
    constructor
    · rw [Fields.bitsOf_withBits_apart _ _ (by omega), Fields.bitsOf_withBits_apart _ _ (by omega),
        Fields.bitsOf_withBits_same _ _ (by omega)]
      rfl
    · rw [Fields.bitsOf_withBits_apart _ _ (by omega), Fields.bitsOf_withBits_same _ _ (by omega)]
      cases u <;> rfl
  simp only [dropStatus]
  split
  · rw [withBit, Fields.bitsOf_withBits_apart (lo := 5) _ _ (by omega), Fields.bitsOf_withBits_apart (lo := 5) _ _ (by omega)]
    exact hlow _
  · exact hlow _

/-- The unit that remains is simplex in its own role (03 R93, 04 R112). -/
theorem applyDrop_simplex (s : State) (u : UnitId) (cause : Nat) :
    (getUnit (applyDrop s u u.other cause) u).ucc = (getUnit s u).ucc ∧
    lvlState (getUnit (applyDrop s u u.other cause) u) = 2 ∧ lvlRole (getUnit (applyDrop s u u.other cause) u) = 2 + u.toNat := by
  have hunit : ∃ c, getUnit (applyDrop s u u.other cause) u = epochPut { getUnit s u with
      lvl := { (getUnit s u).lvl with status := dropStatus (getUnit s u).lvl.status u cause }, clo := c } 2 := by
    have hne : u ≠ u.other := by cases u <;> decide
    rw [applyDrop.eq_def, if_neg hne]
    cases u
    · exact ⟨_, Laws.getUnit_modUnit s .u0 _⟩
    · exact ⟨_, Laws.getUnit_modUnit s .u1 _⟩
  obtain ⟨c, hc⟩ := hunit
  rw [hc, lvlState, lvlRole, Edge.lvl_of_besides (besides_epochPut _ _), Edge.ucc_of_besides (besides_epochPut _ _)]
  exact ⟨rfl, dropStatus_fields _ u cause⟩

theorem getUnit_foldl_modUnit {A : Type} (f : A → UnitState → UnitState) (l : List A) (s : State) (u : UnitId) :
    getUnit (l.foldl (fun s a => modUnit s u (f a)) s) u = l.foldl (fun x a => f a x) (getUnit s u) := by
  induction l generalizing s with
  | nil => rfl
  | cons a l ih => rw [List.foldl_cons, ih, Laws.getUnit_modUnit, List.foldl_cons]

/-- A core no longer halted for debug (03 R92). -/
def resumeCore (x : UnitState) (l : Nat) : UnitState := modUnitCore x l (fun c => { c with debugHalt := false })

theorem foldl_resumeCore_ucc (ls : List Nat) (x : UnitState) : (ls.foldl resumeCore x).ucc = x.ucc :=
  Edge.ucc_of_besides (Edge.besides_foldl resumeCore (fun _ _ => rfl) ls x)

theorem foldl_resumeCore_debugHalt (ls : List Nat) (x : UnitState) (l : Nat) :
    (unitCore (ls.foldl resumeCore x) l).debugHalt = ((unitCore x l).debugHalt && !decide (l ∈ ls)) := by
  induction ls generalizing x with
  | nil => simp
  | cons m ls ih =>
    rw [List.foldl_cons, ih]
    by_cases h : l = m
    · simp [h, resumeCore]
    · rw [resumeCore, modUnitCore, Laws.unitCore_setUnitCore_ne _ _ (Ne.symm h)]
      simp [h]

theorem mem_bitList {w : Nat} (x : BitVec w) (n i : Nat) : i ∈ bitList x n ↔ i < n ∧ x.getLsbD i = true := by
  simp [bitList]

/-- CTL DEBUG that resumes cores (03 R92). -/
theorem applyDebug_resumes (s : State) (u : UnitId) (cores : BitVec 48) :
    (getUnit (applyDebug s u true cores) u).ucc = (getUnit s u).ucc ∧ ∀ l : CoreId,
    (unitCore (getUnit (applyDebug s u true cores) u) l).debugHalt = ((unitCore (getUnit s u) l).debugHalt && !cores.getLsbD l) := by
  have hunit : getUnit (applyDebug s u true cores) u = showDebug ((bitList cores 48).foldl resumeCore (getUnit s u)) := by
    simp only [applyDebug, if_true, Bool.not_true, Laws.getUnit_modUnit]
    exact congrArg showDebug (getUnit_foldl_modUnit (fun m y => resumeCore y m) _ s u)
  rw [hunit]
  refine ⟨foldl_resumeCore_ucc _ _, fun l => ?_⟩
  have hmem : decide (l.val ∈ bitList cores 48) = cores.getLsbD l := by simp [mem_bitList, l.isLt]
  rw [← hmem]
  exact foldl_resumeCore_debugHalt _ _ _

/-- CTL MCODE replaces the patch as a whole, and stalls every position (10 R325). -/
theorem getUnit_applyMcode (s : State) (u : UnitId) (n : Nat) (img : PatchImage) : ∃ ram regs, getUnit (applyMcode s u n img) u =
    { getUnit s u with exe := { (getUnit s u).exe with
      ucode := { ram := ram, patchId := img.patchId, regs := regs, stallEnd := some (n + 4096) } } } := by
  unfold applyMcode
  extract_lets ram regs patched sahya
  have h : getUnit patched u = _ := Laws.getUnit_modUnit s u _
  split
  · exact ⟨ram, regs, h⟩
  · exact ⟨ram, regs, h⟩

/-- CTL SYNC records that lock is held, or that it was lost (02 R43, R45). -/
theorem applySync_shows (x : UnitState) (lock : Bool) :
    bitOf (applySync x lock).chn.status 2 = lock ∧ (lock = false → bitOf (applySync x lock).chn.status 3 = true) := by
  cases lock
  · refine ⟨?_, fun _ => ?_⟩
    · exact (Generator.bitOf_withBit _ (by decide) 2 false).trans rfl
    · exact (Generator.bitOf_withBit _ (by decide) 3 false).trans (Generator.bitOf_withBit _ (by decide) 3 true)
  · exact ⟨Generator.bitOf_withBit _ (by decide) 2 true, fun h => absurd h (by decide)⟩

/-- Settles O39: each record by what its body does to the unit that has come to its STAMP. -/
theorem stakeRecordsApplied : Obligations.StakeRecordsApplied := by
  unfold Obligations.StakeRecordsApplied
  refine ⟨?input, ?entropy, ?host, ?timer, ?echo, ?pressure, ?rws, ?diverge, ?spare, ?deconfig, ?drop, ?throttle, ?mcode, ?scrub,
    ?bench, ?debug, ?sync⟩
  case input =>
    intro s u d h p f v ht hf
    refine applied_of_body ht rfl fun s' harr => ?_
    obtain ⟨_, _, _, hu⟩ := harr.unit
    obtain ⟨hucc, hport⟩ := applyFrame_badFcs s' u p v hf
    refine ⟨hucc, ?_⟩
    have hrow : applyBody s' u (dieSource d) h.stamp (.input p (.frame f)) v = applyFrame s' u p f v := rfl
    rw [hrow, hport, hu]
    exact ⟨rfl, rfl⟩
  case entropy =>
    intro s u h w0 w1 w2 w3 ht
    have hc : exec (.entropyStake u h w0 w1 w2 w3) s = .next (stakeRow s u 0 h (.entropy [w0, w1, w2, w3]) .discard) := by
      simp [execEntropyStake, queued_of_mem (mem_of_takes ht)]
    exact applied_of_change (fun x => applyEntropy x [w0, w1, w2, w3]) ht hc (fun _ _ => rfl) (fun _ => rfl)
      (fun _ _ _ => rfl)
  case host =>
    intro s u h ch sd ws ht hmid
    refine applied_of_change (fun x => applyHostView x ch sd false ws) ht (exec_of_fwStake rfl ht) (fun s' harr => ?_) (fun _ => rfl)
      (fun _ _ _ => applyHostView_message _ ch sd ws)
    obtain ⟨_, _, _, hu⟩ := harr.unit
    have hmid' : midParcel (bindMid (unitBind (getUnit s' u) ch) sd) = none := by rw [hu]; exact hmid
    exact applyHost_view false ws hmid'
  case timer =>
    intro s u h tod ht
    exact applied_of_change (fun x => { x with lvl := { x.lvl with tod := tod, todUcc := BitVec.ofNat 64 h.stamp } }) ht
      (exec_of_fwStake rfl ht) (fun _ _ => rfl) (fun _ => rfl) (fun _ _ _ => ⟨rfl, rfl⟩)
  case echo =>
    intro s u h l kind index hb ht
    have hc : exec (.echoStake u h l kind index) s = .next (stakeRow s u 0 h (.echo l kind index) .discard) := by
      simp [execEchoStake, hb]
    refine applied_of_change (fun x => doRetry x l.val h.stamp kind index) ht hc (fun _ _ => rfl) (fun _ => rfl)
      (fun _ _ _ => ?_)
    exact Laws.unitCore_modUnitCore _ _ _
  case pressure =>
    intro s u d h space ht
    exact applied_of_change (pressOn d space) ht rfl (fun s' _ => applyPressure_on s' u d space) (fun _ => rfl)
      (fun _ _ _ => ⟨pressOn_shown d space _, pressOn_inForce d space _⟩)
  case rws =>
    intro s u h w ht
    refine applied_of_change (fun x => chnCfgPend x w) ht (exec_of_fwStake rfl ht) (fun _ _ => rfl) (fun _ => rfl)
      (fun _ _ _ => ⟨rfl, ?_⟩)
    rw [chnCfgPend, Generator.bitOf_withBit _ (by decide), if_pos rfl]
  case diverge =>
    intro s u h v ht
    exact applied_of_change (fun x => { x with lvl := { x.lvl with cfg := withBits x.lvl.cfg 8 2 v.toNat } }) ht rfl
      (fun _ _ => rfl) (fun _ => rfl) (fun _ _ _ => rfl)
  case spare =>
    intro s u h l p ht
    exact applied_of_body ht (exec_of_fwStake rfl ht) fun s' _ => applySpare_starts s' u l.val p.val h.stamp
  case deconfig =>
    intro s u h l ht hd
    refine applied_of_body ht (exec_of_fwStake rfl ht) fun s' harr => ?_
    obtain ⟨_, _, _, hu⟩ := harr.unit
    have hd' : (unitCore (getUnit s' u) l.val).deconf = false := by rw [hu]; exact hd
    exact applyDeconfig_stops hd'
  case drop =>
    intro s u h cause ht hd
    have hc : exec (.ctlDrop u h u.other cause) s = .next (stakeRow s u 0 h (.drop u.other cause) .discard) := by
      simp [execCtlDrop, hd]
    exact applied_of_body ht hc fun s' _ => applyDrop_simplex s' u cause.toNat
  case throttle =>
    intro s u h level ht
    exact applied_of_change (fun x => { x with exe := { x.exe with throttle := level } }) ht (exec_of_fwStake rfl ht)
      (fun _ _ => rfl) (fun _ => rfl) (fun _ _ _ => rfl)
  case mcode =>
    intro s u h img ht
    refine applied_of_body ht (exec_of_fwStake rfl ht) fun s' _ => ?_
    obtain ⟨ram, regs, hu⟩ := getUnit_applyMcode s' u h.stamp img
    have hrow : applyBody s' u 0 h.stamp (.mcode img) .discard = applyMcode s' u h.stamp img := rfl
    rw [hrow, hu]
    exact ⟨rfl, rfl, rfl⟩
  case scrub =>
    intro s u h base len ht
    exact applied_of_change (fun x => applyScrub x base len) ht (exec_of_fwStake rfl ht) (fun _ _ => rfl)
      (fun _ => rfl) (fun _ _ _ => rfl)
  case bench =>
    intro s u h cn ht
    exact applied_of_change (fun x => { x with lvl := { x.lvl with bench := BitVec.ofNat 64 cn } }) ht rfl
      (fun _ _ => rfl) (fun _ => rfl) (fun _ _ _ => rfl)
  case debug =>
    intro s u h cores ht
    refine applied_of_body ht (exec_of_fwStake rfl ht) fun s' harr => ?_
    obtain ⟨_, _, _, hu⟩ := harr.unit
    obtain ⟨hucc, hhalt⟩ := applyDebug_resumes s' u cores
    refine ⟨hucc, fun l => (hhalt l).trans ?_⟩
    rw [hu]
    rfl
  case sync =>
    intro s u h lock ht
    refine applied_of_change (fun x => applySync x lock) ht rfl (fun _ _ => rfl) (fun _ => rfl) (fun _ _ _ => ?_)
    exact applySync_shows _ lock

end Sys2Proof.Proofs.Taking
end

section
/-! Stake order, BLOCK_RESET, machine checks and code pages by stake, the deadline of a record (O40). -/
namespace Sys2Proof.Proofs.OrderReset

open Sys2Proof.Machine Sys2Proof.Claims Sys2Proof.Proofs.Service Sys2Proof.Proofs.Fabric Sys2Proof.Proofs.Taking

/-- A record that another stands before waits (03 R61). -/
theorem takeStake_behind {s : State} {u : UnitId} {k m : Stake} (hf : firstStake (getUnit s u).feed = some m) (hne : m ≠ k)
    (v : ProgVerdict) : takeStake s u k v = s := by
  have h : some m ≠ some k := fun e => hne (Option.some.inj e)
  simp [takeStake, hf, h]

theorem stakeRow_behind {s : State} {u : UnitId} {source : Fin 5} {h : StakeHdr} {b : StakeBody} {m : Stake}
    (hm : record source h (backOnly b) b ∈ (getUnit s u).feed) (hf : firstStake (getUnit s u).feed = some m)
    (hne : m ≠ record source h (backOnly b) b) (v : ProgVerdict) : stakeRow s u source h b v = s := by
  unfold stakeRow
  extract_lets x k
  have hk : k = record source h (backOnly b) b := by cases b <;> rfl
  rw [hk, if_pos hm]
  split
  · rfl
  · exact takeStake_behind hf hne v

-- power
/-- What the choice of the active unit rests on (00 R10). -/
def ranks (s : State) : Bool × Bool × Nat := (s.u0.dropped, s.u1.dropped, lvlRole s.u0)

theorem foreUnit_of_ranks {s t : State} (h : ranks s = ranks t) : foreUnit s = foreUnit t := by
  simp only [ranks, Prod.mk.injEq] at h
  obtain ⟨h0, h1, hr⟩ := h
  simp only [foreUnit, h0, h1, hr]

theorem ranks_of_rests {s t : State} (h : rests s = rests t) : ranks s = ranks t :=
  congrArg (fun p : UnitState × UnitState => (p.1.dropped, p.2.dropped, lvlRole p.1)) h

/-- The coming to a STAMP changes no role. -/
theorem foreUnit_of_arrived {s s' : State} {u : UnitId} {n : Nat} (h : Arrived s s' u n) : foreUnit s' = foreUnit s :=
  (foreUnit_of_ranks (ranks_of_rests h)).trans (Edge.foreUnit_of_roles (Edge.roles_modUnit rfl rfl))

theorem ranks_modUnit {s : State} {u : UnitId} {f : UnitState → UnitState} (hd : (f (getUnit s u)).dropped = (getUnit s u).dropped)
    (hr : lvlRole (f (getUnit s u)) = lvlRole (getUnit s u)) : ranks (modUnit s u f) = ranks s := by
  cases u <;> simp_all [ranks, getUnit]

theorem unitCore_releaseLines (x : UnitState) (p m : Nat) (ls : List Nat) : unitCore (releaseLines x p ls) m = unitCore x m := by
  refine List.foldlRecOn (motive := fun y : UnitState => unitCore y m = unitCore x m) _ _ rfl (fun y hy l _ => ?_)
  rw [← hy, unitCore, unitCore, Laws.setDir_cores]

theorem unitCore_releasePin (x : UnitState) (p e l m : Nat) : unitCore (releasePin x p e l) m = unitCore x m := by
  simp only [releasePin]
  split
  · rw [unitCore, unitCore, Laws.setDir_cores]
  · rfl

theorem abortCore_sb (c : Core) (code : BitVec 8) : (abortCore c code).sb = c.sb := by
  unfold abortCore
  split <;> rfl

/-- The end of a transaction leaves every store buffer (09 R286). -/
theorem txAbort_sb (x : UnitState) (l m : Nat) (code : BitVec 8) : (unitCore (txAbort x l code) m).sb = (unitCore x m).sb := by
  unfold txAbort
  split
  · rfl
  · by_cases h : l = m
    · subst h
      rw [Laws.unitCore_setUnitCore, abortCore_sb]
    · rw [Laws.unitCore_setUnitCore_ne _ _ h, unitCore_releaseLines]

/-- The end of a reservation in its core's registers (09 R280). -/
theorem unitCore_clearRsv (x : UnitState) (l : Nat) : unitCore (clearRsv x l) l = { unitCore x l with rsvValid := false } :=
  Laws.unitCore_setUnitCore _ _ _

theorem clearRsv_sb (x : UnitState) (l m : Nat) : (unitCore (clearRsv x l) m).sb = (unitCore x m).sb := by
  by_cases h : l = m
  · subst h
    rw [unitCore_clearRsv]
  · rw [clearRsv, Laws.unitCore_setUnitCore_ne _ _ h, unitCore_releasePin]

/-- A core with no store in its buffer is taken out of its run by the end of its transaction and its reservation alone (09 R294). -/
theorem haltCore_drained {s : State} {u : UnitId} {l : Nat} (h : (unitCore (getUnit s u) l).sb = []) :
    haltCore s u l = modUnit s u (fun x => clearRsv (txAbort x l 0x0A) l) := by
  have hsb : (unitCore (getUnit (modUnit s u (fun x => clearRsv (txAbort x l 0x0A) l)) u) l).sb = [] := by
    rw [Laws.getUnit_modUnit, clearRsv_sb, txAbort_sb, h]
  rw [haltCore, forceSb, forceBuf]
  simp only [hsb]

/-- One core of a cluster that goes down (18 R519). -/
def coreDown (u : UnitId) (s : State) (l : Nat) : State :=
  let c := unitCore (getUnit s u) l
  if c.offline then s else
  let s := resetCore s u l { parcel := c.parcel, pc := c.entry, entry := c.entry, offline := true }
  modUnit s u (fun x => setCores (agentFlush x (corePos x l)) (coresOnline x - 1))

theorem clusterDown_eq (s : State) (u : UnitId) (k : Nat) : clusterDown s u k =
    modUnit ((clusterCores (getUnit s u) k).foldl (coreDown u) s) u (fun x => { x with exe := { x.exe with
      spareOff := x.exe.spareOff ||| (x.exe.spares &&& clusterMask k), spares := x.exe.spares &&& ~~~(clusterMask k) } }) := rfl

/-- A core without stores reset and offline, in its unit. -/
def drainedReset (l : Nat) (x : UnitState) : UnitState :=
  let c := unitCore x l
  setUnitCore (clearRsv (txAbort x l 0x0A) l) l { parcel := c.parcel, pc := c.entry, entry := c.entry, offline := true }

/-- A core without stores that goes down, in its unit. -/
def drainedDown (l : Nat) (x : UnitState) : UnitState :=
  let y := drainedReset l x
  setCores (agentFlush y (corePos y l)) (coresOnline y - 1)

theorem coreDown_drained {s : State} {u : UnitId} {l : Nat} (h : (unitCore (getUnit s u) l).sb = []) :
    coreDown u s l = if (unitCore (getUnit s u) l).offline then s else modUnit s u (drainedDown l) := by
  simp only [coreDown, resetCore, haltCore_drained h, Laws.modUnit_modUnit]
  rfl

theorem besides_drainedFlush (l : Nat) (x : UnitState) (n : Nat) : Edge.besides (agentFlush (drainedReset l x) n) = Edge.besides x := by
  rw [agentFlush, besides_salvageAgent, drainedReset, besides_setUnitCore, besides_clearRsv, besides_txAbort]

theorem drainedDown_ranks (l : Nat) (x : UnitState) :
    (drainedDown l x).dropped = x.dropped ∧ lvlRole (drainedDown l x) = lvlRole x := by
  have h := besides_drainedFlush l x (corePos (drainedReset l x) l)
  have hd := Edge.dropped_of_besides h
  refine ⟨hd, (Fields.bitsOf_withBits_apart _ _ (by omega)).trans ?_⟩
  rw [Edge.lvl_of_besides h]
  rfl

theorem drainedDown_sb (l m : Nat) (x : UnitState) (h : (unitCore x m).sb = []) : (unitCore (drainedDown l x) m).sb = [] := by
  have hflush (y : UnitState) (n k : Nat) : unitCore (setCores (agentFlush y n) k) m = unitCore y m := by
    have hcores : (setCores (agentFlush y n) k).exe.cores = y.exe.cores := salvageAgent_cores y n
    rw [unitCore, unitCore, hcores]
  rw [drainedDown, hflush, drainedReset]
  by_cases hlm : l = m
  · rw [hlm, Laws.unitCore_setUnitCore]
  · rw [Laws.unitCore_setUnitCore_ne _ _ hlm, clearRsv_sb, txAbort_sb, h]

/-- The active unit is the same after one core of a cluster has gone down, and the store buffers of a list of cores stay empty. -/
theorem coreDown_keeps {s : State} {u : UnitId} {l : Nat} {ls : List Nat} (hl : l ∈ ls)
    (h : ∀ m ∈ ls, (unitCore (getUnit s u) m).sb = []) :
    ranks (coreDown u s l) = ranks s ∧ ∀ m ∈ ls, (unitCore (getUnit (coreDown u s l) u) m).sb = [] := by
  rw [coreDown_drained (h l hl)]
  split
  · exact ⟨rfl, h⟩
  · obtain ⟨hd, hr⟩ := drainedDown_ranks l (getUnit s u)
    refine ⟨ranks_modUnit hd hr, fun m hm => ?_⟩
    rw [Laws.getUnit_modUnit]
    exact drainedDown_sb l m _ (h m hm)

theorem ranks_clusterDown {s : State} {u : UnitId} {k : Nat}
    (h : ∀ m ∈ clusterCores (getUnit s u) k, (unitCore (getUnit s u) m).sb = []) :
    ranks (clusterDown s u k) = ranks s := by
  have hfold := List.foldlRecOn (motive := fun t : State => ranks t = ranks s ∧
      ∀ m ∈ clusterCores (getUnit s u) k, (unitCore (getUnit t u) m).sb = []) (clusterCores (getUnit s u) k) (coreDown u) ⟨rfl, h⟩
    fun t ⟨hr, hsb⟩ l hl => by
      obtain ⟨hr', hsb'⟩ := coreDown_keeps hl hsb
      exact ⟨hr'.trans hr, hsb'⟩
  rw [clusterDown_eq]
  exact (ranks_modUnit rfl rfl).trans hfold.1

/-- A cluster whose power-down is not refused has no store left in a buffer (18 R518, 09 R295). -/
theorem sb_of_powerRefused {x : UnitState} {k : Nat} (hk : k < 14) (h : powerRefused x k = ccOk) :
    ∀ m ∈ clusterCores x k, (unitCore x m).sb = [] := by
  intro m hm
  by_contra hsb
  have hany : (clusterCores x k).any (fun l => !(unitCore x l).sb.isEmpty) = true :=
    List.any_eq_true.2 ⟨m, hm, by simpa using hsb⟩
  rw [powerRefused, if_pos hk, if_pos hany] at h
  exact absurd h (by decide)

/-- The start of a power-down that is not refused leaves the active unit what it is: no core of a cluster that goes down has a store
left that its home could refuse. -/
theorem ranks_powerDownFx {s : State} {u : UnitId} {k : Nat} (h : powerRefused (getUnit s u) k = ccOk) :
    ranks (powerDownFx s u k) = ranks s := by
  unfold powerDownFx
  split
  · next hk => exact ranks_clusterDown (sb_of_powerRefused hk h)
  · split
    · exact ranks_modUnit rfl rfl
    · rfl

theorem ranks_domRequest {s : State} {u : UnitId} {k : Nat} {on : Bool} (n : Nat)
    (hok : on = true ∨ powerRefused (getUnit s u) k = ccOk) :
    ranks (domRequest s u k on true n) = ranks s := by
  have hset (d : Nat) (y : Dom) : ranks (setDom s d y) = ranks s := rfl
  cases on with
  | true =>
    simp only [domRequest, domStart, if_true]
    repeat' split
    all_goals simp [hset]
  | false =>
    have href : powerRefused (getUnit s u) k = ccOk := by simpa using hok
    have hdown (d : Nat) (y : Dom) : ranks (powerDownFx (setDom s d y) u k) = ranks s := ranks_powerDownFx href
    simp only [domRequest, domStart, Bool.false_eq_true, if_false]
    repeat' split
    all_goals simp [hset, hdown]

/-- A request that the checks of 18 R518 pass goes to the sequencer; a unit that is not the active one makes no reply. -/
theorem applyPower_back {s : State} {u : UnitId} {k : Nat} {on : Bool} (hu : u ≠ foreUnit s)
    (hok : on = true ∨ powerRefused (getUnit s u) k = ccOk) :
    applyPower s u k on = domRequest s u k on true (getUnit s u).ucc := by
  have hcode : (if on then ccOk else powerRefused (getUnit s u) k) = ccOk := by
    rcases hok with hon | href
    · rw [if_pos hon]
    · rw [href, ite_self]
  have hfore : u ≠ foreUnit (domRequest s u k on true (getUnit s u).ucc) := by
    rw [foreUnit_of_ranks (ranks_domRequest _ hok)]
    exact hu
  simp only [applyPower, hcode, if_true, if_neg hfore]

-- a cluster reset
/-- Entries of a table that a change brings to the default read the default. -/
theorem tabGet_tabMap_default {V : Type} [DecidableEq V] (d : Nat → V) (f : Nat → V → V) (t : Tab V) (n : Nat)
    (h : ∀ v, f n v = d n) : tabGet d (tabMap d f t) n = d n := by
  induction t with
  | nil => rfl
  | cons e r ih =>
    obtain ⟨m, v⟩ := e
    by_cases hv : f m v = d m
    · have hcons : tabMap d f ((m, v) :: r) = tabMap d f r := by simp [tabMap, hv]
      rw [hcons, ih]
    · have hcons : tabMap d f ((m, v) :: r) = (m, f m v) :: tabMap d f r := by simp [tabMap, hv]
      have hne : m ≠ n := fun e => hv (e ▸ h v)
      rw [hcons, tabGet, if_neg hne, ih]

theorem trv_of_besides {x y : UnitState} (h : Edge.besides x = Edge.besides y) : x.trv = y.trv := congrArg (fun z => z.trv) h

/-- The stations that a cluster serves are CLOSED after its reset (17 R494). -/
theorem resetCluster_station (x : UnitState) {k n : Nat} (h : n / 65536 = k) :
    tabGet (fun _ => ({} : Station)) (resetCluster x k).trv.stations n = {} := by
  simp only [resetCluster, trv_of_besides (besides_killAgent _ _)]
  exact tabGet_tabMap_default _ _ _ _ fun v => if_pos h

theorem resetCluster_ucc (x : UnitState) (k : Nat) : (resetCluster x k).ucc = x.ucc := by
  simp only [resetCluster, Edge.ucc_of_besides (besides_killAgent _ _)]

-- a machine check by stake
/-- A core without a transaction enters a cause from its own registers, its reservation ended (10 R297). -/
theorem unitCore_enterFrom {x : UnitState} {l : Nat} (h : (unitCore x l).txn = none) (code ilen : Nat) (iaddr epc : CodeAddr)
    (eaddr : Word) : unitCore (enterFrom x l code ilen iaddr epc eaddr) l =
      enterCore { unitCore x l with rsvValid := false } code ilen false iaddr epc eaddr := by
  have habort (code : BitVec 8) : txAbort x l code = x := by simp only [txAbort, h]
  simp only [enterFrom, h, habort, Laws.unitCore_setUnitCore, unitCore_clearRsv]
  rfl

theorem besides_enterFrom (x : UnitState) (l code ilen : Nat) (iaddr epc : CodeAddr) (eaddr : Word) :
    Edge.besides (enterFrom x l code ilen iaddr epc eaddr) = Edge.besides x := by
  simp [enterFrom]

/-- MC_STAKED while no machine check is in progress enters its core (10 R308). -/
theorem takeCause_staked {s : State} {u : UnitId} {l : Nat} {iaddr epc : CodeAddr} {eaddr : Word}
    (h : (unitCore (getUnit s u) l).ecause.mcip = false) : takeCause s u l 0x20 0 iaddr epc eaddr =
      modUnit s u (fun x => enterFrom x l 0x20 0 iaddr epc eaddr) := by
  simp [takeCause, h]

theorem entryPoint_mcheck (c : Core) : entryPoint c .mcheck = BitVec.ofNat 48 (c.vbase.toNat * 1024) := by
  have hlt := c.vbase.isLt
  apply BitVec.eq_of_toNat_eq
  simp [entryPoint, entryOffset, Nat.shiftLeft_eq]

/-- What the entry of a machine check leaves in the registers (10 R297, R299, R301). -/
theorem enterCore_staked (c : Core) (iaddr epc : CodeAddr) (eaddr : Word) : let e := enterCore c 0x20 0 false iaddr epc eaddr
    e.pc = entryPoint c .mcheck ∧ e.ecause.code = 0x20 ∧ e.ecause.mcip = true ∧ e.epc = epc ∧ e.eaddr = eaddr := by
  have hmcip : (c.ecause.mcip || decide (causeKind 0x20 = .mcheck)) = true := Bool.or_true _
  simp only [enterCore]
  split
  · exact ⟨rfl, rfl, hmcip, rfl, rfl⟩
  · exact ⟨rfl, rfl, hmcip, rfl, rfl⟩

theorem bitList_single {n l : Nat} (hl : l < n) : bitList (BitVec.ofNat n (2 ^ l)) n = [l] := by
  have hbit : ∀ i ∈ List.range n, (BitVec.ofNat n (2 ^ l)).getLsbD i = (i == l) := by
    intro i hi
    rw [BitVec.getLsbD_ofNat, decide_eq_true (List.mem_range.1 hi), Bool.true_and, Nat.testBit_two_pow]
    by_cases e : l = i
    · simp [e]
    · simp [e, Ne.symm e]
  rw [bitList, List.filter_congr hbit, List.filter_beq, List.count_eq_one_of_mem List.nodup_range (List.mem_range.2 hl)]
  rfl

/-- CTL MCHK that names one core (10 R308). -/
theorem applyMchk_single {s : State} {u : UnitId} {l : CoreId} {source : BitVec 12} (ho : (unitCore (getUnit s u) l).offline = false)
    (hv : (unitCore (getUnit s u) l).vectorStop = false) (hm : (unitCore (getUnit s u) l).ecause.mcip = false) :
    applyMchk s u (BitVec.ofNat 48 (2 ^ l.val)) source = modUnit s u (fun x => enterFrom x l 0x20 0 (unitCore (getUnit s u) l).pc
      (unitCore (getUnit s u) l).pc (source.setWidth 64)) := by
  rw [applyMchk, bitList_single l.isLt]
  simp only [List.foldl_cons, List.foldl_nil, ho, hv, Bool.or_self, Bool.false_eq_true, if_false, takeCause_staked hm]

-- a code page
theorem performWrl_data (x : UnitState) (a line : Nat) (bs : List Byte) :
    (performWrl x a line bs).mem.data = tabSetList byteDef x.mem.data (64 * line) bs := by
  simp [performWrl, wrlLine, putBytes]

/-- Line `k` of a list of bytes written at the line `k` places on from a first one. -/
def writeLine (a line : Nat) (bs : List Byte) (x : UnitState) (k : Nat) : UnitState :=
  performWrl x a (line + k) ((bs.drop (64 * k)).take 64)

/-- The first lines of a list of bytes written one after another: memory holds those bytes there, and is as it was elsewhere. -/
theorem foldl_writeLine_data (a line : Nat) (bs : List Byte) (x : UnitState) (n m : Nat) (h : 64 * m ≤ bs.length) :
    tabGet byteDef ((List.range m).foldl (writeLine a line bs) x).mem.data n =
      if 64 * line ≤ n ∧ n < 64 * (line + m) then bs.getD (n - 64 * line) 0 else tabGet byteDef x.mem.data n := by
  induction m with
  | zero =>
    rw [if_neg (by omega)]
    rfl
  | succ m ih =>
    have hlen : ((bs.drop (64 * m)).take 64).length = 64 := by simp; omega
    rw [List.range_succ, List.foldl_append, List.foldl_cons, List.foldl_nil, writeLine, performWrl_data,
      Laws.tabGet_tabSetList _ _ _ _ _ 0, hlen, ih (by omega)]
    by_cases hin : 64 * (line + m) ≤ n ∧ n < 64 * (line + m) + 64
    · have hget : ((bs.drop (64 * m)).take 64).getD (n - 64 * (line + m)) 0 = bs.getD (n - 64 * line) 0 := by
        have hat : 64 * m + (n - 64 * (line + m)) = n - 64 * line := by omega
        have hin' : n - 64 * (line + m) < 64 := by omega
        rw [List.getD_eq_getElem?_getD, List.getD_eq_getElem?_getD, List.getElem?_take_of_lt hin', List.getElem?_drop, hat]
      rw [if_pos hin, if_pos (by omega), hget]
    · rw [if_neg hin]
      by_cases hbefore : 64 * line ≤ n ∧ n < 64 * (line + m)
      · rw [if_pos hbefore, if_pos (by omega)]
      · rw [if_neg hbefore, if_neg (by omega)]

theorem wordsBytes_length (ws : List Word) : (wordsBytes ws).length = 8 * ws.length := by
  simp [wordsBytes, List.length_flatMap, Nat.mul_comm]

/-- The cores and engines hold no code translation (09 R276). -/
def forgetCode (x : UnitState) : UnitState :=
  { x with exe := { x.exe with
    cores := tabMap coreDef (fun _ c => { c with codeTlb := [] }) x.exe.cores
    engines := tabMap engineDef (fun _ c => { c with codeTlb := [] }) x.exe.engines } }

theorem forgetCode_data (x : UnitState) : (forgetCode x).mem.data = x.mem.data := rfl
theorem forgetCode_ucc (x : UnitState) : (forgetCode x).ucc = x.ucc := rfl

theorem applyCode_eq (x : UnitState) (frame : Nat) (ws : List Word) : applyCode x frame ws =
    forgetCode ((List.range 256).foldl (writeLine 79 (frame / 64) (wordsBytes ws)) x) := rfl

/-- CTL CODE writes its page (16 R481). -/
theorem applyCode_data (x : UnitState) {frame : Nat} {ws : List Word} (hw : ws.length = 2048) (hf : frame % 64 = 0) (n : Nat) :
    tabGet byteDef (applyCode x frame ws).mem.data n =
      if frame ≤ n ∧ n < frame + 16384 then (wordsBytes ws).getD (n - frame) 0 else tabGet byteDef x.mem.data n := by
  have hline : 64 * (frame / 64) = frame := by omega
  have hend : 64 * (frame / 64 + 256) = frame + 16384 := by omega
  have h := foldl_writeLine_data 79 (frame / 64) (wordsBytes ws) x n 256 (by rw [wordsBytes_length, hw])
  rw [hline, hend] at h
  rw [applyCode_eq, forgetCode_data, h]

theorem applyCode_ucc (x : UnitState) (frame : Nat) (ws : List Word) : (applyCode x frame ws).ucc = x.ucc := by
  have hlines := Edge.besides_foldl (writeLine 79 (frame / 64) (wordsBytes ws)) (fun _ _ => besides_performWrl _ _ _ _) (List.range 256) x
  rw [applyCode_eq, forgetCode_ucc, Edge.ucc_of_besides hlines]

-- the deadline of a record
theorem lineFed_back {s : State} {u : UnitId} {source : Fin 5} {seq : Nat} (hb : backUnit s = some u)
    (hk : (getUnit s u).feed.any (fun m => decide (m.source = source) && m.seq == seq) = true) : lineFed s source seq = some u := by
  simp only [lineFed, hb, hk, if_true]

/-- Settles O40: the order of the queue by `stakeRow_behind`, each other record by what its body does at its STAMP. -/
theorem stakeRecordsOrderAndReset : Obligations.StakeRecordsOrderAndReset := by
  unfold Obligations.StakeRecordsOrderAndReset
  refine ⟨?order, ?power, ?blockReset, ?mchk, ?code, ?deadline⟩
  case order =>
    intro s u h level k hm hf hne
    have hexec : exec (.ctlThrottle u h level) s = .next (fwStake s u h (.throttle level)) := rfl
    rw [hexec, fwStake_of_mem hm, stakeRow_behind hm hf hne]
  case power =>
    intro s u h k on ht hu hok
    obtain ⟨s', harr, hrow⟩ := stakeRow_takes (b := .power k on) ht .discard
    obtain ⟨_, _, _, hunit⟩ := harr.unit
    have hok' : on = true ∨ powerRefused (getUnit s' u) k = ccOk := by rw [hunit]; exact hok
    have hback : applyBody s' u 0 h.stamp (.power k on) .discard = domRequest s' u k on true h.stamp := by
      have hucc : (getUnit s' u).ucc = h.stamp := by rw [hunit]
      rw [← hucc]
      exact applyPower_back (by rw [foreUnit_of_arrived harr]; exact hu) hok'
    refine ⟨s', ?_, by rw [hunit]⟩
    rw [exec_of_fwStake rfl ht, hrow, hback]
  case blockReset =>
    intro s u h k ht
    exact applied_of_change (fun x => resetCluster x k.val) ht rfl (fun _ _ => rfl) (fun _ => resetCluster_ucc _ _)
      (fun _ _ _ _ hn => resetCluster_station _ hn)
  case mchk =>
    intro s u h l src ht c ho hv hm htx
    refine applied_of_change (fun x => enterFrom x l 0x20 0 c.pc c.pc (src.setWidth 64)) ht (exec_of_fwStake rfl ht) (fun s' harr => ?_)
      (fun _ => Edge.ucc_of_besides (besides_enterFrom _ _ _ _ _ _ _)) (fun f vw cl => ?_)
    · obtain ⟨_, _, _, hunit⟩ := harr.unit
      have hc : unitCore (getUnit s' u) l = c := by rw [hunit]; rfl
      have h := applyMchk_single (s := s') (u := u) (l := l) (source := src) (by rw [hc, ho]) (by rw [hc, hv]) (by rw [hc, hm])
      rw [hc] at h
      exact h
    · obtain ⟨hpc, hcode, hmcip, hepc, headdr⟩ := enterCore_staked { c with rsvValid := false } c.pc c.pc (src.setWidth 64)
      rw [unitCore_enterFrom (x := { getUnit s u with ucc := h.stamp, feed := f, views := vw, clo := cl }) (l := l) htx]
      exact ⟨hpc.trans (entryPoint_mcheck _), hcode, hmcip, hepc, headdr⟩
  case code =>
    intro s u h frame ws ht hw hf
    exact applied_of_change (fun x => applyCode x frame.toNat ws) ht (exec_of_fwStake rfl ht) (fun _ _ => rfl)
      (fun _ => applyCode_ucc _ _ _) (fun _ _ _ n => applyCode_data _ hw hf n)
  case deadline =>
    intro s u source seq hb hk
    have hrow (o : LineRead) : exec (.stakeDeadline source seq o) s = execStakeDeadline source seq o s := rfl
    simp only [hrow, execStakeDeadline, lineFed_back hb hk]
    refine ⟨trivial, trivial, ⟨_, rfl⟩, fun h0 => ⟨_, rfl, ?_⟩⟩
    subst h0
    rfl

end Sys2Proof.Proofs.OrderReset
end

section
/-! The echo of a report (O41): a record for the Backsight alone is not put in the queue of the active unit, and the third clause
does not ask that the Backsight be another unit than the active one. -/
namespace Sys2Proof.Proofs.Echo

open Sys2Proof.Machine

/-- ECHO_ISSUE in time, with room in the Backsight's queue, stakes an ECHO record at the report's UCC (03 R81). -/
theorem execEchoIssue_inTime {s : State} {b : UnitId} {l : CoreId} {ucc : Nat} {kind : BitVec 8} {index : BitVec 24}
    (hb : backUnit s = some b) (hr : (l.val, ucc, kind, index) ∈ s.hub.reports) (ht : (getUnit s b).ucc + 256 ≤ ucc)
    (hn : echoCount (getUnit s b) < 64) : execEchoIssue l ucc kind index true s =
      .next (stakeSvcNow { s with hub := { s.hub with reports := s.hub.reports.erase (l.val, ucc, kind, index) } } ucc true
        (.echo l kind index)) := by
  have hx : ∀ h : HubState, getUnit { s with hub := h } b = getUnit s b := fun _ => rfl
  simp [execEchoIssue, hb, hr, hx, not_lt.2 ht, hn]

/-- A record for the Backsight alone leaves the active unit's queue as it was, whichever unit the Backsight is (03 R81). -/
theorem feed_stakeSvcNow_fore (s : State) (stamp : Nat) (b : StakeBody) :
    (getUnit (stakeSvcNow s stamp true b) (foreUnit s)).feed = (getUnit s (foreUnit s)).feed := by
  have hre : Issue.reaches s (Issue.svcRecord s stamp true b) (foreUnit s) = false := by
    simp [Issue.reaches, Issue.svcRecord]
  rw [Issue.getUnit_stakeSvcNow, hre, if_neg Bool.false_ne_true]

/-- A re-level that verifies (04 R121), with the active unit itself named as the one that joins. -/
def joinsActive : Relevel :=
  { join := .u0, kind := 1, full := false, rate := 400, maxres := 16, maxpass := 8, force := false, auto := true, chan := none
    v2 := false, tag := 0, phase := 6, passes := 0, step := 0, base := 0, useB := false, freezeAt := none, nres := 0, f := 0, e := 0 }

/-- Unit 0 is simplex and active, and the hub takes it for the Backsight too. Core 0's retry at UCC 256 has been reported. -/
def activeIsBack : State :=
  { u0 := { lvl := { status := 2 } }, hub := { relevel := some joinsActive, reports := [(0, 256, 1, 0)] } }

/-- The premises of the clause on an echo in time hold there, for core 0. -/
theorem activeIsBack_premises : backUnit activeIsBack = some .u0 ∧ isFed activeIsBack .u0 = true ∧
    (((0 : CoreId).val, 256, 1, 0) : Nat × Nat × BitVec 8 × BitVec 24) ∈ activeIsBack.hub.reports ∧
    (getUnit activeIsBack .u0).ucc + 256 ≤ 256 ∧ echoCount (getUnit activeIsBack .u0) < 64 := by decide

/-- Refutes O41: where the re-level's joining unit is the active unit, an echo in time is staked for a Backsight that is the active unit,
and no record for the Backsight alone is put in the active unit's queue (`feedUnits`); the clause claims that it stands there. The
counterexample is a state that meets the premises as they are stated, which do not ask that the Backsight be another unit than the active
one; nothing is said here of the states that a run from reset reaches. -/
theorem not_retriesEchoesAndSparing : ¬ Obligations.RetriesEchoesAndSparing := by
  unfold Obligations.RetriesEchoesAndSparing
  rintro ⟨-, -, hecho, -⟩
  obtain ⟨hb, hfed, hr, ht, hn⟩ := activeIsBack_premises
  obtain ⟨t, hexec, -, hfeed, -⟩ := hecho activeIsBack .u0 0 256 1 0 hb hfed hr ht hn
  rw [Laws.exec_echoIssue, execEchoIssue_inTime hb hr ht hn] at hexec
  have hkept : (getUnit t .u0).feed = (getUnit activeIsBack .u0).feed := by
    rw [← Host.Outcome.next.inj hexec]
    exact feed_stakeSvcNow_fore _ 256 _
  rw [hkept] at hfeed
  exact absurd (List.self_eq_append_right.1 hfeed) (List.cons_ne_nil _ _)

end Sys2Proof.Proofs.Echo
end

section
/-! The phases of a re-level (O43): what the closure hub stakes leaves the hub as it was, so that a phase recorded in the hub
stands there when the row ends. -/
namespace Sys2Proof.Proofs.Phases

open Sys2Proof.Machine

@[simp] theorem feedUnits_hub (s : State) (k : Stake) : (feedUnits s k).hub = s.hub := by
  simp only [feedUnits]
  split <;> split <;> simp

@[simp] theorem issueSvc_hub (s : State) (fixed : Option Nat) (b : StakeBody) : (issueSvc s fixed b).hub = s.hub := by
  unfold issueSvc
  split
  · rfl
  · split
    · rw [Issue.stakeSvcNow_eq, feedUnits_hub, Issue.booked]
    · rfl

/-- What the hub records in the units' levelled registers leaves the hub (04 R128). -/
@[simp] theorem hubCfg_hub (s : State) (e : CfgEffect) : (hubCfg s e).hub = s.hub := by
  unfold hubCfg
  split
  · simp [modBoth]
  · exact issueSvc_hub _ _ _

/-- The phase recorded stands in the hub. -/
theorem relevelTo_relevel (s : State) (r : Relevel) (phase : Nat) :
    (relevelTo s r phase).hub.relevel = some { r with phase := phase } := by
  rw [relevelTo, hubCfg_hub]

/-- The freeze is set for the first boundary that a record closed now can name (04 R121 phase 5). -/
theorem setFreeze_relevel (s : State) (r : Relevel) :
    (setFreeze s r).hub.relevel = some { r with freezeAt := some (boundaryStamp s) } := by
  rw [setFreeze, hubCfg_hub]

/-- Firmware's one attempt after a drop is spent (04 R117). -/
def attempted (s : State) : State := { s with sahya := { s.sahya with auto := false } }

/-- The re-level that firmware starts under AUTO_RELEVEL = 2: of the other unit, incremental where it can be, with the start
image's values (04 R117). -/
def autoRelevelOf (s : State) : Relevel :=
  relevelOf (attempted s) (foreUnit s).other 2 s.boot.startImg.rate s.boot.startImg.maxres s.boot.startImg.maxpass
    s.boot.startImg.force true s.sahya.route false 0

theorem execAutoRelevel_starts {s : State} (ha : s.sahya.auto = true) (hup : sahyaUp s = true) (hoff : isOff s = false)
    (hl : lvlState (foreState s) = 2) (hset : bitsOf (foreState s).clo.cfg 1 2 = 2)
    (hcause : bitsOf (foreState s).clo.drop 0 8 ≠ 8) (hcode : relevelCode (attempted s) (foreUnit s).other 2 = ccOk) :
    execAutoRelevel s = .next (relevelStart (attempted s) (autoRelevelOf s)) := by
  simp only [execAutoRelevel]
  rw [if_neg (by simp [ha, hup, hoff, hl, hset]), hset]
  have htaken : ¬ ((2 : Nat) = 1 ∧ (bitsOf (foreState s).clo.drop 0 8 = 3 ∨ !bitOf (foreState s).clo.drop 11)) := by simp
  exact if_neg (not_or.2 ⟨hcause, not_or.2 ⟨htaken, not_not.2 hcode⟩⟩)

section Phase
/-! Each row that ends a phase, by the phase that it finds. -/
variable {s : State} {r : Relevel} (hr : s.hub.relevel = some r)
include hr

/-- The end of phase 1, the joining unit prepared or not (04 R121, R126). -/
theorem execPrepareEnd_eq (hp : r.phase = 1) (ok : Bool) :
    execPrepareEnd ok s = .next (if ok then relevelTo (prepared s r) r 2 else relevelAbort s 0x20) := by
  cases ok <;> simp [execPrepareEnd, hr, hp]

/-- The end of phase 2: the first pass over the copy map that has been formed (04 R121). -/
theorem execUnionEnd_eq (hp : r.phase = 2) : execUnionEnd s = .next (relevelTo
    (passBegin (modUnit s r.join.other (fun a => formCopyMap a (getUnit s r.join) r.full r.useB)) r) r 3) := by
  simp [execUnionEnd, hr, hp]

end Phase

/-- The re-level once another pass has been counted. -/
def counted (r : Relevel) : Relevel := { r with passes := r.passes + 1 }

/-- The hub with another pass counted. -/
def passCounted (s : State) (r : Relevel) : State := { s with hub := { s.hub with relevel := some (counted r) } }

section Pass
/-! A copy pass while no freeze is set. -/
variable {s : State} {r : Relevel} (hr : s.hub.relevel = some r) (hz : r.freezeAt = none)
include hr hz

/-- The end of a pass, in the order of 04 R121: the freeze where the residue allows it, the end after the last pass, write-through,
another pass of the same phase. -/
theorem execCopyPassEnd_eq (hp : r.phase = 3 ∨ r.phase = 4) : execCopyPassEnd s =
    if r.phase = 4 ∧ (copyRes s (counted r)).1 ≤ r.maxres ∧ (copyRes s (counted r)).2 ≤ 512 then
      .next (setFreeze (passCounted s r) (counted r))
    else if r.maxpass ≤ r.passes + 1 then
      if r.force then .next (setFreeze (passCounted s r) (counted r)) else .next (noConverge (passCounted s r) (counted r))
    else if r.phase = 3 ∧ (copyRes s (counted r)).1 ≤ 4 * r.maxres then
      .next (relevelTo (passBegin (modUnit (passCounted s r) r.join.other (fun a => setWt a true)) (counted r)) (counted r) 4)
    else .next (relevelTo (passBegin (passCounted s r) (counted r)) (counted r) r.phase) := by
  have hruns : ¬ ((r.phase ≠ 3 ∧ r.phase ≠ 4) ∨ r.freezeAt.isSome) := by
    rintro (⟨h3, h4⟩ | hset)
    · exact hp.elim h3 h4
    · simp [hz] at hset
  simp only [execCopyPassEnd, hr]
  rw [if_neg hruns]
  rfl

/-- A pass of phase 3 that is not the last, with a small residue: write-through begins (04 R121 phase 4). -/
theorem execCopyPassEnd_writeThrough (hp : r.phase = 3) (hn : r.passes + 1 < r.maxpass)
    (hd : (copyRes s (counted r)).1 ≤ 4 * r.maxres) : execCopyPassEnd s = .next (relevelTo
      (passBegin (modUnit (passCounted s r) r.join.other (fun a => setWt a true)) (counted r)) (counted r) 4) := by
  simp [execCopyPassEnd_eq hr hz (.inl hp), hp, not_le.2 hn, hd]

/-- A pass of phase 3 that is not the last, with a larger residue: the next pass of phase 3 begins (04 R121). -/
theorem execCopyPassEnd_again (hp : r.phase = 3) (hn : r.passes + 1 < r.maxpass)
    (hd : 4 * r.maxres < (copyRes s (counted r)).1) :
    execCopyPassEnd s = .next (relevelTo (passBegin (passCounted s r) (counted r)) (counted r) 3) := by
  simp [execCopyPassEnd_eq hr hz (.inl hp), hp, not_le.2 hn, not_le.2 hd]

/-- A pass of phase 4 within the residue: the freeze is set (04 R121 phase 5). -/
theorem execCopyPassEnd_freeze (hp : r.phase = 4) (hd : (copyRes s (counted r)).1 ≤ r.maxres)
    (hf : (copyRes s (counted r)).2 ≤ 512) : execCopyPassEnd s = .next (setFreeze (passCounted s r) (counted r)) := by
  rw [execCopyPassEnd_eq hr hz (.inr hp), if_pos ⟨hp, hd, hf⟩]

end Pass

/-- Settles O43: the phases by `relevelTo_relevel` and `setFreeze_relevel`, with what each row does in its phase. -/
theorem relevelPhasesFollow : Obligations.RelevelPhasesFollow := by
  unfold Obligations.RelevelPhasesFollow
  refine ⟨?auto, ?autoSpent, ?prepared, ?unprepared, ?union, ?pass, ?freeze, ?freezeStep, ?resumed, ?sweepB, ?sweepA⟩
  case auto =>
    intro s ha hup hoff hl hset hcause s0 hcode
    exact ⟨autoRelevelOf s, execAutoRelevel_starts ha hup hoff hl hset hcause hcode, rfl, rfl, rfl⟩
  case autoSpent =>
    intro s ha
    simp [execAutoRelevel, ha]
  case prepared =>
    intro s r hr hp
    exact ⟨_, execPrepareEnd_eq hr hp true, relevelTo_relevel _ r 2⟩
  case unprepared =>
    intro s r hr hp
    exact execPrepareEnd_eq hr hp false
  case union =>
    intro s r hr hp
    exact ⟨_, execUnionEnd_eq hr hp, relevelTo_relevel _ r 3⟩
  case pass =>
    intro s r hr hp hz hn r1
    refine ⟨fun hd => ⟨_, execCopyPassEnd_writeThrough hr hz hp hn hd, relevelTo_relevel _ _ 4⟩, fun hd => ?_⟩
    have hkept : { r1 with phase := 3 } = r1 := by rw [← hp]
    exact ⟨_, execCopyPassEnd_again hr hz hp hn hd, (relevelTo_relevel _ _ 3).trans (congrArg some hkept)⟩
  case freeze =>
    intro s r hr hp hz r1 hd hf
    exact ⟨_, _, execCopyPassEnd_freeze hr hz hp hd hf, setFreeze_relevel _ _, rfl⟩
  case freezeStep =>
    intro s r hfrozen hresume hr hp hstep
    simp [execFreezeStepEnd, hfrozen, hresume, hr, hp, hstep]
  case resumed =>
    intro s hfrozen hresume
    simp [execFreezeStepEnd, hfrozen, hresume]
  case sweepB =>
    intro s u
    refine ⟨_, rfl, ?_⟩
    rw [Laws.getUnit_modUnit]
    exact ⟨rfl, rfl, rfl⟩
  case sweepA =>
    intro s u
    refine ⟨_, rfl, ?_⟩
    rw [Laws.getUnit_modUnit]
    exact ⟨rfl, rfl, rfl⟩

end Sys2Proof.Proofs.Phases
end

section
/-! Station commands (O44): what a change of one station leaves, which operation a DB_CMD word runs, and what each operation does in
the state that it is for. -/
namespace Sys2Proof.Proofs.Stations

open Sys2Proof.Machine Sys2Proof.Claims

-- what rests on the fieldbook alone
theorem fbWord_of_fb {x y : UnitState} (h : x.fb = y.fb) : fbWord x = fbWord y := by
  funext off
  simp only [fbWord, fbBytes, h]

theorem recWalk_of_fb {x y : UnitState} (h : x.fb = y.fb) (b n bsn off : Nat) : recWalk x b n bsn off = recWalk y b n bsn off := by
  induction n generalizing bsn off with
  | zero => rfl
  | succ n ih => simp [recWalk, ih, ringStep, bookBase, bookSize, bookWord, recLen, recWord, fbWord_of_fb h]

theorem outOpen_of_fb {x y : UnitState} (h : x.fb = y.fb) (n : Nat) (t : Station) : outOpen x n t = outOpen y n t := by
  simp only [outOpen, liveRecs, recWalk_of_fb h, headBsn, tailBsn, bookTail, bookWord, recKind, recStation, recState, recWord,
    fbWord_of_fb h]

-- a station changed
@[simp] theorem stnS_modS (s : State) (u : UnitId) (n : Nat) (f : Station → Station) : stnS (modS s u n f) u n = f (stnS s u n) := by
  simp [stnS, modS, modStn, setStn, stnOf]

theorem stnS_modS_ne (s : State) (u : UnitId) {n m : Nat} (f : Station → Station) (h : m ≠ n) :
    stnS (modS s u n f) u m = stnS s u m := by
  simp [stnS, modS, modStn, setStn, stnOf, Laws.tabGet_tabSet_ne _ _ _ h.symm]

@[simp] theorem getUnit_modS (s : State) (u : UnitId) (n : Nat) (f : Station → Station) :
    getUnit (modS s u n f) u = modStn (getUnit s u) n f := Laws.getUnit_modUnit s u _

@[simp] theorem fb_modStn (x : UnitState) (n : Nat) (f : Station → Station) : (modStn x n f).fb = x.fb := rfl

@[simp] theorem grants_modStn (x : UnitState) (n : Nat) (f : Station → Station) : (modStn x n f).trv.grants = x.trv.grants := rfl

@[simp] theorem stationSlots_modStn (x : UnitState) (n : Nat) (f : Station → Station) (m : Nat) :
    stationSlots (modStn x n f) m = stationSlots x m := rfl

@[simp] theorem outOpen_modStn (x : UnitState) (n : Nat) (f : Station → Station) (m : Nat) (t : Station) :
    outOpen (modStn x n f) m t = outOpen x m t := outOpen_of_fb (fb_modStn x n f) m t

-- the start of a command
@[simp] theorem stnS_begun (s : State) (u : UnitId) (n : Nat) : stnS (begun s u n) u n =
    { stnS s u n with
      busy := true, waitCmd := none
      reserved := if (stnS s u n).cqKnown then (stnS s u n).reserved + 1 else (stnS s u n).reserved } := stnS_modS _ _ _ _

/-- A command for a BUSY station is ignored (05 R135). -/
theorem stationCmd_busy {s : State} {u : UnitId} {n : Nat} (h : (stnS s u n).busy = true) (w : Word) : stationCmd s u n w = s := by
  simp [stationCmd, h]

/-- A command that is neither ignored nor held executes (05 R135, R552). -/
theorem stationCmd_taken {s : State} {u : UnitId} {n : Nat} (h : takesCmd s u n) (w : Word) :
    stationCmd s u n w = (runCmd s u n w).getD s := by
  obtain ⟨hbusy, hroom⟩ := h
  have hheld : ¬ ((stnS s u n).cqKnown && !cqRoom (stnS s u n) 0 1) = true := by
    cases hk : (stnS s u n).cqKnown
    · simp
    · simp [hroom hk]
  simp only [stationCmd, hbusy, if_neg hheld, Bool.false_eq_true, if_false]

-- the operation of a DB_CMD word (05 R134)
theorem runCmd_quiesce (s : State) (u : UnitId) (n : Nat) : runCmd s u n 2 = doQuiesce (begun s u n) u n := rfl
theorem runCmd_close (s : State) (u : UnitId) (n : Nat) : runCmd s u n 3 = doClose (begun s u n) u n := rfl
theorem runCmd_replay (s : State) (u : UnitId) (n : Nat) : runCmd s u n 4 = doReplay (begun s u n) u n := rfl

/-- The DB_CMD word of OPEN: the operation, RESUME, the descriptor's address in lines. -/
def openWord (resume : Bool) (desc : BitVec 52) : Word := BitVec.ofNat 64 (1 + 16 * bit resume + desc.toNat / 128 * 128)

theorem openWord_toNat (resume : Bool) (desc : BitVec 52) :
    (openWord resume desc).toNat = 1 + 16 * bit resume + desc.toNat / 128 * 128 := by
  have hlt := desc.isLt
  have hbit : bit resume ≤ 1 := by cases resume <;> decide
  rw [openWord, BitVec.toNat_ofNat, Nat.mod_eq_of_lt (by omega)]

theorem openWord_fields (resume : Bool) (desc : BitVec 52) :
    bitsOf (openWord resume desc) 0 4 = 1 ∧ bitOf (openWord resume desc) 4 = resume ∧ bitsOf (openWord resume desc) 5 2 = 0 ∧
    bitsOf (openWord resume desc) 7 45 = desc.toNat / 128 ∧ bitsOf (openWord resume desc) 52 12 = 0 := by
  have hlt := desc.isLt
  simp only [bitsOf, bitOf, BitVec.getLsbD, Nat.testBit_eq_decide_div_mod_eq, openWord_toNat]
  cases resume
  · simp only [bit, Bool.false_eq_true, if_false, decide_eq_false_iff_not]
    omega
  · simp only [bit, if_true, decide_eq_true_eq]
    omega

/-- OPEN of a CLOSED station (05 R135). -/
theorem runCmd_open {s : State} {u : UnitId} {n : Nat} (hc : (stnS s u n).st = .closed) (resume : Bool) (desc : BitVec 52) :
    runCmd s u n (openWord resume desc) = doOpen (begun s u n) u n resume (desc.toNat / 128 * 128) := by
  obtain ⟨hop, hresume, hlow, haddr, hhigh⟩ := openWord_fields resume desc
  simp [runCmd, hop, hresume, hlow, haddr, hhigh, hc, begun]

-- each command in the state that it takes
section Begun
variable {s : State} {u : UnitId} {n : Nat}

/-- Without a grant OPEN fails with NOT_GRANTED (05 R133, R135). -/
theorem doOpen_ungranted (hg : tabGet (fun _ => (none : Grant)) (getUnit s u).trv.grants n = none) (resume : Bool) (addr : Nat) :
    doOpen s u n resume addr = some (openFail s u n 2) := by
  simp [doOpen, hg]

/-- The station with the descriptor that an engine has read. -/
def described (t : Station) (bs : List Byte) (addr : Nat) : Station :=
  { t with desc := (bytesWords 16 bs).take 13, peer := [], descAddr := addr }

/-- CQ 0 known from the descriptor, with the entry for OPEN's own completion kept (05 R552). -/
def cqSet (s : State) (u : UnitId) (n : Nat) : State :=
  modS s u n (fun t => { t with cqKnown := ringLog (dW t 6) != 0, reserved := 1 })

/-- OPEN of a granted station whose descriptor and peer entry pass their checks (05 R133, R135). -/
theorem doOpen_granted {p : BitVec 6} {x : UnitState} {bs : List Byte} {addr : Nat} {s2 : State}
    (hg : tabGet (fun _ => (none : Grant)) (getUnit s u).trv.grants n = some p)
    (hr : dmaRead (getUnit s u) (stnAgent n) p.toNat addr 128 = (x, bs, .ok))
    (hp : stnParcel (described (stnS (setUnit s u x) u n) bs addr) = p.toNat)
    (hd : descOk (described (stnS (setUnit s u x) u n) bs addr) = true)
    (hb : descBookOk x (described (stnS (setUnit s u x) u n) bs addr) = true)
    (ho : openPeer (modS (setUnit s u x) u n (fun _ => described (stnS (setUnit s u x) u n) bs addr)) u n = some (s2, true))
    (resume : Bool) : doOpen s u n resume addr = openChecked (cqSet s2 u n) u n resume := by
  unfold described at hp hd hb ho
  simp [doOpen, hg, hr, hp, hd, hb, ho, cqSet]

/-- The station OPEN with fresh sequence numbers, before its transport is set up (05 R137). -/
def openedFresh (s : State) (u : UnitId) (n : Nat) : State :=
  modS (modUnit s u (fun x => openSeqs x n false)) u n (fun t => { t with st := .opened })

theorem openChecked_fresh (hj : stnJournal (stnS s u n) = false) :
    openChecked s u n false = cmdDone (openConn (openedFresh s u n) u n false) u n 0 := by
  simp [openChecked, hj, openedFresh]

theorem doQuiesce_opened (h : (stnS s u n).st = .opened) :
    doQuiesce s u n = some (modS s u n (fun t => { t with st := .quiescing })) := by
  simp [doQuiesce, h]

/-- CLOSE on an established connection: CLOSE is emitted and the connection closes (06 R187). -/
def closing (s : State) (u : UnitId) (n : Nat) : State :=
  modConn (emitSeg s u n .close { segBase (getUnit s u) n (stnS s u n) with ackv := false, ack := 0, sack := [] }) u n
    (fun c => { c with st := .closing })

/-- CLOSE of a QUIESCED station with nothing left to do (05 R135). -/
theorem doClose_idle (hq : (stnS s u n).st = .quiesced) (hs : stationSlots (getUnit s u) n = 0)
    (ho : outOpen (getUnit s u) n (stnS s u n) = false) (ht : (stnS s u n).txProd = (stnS s u n).txc) : doClose s u n =
      if (stnS s u n).conn.st = .established then some (resetLadder (closing s u n) u n) else finishClose s u n := by
  simp [doClose, hq, hs, ho, ht, closing]

/-- REPLAY that goes on with no record left to deliver: the station is OPEN again and acknowledges (05 R165 steps 3 and 4). -/
theorem doReplay_drained (hr : (stnS s u n).st = .replaying) (hi : (stnS s u n).replay.isSome = true)
    (hj : stnJournal (stnS s u n) = false) : doReplay s u n =
      (ackNow (modS s u n (fun t => { t with st := .opened, replay := none })) u n true).bind (fun s => cmdDone s u n 0) := by
  simp only [doReplay, hr, hi, hj, ne_eq, not_true_eq_false, if_false, if_true, Bool.false_eq_true, List.filter_nil, replayIn]
  generalize ackNow _ u n true = a
  cases a <;> rfl

end Begun

-- the rows of the commands
section Taken
variable {s : State} {u : UnitId} {n : StationId} (h : takesCmd s u n)
include h

theorem execStationOpen_taken (hc : (stnS s u n).st = .closed) (resume : Bool) (desc : BitVec 52) :
    execStationOpen u n resume desc s = .next ((doOpen (begun s u n) u n resume (desc.toNat / 128 * 128)).getD s) := by
  rw [← runCmd_open hc, ← stationCmd_taken h]
  rfl

theorem execStationQuiesce_taken : execStationQuiesce u n s = .next ((doQuiesce (begun s u n) u n).getD s) := by
  rw [execStationQuiesce, stationCmd_taken h, runCmd_quiesce]

theorem execStationClose_taken : execStationClose u n s = .next ((doClose (begun s u n) u n).getD s) := by
  rw [execStationClose, stationCmd_taken h, runCmd_close]

theorem execStationReplay_taken : execStationReplay u n s = .next ((doReplay (begun s u n) u n).getD s) := by
  rw [execStationReplay, stationCmd_taken h, runCmd_replay]

end Taken

/-- The command that waits executes once CQ 0 has room for its completion (05 R552). -/
theorem execDeferredCommand_room {s : State} {u : UnitId} {n : StationId} {w : Word} (hw : (stnS s u n).waitCmd = some w)
    (hr : cqRoom (stnS s u n) 0 1 = true) : execDeferredCommand u n s = .next ((runCmd s u n w).getD s) := by
  simp [execDeferredCommand, hw, hr]

/-- Settles O44: each row takes its command by `stationCmd_taken`, and the command acts in the state that it is for. -/
theorem stationCommands : Obligations.StationCommands := by
  unfold Obligations.StationCommands
  refine ⟨?opened, ?ungranted, ?quiesce, ?quiesced, ?close, ?replay, ?deferred, ?busy⟩
  case opened =>
    intro s u n desc p x bs s2 b t0 hcmd hclosed hgrant hread hparcel hdesc hbook hpeer hplain
    have hopen := doOpen_granted hgrant hread hparcel hdesc hbook hpeer false
    rw [openChecked_fresh (by rw [cqSet, stnS_modS]; exact hplain)] at hopen
    refine ⟨openedFresh (cqSet s2 u n) u n, ?_, by rw [openedFresh, stnS_modS]⟩
    rw [Laws.exec_stationOpen, execStationOpen_taken hcmd hclosed, hopen]
  case ungranted =>
    intro s u n resume desc hcmd hknown hclosed hgrant
    refine ⟨openFail (begun s u n) u n 2, ?_, ?_⟩
    · rw [Laws.exec_stationOpen, execStationOpen_taken hcmd hclosed, doOpen_ungranted (by rw [begun, getUnit_modS]; exact hgrant)]
      rfl
    · simp [openFail, hknown]
  case quiesce =>
    intro s u n hcmd hst
    rw [Laws.exec_stationQuiesce, execStationQuiesce_taken hcmd, doQuiesce_opened (by rw [stnS_begun]; exact hst), Option.getD_some]
  case quiesced =>
    intro s u n t hst hidle hdone
    simp [execQuiesceComplete, hst, hidle, hdone]
  case close =>
    intro s u n hcmd hst hslots hout htx
    have hclose := doClose_idle (s := begun s u n) (by rw [stnS_begun]; exact hst)
      (by rw [begun, getUnit_modS, stationSlots_modStn]; exact hslots)
      (by rw [stnS_begun, begun, getUnit_modS, outOpen_modStn]; exact hout) (by rw [stnS_begun]; exact htx)
    have hconn : (stnS (begun s u n) u n).conn = (stnS s u n).conn := by rw [stnS_begun]
    rw [hconn] at hclose
    rw [Laws.exec_stationClose, execStationClose_taken hcmd, hclose]
    refine ⟨fun hest => ⟨closing (begun s u n) u n, ?_, ?_⟩, fun hest => ?_⟩
    · rw [if_pos hest, Option.getD_some]
    · rw [closing, modConn, stnS_modS]
    · rw [if_neg hest]
  case replay =>
    intro s u n t hcmd hst hcont hplain hend
    have hreplay := doReplay_drained (s := begun s u n) (by rw [stnS_begun]; exact hst) (by rw [stnS_begun]; exact hcont)
      (by rw [stnS_begun]; exact hplain)
    rw [Laws.exec_stationReplay, execStationReplay_taken hcmd, hreplay, hend, Option.getD_some]
  case deferred =>
    intro s u n hwait hroom hst
    have hquiesce := doQuiesce_opened (s := begun s u n) (by rw [stnS_begun]; exact hst)
    rw [Laws.exec_deferredCommand, execDeferredCommand_room hwait hroom, runCmd_quiesce, hquiesce, Option.getD_some]
  case busy =>
    intro s u n resume desc hbusy
    simp [execStationOpen, execStationQuiesce, execStationClose, execStationReplay, stationCmd_busy hbusy]

end Sys2Proof.Proofs.Stations
end

section
/-! Doorbells and TX entries (O45): the entry of the TX ring taken, and what a settlement leaves of the stations. -/
namespace Sys2Proof.Proofs.TxEntries

open Sys2Proof.Machine Sys2Proof.Claims Sys2Proof.Proofs.Stations

/-- The entry at TXC, taken in its order, is left to its operation (05 R144, R145, R552). -/
theorem takeTx_taken {s s1 : State} {u : UnitId} {n op : Nat} {e : TxEntry} (h : takesEntry s u n op s1 e)
    (act : State → TxEntry → Option State) : takeTx s u n op act = act s1 e := by
  obtain ⟨hst, hwork, hring, hcarry, ⟨s0, bs, hread, rfl, rfl⟩, rfl, hgood, hroom⟩ := h
  have htakes : ¬ ((stnS s u n).st ≠ .opened ∨ (stnS s u n).txProd = (stnS s u n).txc ∨ ringLog (dW (stnS s u n) 1) = 0 ∨
      ¬ (stnTransport (stnS s u n) = 2 ∨ (stnS s u n).conn.estab = true)) := by
    simp only [hst, hwork, hring, hcarry, ne_eq, not_true_eq_false, or_false, not_false_eq_true]
  simp only [takeTx]
  rw [if_neg htakes, hread]
  simp [hgood, hroom]

/-- A fieldbook write of an engine leaves the unit's stations. -/
theorem trv_fbEngPut (x : UnitState) (eng off : Nat) (bs : List Byte) (k : FbCont) : (fbEngPut x eng off bs k).trv = x.trv :=
  OrderReset.trv_of_besides ((Edge.besides_fbAccept _ _).trans rfl)

@[simp] theorem stnS_doSettleRec (s : State) (u : UnitId) (n k : Nat) (v : Slot) (tag link : Word) (m : Nat) :
    stnS (doSettleRec s u n k v tag link) u m = stnS s u m := by
  simp only [stnS, stnOf, doSettleRec, recPutState, Laws.getUnit_modUnit, trv_fbEngPut]

/-- SETTLE of an open slot: its ERROR entry is given back and the record is settled (05 R145). -/
theorem doSettle_open {s : State} {u : UnitId} {n : Nat} {e : TxEntry} {v : Slot} (h : settleSlot (getUnit s u) n e.slot = some v) :
    doSettle s u n e = some (doSettleRec (modS s u n (fun t => { t with reserved := t.reserved - 1 })) u n e.slot v e.tag
      (BitVec.allOnes 64)) := by
  simp only [doSettle, h]

/-- Settles O45: a doorbell changes one station by `stnS_modS`, and an entry acts by `takeTx_taken`. -/
theorem doorbellsAndEntries : Obligations.DoorbellsAndEntries := by
  unfold Obligations.DoorbellsAndEntries
  refine ⟨?tx, ?rx, ?cq, ?send, ?sendSettle, ?settle⟩
  case tx => exact fun s u n _ => ⟨_, rfl, stnS_modS s u n _, fun _ => stnS_modS_ne s u _⟩
  case rx => exact fun s u n _ _ => ⟨_, rfl, stnS_modS s u n _, fun _ => stnS_modS_ne s u _⟩
  case cq => exact fun s u n _ _ => ⟨_, rfl, stnS_modS s u n _, fun _ => stnS_modS_ne s u _⟩
  case send =>
    intro s u n s1 e t htakes hsend
    rw [Laws.exec_send, execSend, takeTx_taken htakes, hsend, Option.getD_some]
  case sendSettle =>
    intro s u n s1 e t htakes hsend
    rw [Laws.exec_sendSettle, execSendSettle, takeTx_taken htakes, hsend, Option.getD_some]
  case settle =>
    intro s u n s1 e v htakes hslot
    refine ⟨_, by rw [Laws.exec_settle, execSettle, takeTx_taken htakes, doSettle_open hslot, Option.getD_some], ?_⟩
    rw [stnS_doSettleRec, stnS_modS]
    exact ⟨rfl, rfl⟩

end Sys2Proof.Proofs.TxEntries
end

section
/-! Segments and timers (O48): a segment reaches its action by its checks alone, and a timer acts in the state at which it falls due. -/
namespace Sys2Proof.Proofs.Segments

open Sys2Proof.Machine Sys2Proof.Claims Sys2Proof.Proofs.Outputs Sys2Proof.Proofs.Stations

-- what each change leaves of the station it is for
@[simp] theorem stnS_modConn (s : State) (u : UnitId) (n : Nat) (f : Conn → Conn) :
    stnS (modConn s u n f) u n = { stnS s u n with conn := f (stnS s u n).conn } := stnS_modS s u n _

@[simp] theorem stnS_discOther (s : State) (u : UnitId) (n : Nat) :
    stnS (discOther s u n) u n = { stnS s u n with discOther := (stnS s u n).discOther + 1 } := stnS_modS s u n _

@[simp] theorem stnS_startLadder (s : State) (u : UnitId) (n : Nat) :
    stnS (startLadder s u n) u n = { stnS s u n with conn := { (stnS s u n).conn with
      ladder := some ((stnS s u n).conn.ladder.getD (ladderStep s u (stnS s u n) 0)) } } := stnS_modS s u n _

/-- Time that passes in a unit leaves its stations. -/
theorem stnS_of_timeTo {s s1 : State} {u : UnitId} {ucc : Nat} (h : timeTo s u ucc = some s1) (n : Nat) : stnS s1 u n = stnS s u n := by
  simp [timeTo_some h, stnS, stnOf]

section Received
/-! A segment received (06 R185, R193): its type enters by `segValid` alone. -/
variable {s s1 : State} {u : UnitId} {n : Nat} {ty : SegType} {g : Segment}

theorem withSeg_failed {s0 : State} (hst : (stnS s u n).st ≠ .closed) (hfails : segValid s u n ty g = (s0, false))
    (act : State → Option State) : withSeg s u n ty g act = discOther s0 u n := by
  simp only [withSeg, if_neg hst, hfails]

theorem withSeg_taken (h : segTaken s u n ty g s1) (act : State → Option State) : withSeg s u n ty g act = (act s1).getD s := by
  obtain ⟨hst, s0, hvalid, rfl⟩ := h
  simp only [withSeg, if_neg hst, hvalid]

/-- A segment that passes its checks acts, where its action waits for no transaction. -/
theorem withSeg_acts (h : segTaken s u n ty g s1) {act : State → Option State} {t : State} (hact : act s1 = some t) :
    withSeg s u n ty g act = t := by
  rw [withSeg_taken h, hact, Option.getD_some]

end Received

section Handshake
/-! The handshake and the close, each in the connection state that it is for (06 R187, R188, R196). -/
variable {s : State} {u : UnitId} {n : Nat} {g : Segment}

/-- A valid INIT in LISTEN is answered with an INIT_ACK, and its ladder starts. -/
theorem gotInit_listen {b : HsBody} (hbody : g.body = some b) (hst : (stnS s u n).conn.st = .listen) :
    gotInit s u n g = some (resetLadder (modConn (answerInit s u n g b false) u n (fun c => { c with st := .initRcvd })) u n) := by
  simp only [gotInit, hbody, hst]

/-- A valid INIT_ACK in INIT_SENT establishes the connection. -/
theorem gotInitAck_initSent {b : HsBody} (hbody : g.body = some b) (hst : (stnS s u n).conn.st = .initSent) :
    gotInitAck s u n g = establish (modConn s u n (fun c => { c with peerNonce := b.nonce })) u n b (some b.nonce) := by
  simp only [gotInitAck, hbody, hst, if_true]

/-- A READY that does not echo the NONCE of the INIT_ACK is discarded. -/
theorem gotReady_strange {b pb : HsBody} (hbody : g.body = some b) (hpend : (stnS s u n).conn.pendBody = some pb)
    (hnonce : b.nonce ≠ (stnS s u n).conn.pendNonce) : gotReady s u n g = some (discOther s u n) := by
  simp only [gotReady, hbody, hpend, if_pos hnonce]

/-- A READY that echoes it establishes the pending connection. -/
theorem gotReady_echoes {b pb : HsBody} (hbody : g.body = some b) (hpend : (stnS s u n).conn.pendBody = some pb)
    (hnonce : b.nonce = (stnS s u n).conn.pendNonce) :
    ∃ s2, gotReady s u n g = establish s2 u n pb none ∧ (stnS s2 u n).conn.myConn = (stnS s u n).conn.pendConn := by
  refine ⟨_, by simp only [gotReady, hbody, hpend, hnonce, ne_eq, not_true_eq_false, if_false]; rfl, ?_⟩
  rw [stnS_modConn]

/-- A CLOSE that crosses the station's own is answered, and the station goes on closing. -/
theorem gotClose_closing (hst : (stnS s u n).conn.st = .closing) :
    gotClose s u n = some (emitSeg s u n .closeAck
      { segBase (getUnit s u) n (stnS s u n) with ackv := false, ack := 0, sack := [] }) := by
  simp only [gotClose, hst, if_true]

/-- A new INIT goes out from INIT_SENT, with the ladder at step 0. -/
theorem startInit_sends (s : State) (u : UnitId) (n : Nat) (resume : Bool) :
    ∃ s2, startInit s u n resume = resetLadder (sendInit s2 u n) u n ∧ (stnS s2 u n).conn.st = .initSent ∧
      (stnS s2 u n).conn.resume = resume := by
  refine ⟨_, rfl, ?_⟩
  rw [stnS_modConn]
  exact ⟨rfl, rfl⟩

end Handshake

section Timers
/-! Each timer as it falls due (06 R187 to R193). -/
variable {s s1 : State} {u : UnitId} {n : StationId}

/-- A ladder step before the last is followed by the next, whether or not the path changes. -/
theorem ladderExpire_next {s2 : State} {k : Nat} (hsteps : k + 1 < rtoSteps (getUnit s u) (stnS s u n))
    (hsend : ladderSend s u n = some s2) :
    ∃ t, ladderExpire s u n k = some t ∧ (stnS t u n).conn.ladder.map (fun l => l.1) = some (k + 1) := by
  refine ⟨_, by simp only [ladderExpire, if_neg (Nat.not_le_of_lt hsteps), hsend]; rfl, ?_⟩
  rw [stnS_modS]
  rfl

theorem execRetransmitTimeout_due {k e : Nat} (hladder : (stnS s u n).conn.ladder = some (k, e)) (hdue : timeTo s u e = some s1) :
    execRetransmitTimeout u n s = .next ((ladderExpire s1 u n k).getD s) := by
  simp only [execRetransmitTimeout, hladder, hdue]

theorem execKeepaliveTimeout_due (hst : (stnS s u n).conn.st = .established) (htvt : stnTransport (stnS s u n) = 0)
    (hms : bitsOf (peerW (stnS s u n) 1) 48 16 ≠ 0) (hprobing : (stnS s u n).conn.probing = false)
    (hdue : timeTo s u ((stnS s u n).conn.lastValid + usCycles s (1000 * bitsOf (peerW (stnS s u n) 1) 48 16)) = some s1) :
    execKeepaliveTimeout u n s = .next (startLadder (modConn (emitSeg s1 u n .probe (segBase (getUnit s1 u) n (stnS s u n))) u n
      (fun c => { c with probing := true })) u n) := by
  simp [execKeepaliveTimeout, hst, htvt, hms, hprobing, hdue]

theorem execLostResumeTimer_due (hst : (stnS s u n).conn.st = .lost) (hactive : stnActive (stnS s u n) = true)
    (hdue : timeTo s u ((stnS s u n).conn.lostAt + usCycles s 64000) = some s1) :
    execLostResumeTimer u n s = .next (startInit s1 u n true) := by
  simp [execLostResumeTimer, hst, hactive, hdue]

theorem execNonceTieRetry_due {d : Nat} (htie : (stnS s u n).conn.tie = some d) (hst : (stnS s u n).conn.st = .initSent)
    (hdue : timeTo s u d = some s1) :
    execNonceTieRetry u n s = .next (sendInit (modConn s1 u n (fun c => { c with tie := none })) u n) := by
  simp only [execNonceTieRetry, htie, hst, hdue]

theorem execReassemblyTimeout_due {seq : Nat} {p : Partial} (hpart : (stnS s u n).conn.parts.find? (fun p => p.seq == seq) = some p)
    (hdue : timeTo s u p.deadline = some s1) : execReassemblyTimeout u n seq s =
      .next (discOther (modConn s1 u n (fun c => { c with parts := c.parts.filter (fun q => q.seq ≠ seq) })) u n) := by
  simp only [execReassemblyTimeout, hpart, hdue]

theorem execDeferredAck_due (hack : (stnS s u n).conn.ackDue = true) (hst : (stnS s u n).conn.st = .established)
    (hdue : timeTo s u ((stnS s u n).conn.ackAt + ackInterval s (stnS s u n)) = some s1) :
    execDeferredAck u n s = .next ((sendAck s1 u n (ackValue (getUnit s1 u) n (stnS s u n))).getD s) := by
  simp [execDeferredAck, hack, hst, hdue]

end Timers

/-- Settles O48: a segment enters by `withSeg_failed` or `withSeg_acts`, whatever its type; a timer acts by the lemma of its row. -/
theorem segmentsAndTimers : Obligations.SegmentsAndTimers := by
  unfold Obligations.SegmentsAndTimers
  refine ⟨?failed, ?data, ?ack, ?init, ?initAck, ?ready, ?close, ?closeAck, ?probe, ?ladder, ?keepalive, ?resume, ?tie, ?reassembly,
    ?deferred⟩
  case failed =>
    intro s u n g v s0 hst
    and_intros <;> exact fun hfails => congrArg Host.Outcome.next (withSeg_failed hst hfails _)
  case data =>
    intro s u n g v s1 s2 t htaken hack hdata
    rw [Laws.exec_tvtData, execTvtData, withSeg_acts (t := t) htaken (by simp only [hack, hdata])]
  case ack =>
    intro s u n g s1 t htaken hack
    rw [Laws.exec_tvtAck, execTvtAck, withSeg_acts htaken hack]
  case init =>
    intro s u n g s1 htaken hbody hst
    obtain ⟨b, hb⟩ := Option.isSome_iff_exists.mp hbody
    refine ⟨_, by rw [Laws.exec_tvtInit, execTvtInit, withSeg_acts htaken (gotInit_listen hb hst)], ?_⟩
    rw [stnS_modConn]
  case initAck =>
    intro s u n g b s1 t htaken hbody hst hestablish
    rw [Laws.exec_tvtInitAck, execTvtInitAck, withSeg_acts htaken ((gotInitAck_initSent hbody hst).trans hestablish)]
  case ready =>
    intro s u n g b pb s1 htaken hbody hpend
    rw [Laws.exec_tvtReady, execTvtReady]
    refine ⟨fun hstrange => by rw [withSeg_acts htaken (gotReady_strange hbody hpend hstrange)], fun hechoes => ?_⟩
    obtain ⟨s2, hready, hconn⟩ := gotReady_echoes hbody hpend hechoes
    exact ⟨s2, hconn, by rw [withSeg_taken htaken, hready]⟩
  case close =>
    intro s u n g s1 htaken hst
    rw [Laws.exec_tvtClose, execTvtClose, withSeg_acts htaken (gotClose_closing hst)]
  case closeAck =>
    intro s u n g s1 t htaken hfinish
    rw [Laws.exec_tvtCloseAck, execTvtCloseAck, withSeg_acts htaken hfinish]
  case probe =>
    intro s u n g s1 s2 t htaken hack hsend
    rw [Laws.exec_tvtProbe, execTvtProbe, withSeg_acts (t := t) htaken (by simp only [hack, hsend])]
  case ladder =>
    intro s u n k e s1 s2 hladder hdue hsteps hsend
    obtain ⟨t, hexpire, hnext⟩ := ladderExpire_next hsteps hsend
    exact ⟨t, by rw [Laws.exec_retransmitTimeout, execRetransmitTimeout_due hladder hdue, hexpire, Option.getD_some], hnext⟩
  case keepalive =>
    intro s u n s1 t0 hst htvt hms hprobing hdue
    refine ⟨_, by rw [Laws.exec_keepaliveTimeout, execKeepaliveTimeout_due hst htvt hms hprobing hdue], ?_⟩
    rw [stnS_startLadder, stnS_modConn]
    exact ⟨rfl, rfl⟩
  case resume =>
    intro s u n s1 t0 hst hactive hdue
    obtain ⟨s2, hinit, hsent, hresume⟩ := startInit_sends s1 u n true
    exact ⟨s2, by rw [Laws.exec_lostResumeTimer, execLostResumeTimer_due hst hactive hdue, hinit], hsent, hresume⟩
  case tie =>
    intro s u n d s1 htie hst hdue
    rw [Laws.exec_nonceTieRetry, execNonceTieRetry_due htie hst hdue]
  case reassembly =>
    intro s u n seq p s1 hpart hdue
    refine ⟨_, by rw [Laws.exec_reassemblyTimeout, execReassemblyTimeout_due hpart hdue], ?_⟩
    rw [stnS_discOther, stnS_modConn, stnS_of_timeTo hdue]
    exact ⟨rfl, rfl⟩
  case deferred =>
    intro s u n s1 t t0 hack hst hdue hsend
    rw [Laws.exec_deferredAck, execDeferredAck_due hack hst hdue, hsend, Option.getD_some]

end Sys2Proof.Proofs.Segments
end

section
/-! Comparisons: the flags of a difference as 08 R239 says them and as the model computes them, and the conditions of 07 R226 on them
(O7). -/
namespace Sys2Proof.Proofs.Comparisons

open Sys2Proof.Machine Sys2Proof.Claims

/-- A true result lies outside the signed range exactly when its reduction into that range is another number. -/
theorem outside_eq_bmod {w : Nat} (hw : 0 < w) (r : Int) : outside w r = decide (r.bmod (2 ^ w) ≠ r) := by
  obtain ⟨n, rfl⟩ : ∃ n, w = n + 1 := ⟨w - 1, by omega⟩
  have hpos : 0 < 2 ^ (n + 1) := Nat.two_pow_pos (n + 1)
  have hkept : r.bmod (2 ^ (n + 1)) = r ↔ -(2 : Int) ^ n ≤ r ∧ r < (2 : Int) ^ n := by
    rw [Int.bmod_eq_iff hpos]
    push_cast [Int.pow_succ]
    simp only [sub_self, dvd_zero, and_true]
    omega
  simp only [outside, Nat.add_sub_cancel, ne_eq, hkept, decide_eq_decide]
  omega

theorem toNat_sub_eq_zero {w : Nat} (x y : BitVec w) : (x - y).toNat = 0 ↔ x = y := by
  rw [← sub_eq_zero (a := x), BitVec.toNat_eq, BitVec.ofNat_eq_ofNat, BitVec.toNat_zero]

/-- The flags of a comparison at a width, as the model sets them from a difference (08 R239). -/
theorem setNzcv_subFull {w : Nat} (hw : 0 < w) (p : Psw) (x y : BitVec w) :
    setNzcv p (subFull x y false).1 (subFull x y false).2.1 (subFull x y false).2.2 = diffFlags p x y false := by
  have hv : outside w (x.toInt - y.toInt) = decide ((x - y).toInt ≠ x.toInt - y.toInt) := by
    rw [outside_eq_bmod hw, BitVec.toInt_sub]
  have hz : (x - y).toNat = 0 ↔ x - y = 0 := by rw [toNat_sub_eq_zero, sub_eq_zero]
  simp [setNzcv, subFull, diffFlags, bit, BitVec.msb, hv, hz, -BitVec.toNat_sub]

/-- The sign of a difference, corrected by its overflow, is the signed order. -/
theorem sign_xor_overflow (x y : Word) : ((x - y).getMsbD 0 ^^ outside 64 (x.toInt - y.toInt)) = decide (x.toInt < y.toInt) := by
  have hmsb : (x - y).getMsbD 0 = decide ((x.toInt - y.toInt).bmod (2 ^ 64) < 0) := by
    rw [← BitVec.toInt_sub]
    exact BitVec.msb_eq_toInt
  have hx := x.le_toInt
  have hx' := x.toInt_lt
  have hy := y.le_toInt
  have hy' := y.toInt_lt
  rw [hmsb, outside, Bool.eq_iff_iff]
  simp only [Bool.xor_iff_ne, ne_eq, decide_eq_decide, decide_eq_true_eq, Int.bmod_def]
  omega

section
variable (p : Psw) (x y : Word)

@[simp] theorem diffFlags_z : (diffFlags p x y false).z = decide (x = y) := by
  simp [diffFlags, toNat_sub_eq_zero, -BitVec.toNat_sub]

@[simp] theorem diffFlags_c : (diffFlags p x y false).c = decide (y.toNat ≤ x.toNat) := by simp [diffFlags]

/-- After a comparison, N differs from V exactly where the first operand is the smaller signed number. -/
@[simp] theorem diffFlags_n_xor_v : ((diffFlags p x y false).n ^^ (diffFlags p x y false).v) = decide (x.toInt < y.toInt) := by
  simp [← sign_xor_overflow, diffFlags]

end

section
variable (p : Psw)

theorem condHolds_equal : condHolds p 0x1 = p.z := rfl
theorem condHolds_borrow : condHolds p 0x3 = !p.c := rfl
theorem condHolds_noBorrow : condHolds p 0x4 = p.c := rfl
theorem condHolds_lowerSame : condHolds p 0x5 = (!p.c || p.z) := rfl
theorem condHolds_higher : condHolds p 0x6 = (p.c && !p.z) := rfl

/-- 07 R226, LT: N differs from V. -/
theorem condHolds_less : condHolds p 0x7 = (p.n ^^ p.v) := rfl

/-- 07 R226, GE: N is V. -/
theorem condHolds_greaterEqual : condHolds p 0x8 = !(p.n ^^ p.v) := by
  change (p.n == p.v) = _
  cases p.n <;> cases p.v <;> rfl

theorem condHolds_lessEqual : condHolds p 0x9 = (p.z || (p.n ^^ p.v)) := rfl

theorem condHolds_greater : condHolds p 0xA = (!p.z && !(p.n ^^ p.v)) := by
  rw [← condHolds_greaterEqual]
  rfl

end

/-- Settles O7: after a comparison Z is equality, C the unsigned order, and N differing from V the signed order. -/
theorem conditionsAfterAComparison : Obligations.ConditionsAfterAComparison := by
  unfold Obligations.ConditionsAfterAComparison
  refine ⟨?values, ?orders⟩
  case values =>
    exact fun p => ⟨rfl, rfl, rfl, rfl, rfl, rfl, rfl, rfl, rfl, condHolds_greaterEqual p, rfl, condHolds_greater p, rfl, rfl, rfl, rfl⟩
  case orders =>
    intro p x y
    have hnat : x = y ↔ x.toNat = y.toNat := BitVec.toNat_inj.symm
    have hint : x = y ↔ x.toInt = y.toInt := BitVec.toInt_inj.symm
    refine ⟨?_, ?_, ?_, ?_, ?_, ?_, ?_, ?_, ?_⟩
    · rw [condHolds_equal, diffFlags_z]
    · rw [condHolds_borrow, diffFlags_c]
      grind
    · rw [condHolds_noBorrow, diffFlags_c]
    · rw [condHolds_lowerSame, diffFlags_c, diffFlags_z]
      grind
    · rw [condHolds_higher, diffFlags_c, diffFlags_z]
      grind
    · rw [condHolds_less, diffFlags_n_xor_v]
    · rw [condHolds_greaterEqual, diffFlags_n_xor_v]
      grind
    · rw [condHolds_lessEqual, diffFlags_z, diffFlags_n_xor_v]
      grind
    · rw [condHolds_greater, diffFlags_z, diffFlags_n_xor_v]
      grind

end Sys2Proof.Proofs.Comparisons
end

section
/-! Instructions that work on registers alone: moves, logic, shifts and products, counts, extensions, immediates, address registers,
branches (O2, O4, O5, O6). -/
namespace Sys2Proof.Proofs.Registers

open Sys2Proof.Machine Sys2Proof.Safety Sys2Proof.Claims

/-- The effect of an instruction on registers whose new registers are those claimed, whatever the registers are. -/
theorem effect_of_regs {c : Instr} {i : Issue} {e : Enc} {f : Core → Core} (g : Core → Core × List (BitVec 8 × Quad))
    (hx : ∀ s, exec c s = runReg s i e g) (hf : ∀ k, (g k).1 = f k) : Effect c i e f :=
  Laws.effect_of_runReg g hx (fun _ _ => hf _)

/-- The same for one of the two forms of ADD and its kin. -/
theorem effect_of_forms {c : Instr} {i : Issue} {o : Alu3} {f : Core → Core} (g : Core → Core × List (BitVec 8 × Quad))
    (hx : ∀ s, exec c s = runReg s i (encAlu o) g) (hf : ∀ k, (g k).1 = f k) : Effect c i (twoForms o) f := by
  cases o <;> exact effect_of_regs g hx hf

@[simp] theorem putD_core (c : Core) (d : Reg) (v : Word) : (putD c d v).1 = wrD c d v := rfl
@[simp] theorem putA_core (c : Core) (d : Reg) (v : Word) : (putA c d v).1 = wrA c d v := rfl

theorem aluRegs_eq (o : Alu3) : aluRegs o = (dest o, first o, second o) := by cases o <;> rfl

theorem setNz_eq_nzFlags (p : Psw) (r : Word) : setNz p r = nzFlags p r := by
  have hz : r.toNat = 0 ↔ r = 0#64 := by rw [BitVec.toNat_eq, BitVec.toNat_zero]
  simp [setNz, nzFlags, BitVec.msb, hz]

@[simp] theorem nzOp_core (c : Core) (d : Reg) (r : Word) : (nzOp c d r).1 = nzTo c d r := by
  simp [nzOp, withFlags, nzTo, setNz_eq_nzFlags]

theorem shiftBy_eq_shifted {op : Nat} (h : op < 5) (x : Word) (n : Nat) : shiftBy op x n = shifted op x n := by
  interval_cases op <;> rfl

theorem bitsOf_count (w : Word) : bitsOf w 0 6 = count w := by simp [bitsOf, count]

/-- SHL, SHR, SAR, ROL and ROR in their F2 form. -/
theorem effect_of_shift {c : Instr} {i : Issue} {d x y : Reg} {op : Nat} (hop : op < 5)
    (hx : ∀ s, exec c s = runReg s i encAll2 (fun k => nzOp k d (shiftBy op (rdD k x) (bitsOf (rdD k y) 0 6)))) :
    Effect c i two (fun k => nzTo k d (shifted op (rdD k x) (count (rdD k y)))) :=
  effect_of_regs _ hx fun k => by rw [nzOp_core, shiftBy_eq_shifted hop, bitsOf_count]

/-- Settles O2: every form writes one register with N and Z; the shifts agree by `shiftBy_eq_shifted`. -/
theorem logicShiftsAndProducts : Obligations.LogicShiftsAndProducts := by
  unfold Obligations.LogicShiftsAndProducts
  refine ⟨?and, ?or, ?xor, ?andn, ?andi, ?ori, ?xori, ?not, ?shl, ?shr, ?sar, ?rol, ?ror, ?shifti, ?mul⟩
  case and => exact fun i o => effect_of_forms _ (Laws.exec_and i o) fun k => by rw [nzOp_core, aluRegs_eq]
  case or => exact fun i o => effect_of_forms _ (Laws.exec_or i o) fun k => by rw [nzOp_core, aluRegs_eq]
  case xor => exact fun i o => effect_of_forms _ (Laws.exec_xor i o) fun k => by rw [nzOp_core, aluRegs_eq]
  case andn => exact fun i d x y => effect_of_regs _ (Laws.exec_andn i d x y) fun k => nzOp_core k d _
  case andi => exact fun i d x imm => effect_of_regs _ (Laws.exec_andi i d x imm) fun k => nzOp_core k d _
  case ori => exact fun i d x imm => effect_of_regs _ (Laws.exec_ori i d x imm) fun k => nzOp_core k d _
  case xori => exact fun i d x imm => effect_of_regs _ (Laws.exec_xori i d x imm) fun k => nzOp_core k d _
  case not => exact fun i d => effect_of_regs _ (Laws.exec_not i d) fun k => nzOp_core k d _
  case shl => exact fun i d x y => effect_of_shift (by decide) (Laws.exec_shl i d x y)
  case shr => exact fun i d x y => effect_of_shift (by decide) (Laws.exec_shr i d x y)
  case sar => exact fun i d x y => effect_of_shift (by decide) (Laws.exec_sar i d x y)
  case rol => exact fun i d x y => effect_of_shift (by decide) (Laws.exec_rol i d x y)
  case ror => exact fun i d x y => effect_of_shift (by decide) (Laws.exec_ror i d x y)
  case shifti =>
    intro i d x imm
    refine Laws.effect_of_runReg _ (Laws.exec_shifti i d x imm) fun k hlegal => ?_
    have hop : imm.toNat / 64 < 5 := by simpa using Laws.bad_of_legal hlegal
    have hfield : bitsOf imm 6 3 = imm.toNat / 64 := Nat.mod_eq_of_lt (by omega)
    have hcount : bitsOf imm 0 6 = imm.toNat % 64 := by simp [bitsOf]
    rw [nzOp_core, hfield, hcount, shiftBy_eq_shifted hop]
  case mul =>
    intro i d x y
    refine effect_of_regs _ (Laws.exec_mul i d x y) fun k => ?_
    rw [nzOp_core, BitVec.ofNat_mul, BitVec.ofNat_toNat, BitVec.ofNat_toNat, BitVec.setWidth_eq, BitVec.setWidth_eq]

/-- The leading zeros of a number of `n` bits (08 R240). -/
theorem leadingZeros_eq {n v : Nat} (h : v < 2 ^ n) : leadingZeros n v = if v = 0 then n else n - 1 - Nat.log2 v := by
  induction n with
  | zero => simp [leadingZeros]
  | succ n ih =>
    have hdiv : v / 2 ^ n < 2 := Nat.div_lt_of_lt_mul (by rw [← Nat.pow_succ]; exact h)
    rw [leadingZeros]
    by_cases hlow : v < 2 ^ n
    · rw [Nat.div_eq_of_lt hlow, ih hlow]
      by_cases hv : v = 0
      · simp [hv, Nat.add_comm]
      · have hlog : Nat.log2 v < n := (Nat.log2_lt hv).2 hlow
        simp only [hv, if_false, Nat.zero_mod, Nat.zero_ne_one]
        omega
    · have hone : v / 2 ^ n = 1 := by
        have : 1 ≤ v / 2 ^ n := (Nat.one_le_div_iff (Nat.two_pow_pos n)).2 (by omega)
        omega
      have hv : v ≠ 0 := by have := Nat.two_pow_pos n; omega
      have hlog : Nat.log2 v = n := (Nat.log2_eq_iff hv).2 ⟨by omega, h⟩
      simp [hone, hv, hlog]

theorem leadingZeros_word (x : Word) : leadingZeros 64 x.toNat = leading x := by
  rw [leadingZeros_eq x.isLt, leading]

/-- The one bits of a number, counted by their places (08 R240). -/
theorem popNat_eq_length (n v : Nat) : popNat n v = ((List.range n).filter (fun k => v.testBit k)).length := by
  induction n generalizing v with
  | zero => rfl
  | succ n ih =>
    have hshift : (List.range n).filter (fun k => (v / 2).testBit k) = (List.range n).filter (fun k => v.testBit (k + 1)) := by
      simp [Nat.testBit_div_two]
    rw [popNat, ih, hshift, List.range_succ_eq_map, List.filter_cons, List.filter_map, Nat.testBit_zero]
    rcases Nat.mod_two_eq_zero_or_one v with h | h <;> simp [h, Function.comp_def, Nat.add_comm]

theorem popCount_word (x : Word) : popCount x = ones x := popNat_eq_length 64 x.toNat

theorem extendLow_eq_widen {size : Nat} (h : size < 3) (sgn : Bool) (x : Word) : extendLow sgn x size = widen sgn size x := by
  obtain rfl | rfl | rfl : size = 0 ∨ size = 1 ∨ size = 2 := by omega
  all_goals cases sgn <;> rfl

/-- A word with its bits from place 44 on replaced (07 R228, LDIH). -/
theorem withBits_high (x : Word) (v : Nat) : withBits x 44 20 v = BitVec.ofNat 64 (v * 2 ^ 44 + x.toNat % 2 ^ 44) := by
  refine BitVec.eq_of_getLsbD_eq fun i hi => ?_
  rw [Fields.getLsbD_withBits, BitVec.getLsbD_ofNat, Nat.mul_comm, Nat.testBit_two_pow_mul_add _ (Nat.mod_lt _ (by decide)),
    Nat.testBit_mod_two_pow, BitVec.getLsbD]
  by_cases hlow : i < 44
  · simp [hlow, hi]
  · simp [hlow, hi, show 44 ≤ i by omega]

theorem reservedCond (cc : BitVec 4) : (cc == 0xF) = !wfCond cc := by simp [wfCond, Bool.beq_eq_decide_eq]

/-- Settles O4: moves and immediates as written; counts by `leadingZeros_word` and `popCount_word`, extensions by `extendLow_eq_widen`. -/
theorem movesCountsAndImmediates : Obligations.MovesCountsAndImmediates := by
  unfold Obligations.MovesCountsAndImmediates
  refine ⟨?nop, ?mov, ?clz, ?popc, ?bswap, ?sext, ?zext, ?csel, ?movi, ?ldi, ?ldih⟩
  case nop => exact fun i => effect_of_regs _ (Laws.exec_nop i) fun _ => rfl
  case mov => exact fun i d x => effect_of_regs _ (Laws.exec_mov i d x) fun _ => rfl
  case clz => exact fun i d => effect_of_regs _ (Laws.exec_clz i d) fun k => by rw [putD_core, leadingZeros_word]
  case popc => exact fun i d => effect_of_regs _ (Laws.exec_popc i d) fun k => by rw [putD_core, popCount_word]
  case bswap => exact fun i d => effect_of_regs _ (Laws.exec_bswap i d) fun _ => rfl
  case sext =>
    intro i d x t
    refine Laws.effect_of_runReg _ (Laws.exec_sext i d x t) fun k hlegal => ?_
    have hsize : t.toNat < 3 := by simpa using Laws.bad_of_legal hlegal
    rw [putD_core, extendLow_eq_widen hsize]
  case zext =>
    intro i d x t
    refine Laws.effect_of_runReg _ (Laws.exec_zext i d x t) fun k hlegal => ?_
    have hsize : t.toNat < 3 := by simpa using Laws.bad_of_legal hlegal
    rw [putD_core, extendLow_eq_widen hsize]
  case csel =>
    intro i cc d x y
    rw [reservedCond]
    exact effect_of_regs _ (Laws.exec_csel i cc d x y) fun _ => rfl
  case movi => exact fun i d imm => effect_of_regs _ (Laws.exec_movi i d imm) fun _ => rfl
  case ldi => exact fun i d imm => effect_of_regs _ (Laws.exec_ldi i d imm) fun _ => rfl
  case ldih =>
    intro i d imm
    refine effect_of_regs _ (Laws.exec_ldih i d imm) fun k => ?_
    rw [putD_core, withBits_high]

theorem shiftLeft_eq_mul (x : Word) (n : Nat) : x <<< n = x * BitVec.ofNat 64 (2 ^ n) := by
  rw [BitVec.shiftLeft_eq_mul_twoPow]
  congr 1
  exact BitVec.eq_of_toNat_eq (by simp)

theorem effAddr_eq_address (c : Core) (ea : Ea) : effAddr c ea = address ea c := by
  rw [effAddr, address, shiftLeft_eq_mul]

/-- Settles O5: each form writes one address or data register; AREF's address by `effAddr_eq_address`. -/
theorem addressRegisterResults : Obligations.AddressRegisterResults := by
  unfold Obligations.AddressRegisterResults
  refine ⟨?amov, ?amovd, ?dmova, ?aadd, ?asub, ?aaddq, ?aaddi, ?aldi, ?aref⟩
  case amov => exact fun i d x => effect_of_regs _ (Laws.exec_amov i d x) fun _ => rfl
  case amovd => exact fun i d x => effect_of_regs _ (Laws.exec_amovd i d x) fun _ => rfl
  case dmova => exact fun i d x => effect_of_regs _ (Laws.exec_dmova i d x) fun _ => rfl
  case aadd => exact fun i o => effect_of_forms _ (Laws.exec_aadd i o) fun k => by rw [putA_core, aluRegs_eq]
  case asub => exact fun i d x y => effect_of_regs _ (Laws.exec_asub i d x y) fun _ => rfl
  case aaddq => exact fun i d q => effect_of_regs _ (Laws.exec_aaddq i d q) fun _ => rfl
  case aaddi => exact fun i d x imm => effect_of_regs _ (Laws.exec_aaddi i d x imm) fun _ => rfl
  case aldi => exact fun i d imm => effect_of_regs _ (Laws.exec_aldi i d imm) fun _ => rfl
  case aref =>
    intro i r ea
    refine effect_of_regs _ (Laws.exec_aref i r ea) fun k => ?_
    rw [putA_core, effAddr_eq_address, address]

/-- Settles O6: the target counts from the branch's first syllable, three before the pc that the body sees. -/
theorem branchesSetThePc : Obligations.BranchesSetThePc := by
  unfold Obligations.BranchesSetThePc
  refine ⟨?b, ?jmpr, ?jmpf⟩
  case b =>
    intro i cc disp
    rw [reservedCond]
    refine effect_of_regs _ (Laws.exec_b i cc disp) fun k => ?_
    cases condHolds k.psw cc <;> rfl
  case jmpr =>
    intro i a
    refine effect_of_regs _ (Laws.exec_jmpr i a) fun k => ?_
    simp only [BitVec.ofNat_toNat]
  case jmpf => exact fun i t => effect_of_regs _ (Laws.exec_jmpf i t) fun _ => rfl

end Sys2Proof.Proofs.Registers
end

section
/-! The control registers (O15, O16): what MTC leaves in them, and the bits of the status words. -/
namespace Sys2Proof.Proofs.ControlRegisters

open Sys2Proof.Machine Sys2Proof.Safety Sys2Proof.Claims

/-- A field of a word as a word of its own. -/
theorem ofNat_bitsOf (w : Word) (lo len : Nat) : BitVec.ofNat len (bitsOf w lo len) = (w >>> lo).setWidth len :=
  BitVec.eq_of_toNat_eq (by simp [bitsOf, Nat.shiftRight_eq_div_pow])

/-- A write of a control register reaches its RW fields alone (07 R219). -/
theorem putCtlReg_eq_controlWritten (c : Core) (code : Nat) (w : Word) : putCtlReg c code w = controlWritten c code w := by
  unfold putCtlReg
  split
  case h_12 => simp_all [controlWritten]
  all_goals simp [controlWritten, withNzcvBits, bitOf, ofNat_bitsOf]

/-- A register that is read-only in every field is left. -/
theorem controlWritten_readOnly {code : Nat} (h : roCtlReg code = true) (c : Core) (w : Word) : controlWritten c code w = c := by
  simp only [roCtlReg, Bool.and_eq_true, decide_eq_true_eq] at h
  obtain ⟨hlow, hhigh⟩ := h
  interval_cases code <;> rfl

theorem bit_eq_toNat (b : Bool) : bit b = b.toNat := by cases b <;> rfl

theorem vbaseWord (v : BitVec 38) : v.setWidth 64 <<< 10 = BitVec.ofNat 64 (1024 * v.toNat) := by
  refine BitVec.eq_of_toNat_eq ?_
  have := v.isLt
  simp [Nat.shiftLeft_eq]
  omega

/-- Settles O15: MTC by `putCtlReg_eq_controlWritten`, the others as written. -/
theorem controlRegisterAccess : Obligations.ControlRegisterAccess := by
  unfold Obligations.ControlRegisterAccess
  refine ⟨?mfc, ?mtc, ?ei, ?di, ?words⟩
  case mfc => exact fun i d code => Registers.effect_of_regs _ (Laws.exec_mfc i d code) fun _ => rfl
  case mtc =>
    intro i code x
    refine Registers.effect_of_regs _ (Laws.exec_mtc i code x) fun k => ?_
    by_cases hro : roCtlReg code.toNat = true
    · rw [if_pos hro, controlWritten_readOnly hro]
    · rw [if_neg hro, putCtlReg_eq_controlWritten]
  case ei => exact fun i => Registers.effect_of_regs _ (Laws.exec_ei i) fun _ => rfl
  case di => exact fun i => Registers.effect_of_regs _ (Laws.exec_di i) fun _ => rfl
  case words =>
    intro p c
    simp [ctlRegWord, rsvWord, bit_eq_toNat, vbaseWord]

/-- The bits of a status word (07 R219). -/
theorem pswWord_getLsbD (p : Psw) (n : Nat) : (pswWord p).getLsbD n =
    if n = 0 then p.c else if n = 1 then p.v else if n = 2 then p.z else if n = 3 then p.n
    else if n = 8 then p.s else if n = 9 then p.ie else if n = 10 then p.tx else false := by
  have hbit : ∀ b : Bool, bit b ≤ 1 ∧ (b = true ↔ bit b = 1) := by decide
  obtain ⟨hc, hc'⟩ := hbit p.c
  obtain ⟨hv, hv'⟩ := hbit p.v
  obtain ⟨hz, hz'⟩ := hbit p.z
  obtain ⟨hn, hn'⟩ := hbit p.n
  obtain ⟨hs, hs'⟩ := hbit p.s
  obtain ⟨hie, hie'⟩ := hbit p.ie
  obtain ⟨htx, htx'⟩ := hbit p.tx
  rw [pswWord, BitVec.getLsbD_ofNat]
  by_cases hlow : n < 11
  · rw [Nat.testBit_eq_decide_div_mod_eq, Bool.eq_iff_iff]
    interval_cases n
    all_goals
      simp [hc', hv', hz', hn', hs', hie', htx']
      omega
  · have hsum : bit p.c + 2 * bit p.v + 4 * bit p.z + 8 * bit p.n + 256 * bit p.s + 512 * bit p.ie + 1024 * bit p.tx < 2 ^ 11 := by omega
    have hpow : 2 ^ 11 ≤ 2 ^ n := Nat.pow_le_pow_right (by decide) (by omega)
    rw [Nat.testBit_lt_two_pow (lt_of_lt_of_le hsum hpow), Bool.and_false]
    simp only [show n ≠ 0 ∧ n ≠ 1 ∧ n ≠ 2 ∧ n ≠ 3 ∧ n ≠ 8 ∧ n ≠ 9 ∧ n ≠ 10 by omega, if_false]

/-- Settles O16: PSW by `pswWord_getLsbD`, and EPSW is read by the same function. -/
theorem statusRegisterLayout : Obligations.StatusRegisterLayout := by
  unfold Obligations.StatusRegisterLayout
  exact fun p c n => ⟨pswWord_getLsbD c.psw n, rfl⟩

end Sys2Proof.Proofs.ControlRegisters
end

section
/-! Instructions whose bodies load or store: the frame in which they retire, then loads, stores, the stack, calls and returns
(O18 to O20). -/
namespace Sys2Proof.Proofs.MemoryForms

open Sys2Proof.Machine Sys2Proof.Safety Sys2Proof.Claims

/-- An instruction that is ready retires in the state and with the registers that its body comes to. -/
theorem retires_of_done {c : Instr} {s s1 t : State} {i : Issue} {e : Enc} {body : State → XOut} {ws : List (BitVec 8 × Quad)}
    (h : Ready s i e s1) (hx : exec c s = runInstr s i e body) (hbody : body (inBody s1 i e.len) = .done t ws 1) :
    retires c s i.proc (getCore t i.proc) t := by
  have hnext : exec c s = .next (retire t i.proc ws 1) := by
    rw [hx, Laws.runInstr_ready h]
    exact congrArg (finish s1 i.proc e.len) hbody
  exact ⟨_, hnext, Laws.getCore_retire _ _ _ _, Laws.elsewhere_retire _ _ _ _⟩

@[simp] theorem getCore_inBody (s1 : State) (i : Issue) (len : Nat) :
    getCore (inBody s1 i len) i.proc = moved len (getCore s1 i.proc) := Laws.getCore_setCore _ _ _

theorem loadThen_ok {s t : State} {p : Proc} {va : Word} {a : Access} {bs : List Byte} (h : loadBytes s p va a = .ok t bs)
    (k : State → Nat → XOut) : loadThen s p va a k = k t (leNat bs) := by
  simp only [loadThen, h]

theorem storeThen_ok {s t : State} {p : Proc} {va : Word} {a : Access} {v : Nat} (h : storeBytes s p va a (leBytes a.n v) = .ok t)
    (k : State → XOut) : storeThen s p va a v k = k t := by
  simp only [storeThen, h]

/-- An instruction that loads, then comes to `k` of the state after the load and of the number loaded. -/
theorem retires_of_load {c : Instr} {s s1 s2 t : State} {i : Issue} {e : Enc} {va : Core → Word} {a : Access} {bs : List Byte}
    {ws : List (BitVec 8 × Quad)} (va' : Core → Word) (k : State → Nat → XOut)
    (hx : exec c s = runInstr s i e (fun s => loadThen s i.proc (va' (getCore s i.proc)) a k)) (hva : ∀ d, va' (moved e.len d) = va d)
    (hready : Ready s i e s1) (hload : loadBytes (inBody s1 i e.len) i.proc (va (getCore s1 i.proc)) a = .ok s2 bs)
    (hk : k s2 (leNat bs) = .done t ws 1) : retires c s i.proc (getCore t i.proc) t := by
  rw [← hva, ← getCore_inBody] at hload
  exact retires_of_done hready hx ((loadThen_ok hload k).trans hk)

/-- The effect of an instruction that loads, then changes registers. -/
theorem loadEffect_of_retireWith {c : Instr} {i : Issue} {e : Enc} {va : Core → Word} {a : Access} {f : Nat → Core → Core}
    (va' : Core → Word) (g : Nat → Core → Core × List (BitVec 8 × Quad))
    (hx : ∀ s, exec c s = runInstr s i e (fun s =>
      loadThen s i.proc (va' (getCore s i.proc)) a (fun s v => retireWith s i.proc (g v))))
    (hva : ∀ k, va' (moved e.len k) = va k) (hf : ∀ v k, (g v k).1 = f v k) : LoadEffect c i e va a f := by
  intro s s1 s2 bs hready hload
  obtain ⟨t, hnext, hregs, helse⟩ := retires_of_load va' _ (hx s) hva hready hload rfl
  exact ⟨t, hnext, by rw [hregs, Laws.getCore_setCore, hf], by rw [helse, Laws.elsewhere_setCore]⟩

/-- The effect of an instruction that stores, then comes to `k` of the states before and after the store. -/
theorem storeEffect_of_done {c : Instr} {i : Issue} {e : Enc} {va : Core → Word} {a : Access} {v : Core → Nat}
    {f : Core → Core → Core} (va' : Core → Word) (k : State → State → XOut)
    (hx : ∀ s, exec c s = runInstr s i e (fun s => storeThen s i.proc (va' (getCore s i.proc)) a (v (getCore s i.proc)) (k s)))
    (hva : ∀ k, va' (moved e.len k) = va k)
    (hk : ∀ s t, ∃ t' ws, k s t = .done t' ws 1 ∧ getCore t' i.proc = f (getCore s i.proc) (getCore t i.proc) ∧
      elsewhere i.proc t' = elsewhere i.proc t) : StoreEffect c i e va a v f := by
  intro s s1 s2 hready hstore
  rw [← hva, ← getCore_inBody] at hstore
  obtain ⟨t', ws, hdone, hcore, helse'⟩ := hk (inBody s1 i e.len) s2
  have hbody := (storeThen_ok hstore (k (inBody s1 i e.len))).trans hdone
  obtain ⟨t, hnext, hregs, helse⟩ := retires_of_done hready (hx s) hbody
  exact ⟨t, hnext, by rw [hregs, hcore, getCore_inBody], by rw [helse, helse']⟩

theorem effAddr_moved (ea : Ea) (n : Nat) (k : Core) : effAddr (moved n k) ea = address ea k :=
  Registers.effAddr_eq_address (moved n k) ea

/-- A load at an effective address into a register. -/
theorem loadEffect_of_effAddr {c : Instr} {i : Issue} {e : Enc} {ea : Ea} {a : Access} {f : Nat → Core → Core}
    (g : Nat → Core → Core × List (BitVec 8 × Quad))
    (hx : ∀ s, exec c s = runInstr s i e (fun s =>
      loadThen s i.proc (effAddr (getCore s i.proc) ea) a (fun s v => retireWith s i.proc (g v))))
    (hf : ∀ v k, (g v k).1 = f v k) : LoadEffect c i e (address ea) a f :=
  loadEffect_of_retireWith (fun k => effAddr k ea) g hx (effAddr_moved ea e.len) hf

/-- Settles O18. -/
theorem loadsWriteTheBytesRead : Obligations.LoadsWriteTheBytesRead := by
  unfold Obligations.LoadsWriteTheBytesRead
  refine ⟨?ldb, ?ldbu, ?ldh, ?ldhu, ?ldw, ?ldwu, ?ldd, ?ald, ?ldk⟩
  case ldb => exact fun i r ea => loadEffect_of_effAddr _ (Laws.exec_ldb i r ea) fun _ _ => rfl
  case ldbu => exact fun i r ea => loadEffect_of_effAddr _ (Laws.exec_ldbu i r ea) fun _ _ => rfl
  case ldh => exact fun i r ea => loadEffect_of_effAddr _ (Laws.exec_ldh i r ea) fun _ _ => rfl
  case ldhu => exact fun i r ea => loadEffect_of_effAddr _ (Laws.exec_ldhu i r ea) fun _ _ => rfl
  case ldw => exact fun i r ea => loadEffect_of_effAddr _ (Laws.exec_ldw i r ea) fun _ _ => rfl
  case ldwu => exact fun i r ea => loadEffect_of_effAddr _ (Laws.exec_ldwu i r ea) fun _ _ => rfl
  case ldd => exact fun i r ea => loadEffect_of_effAddr _ (Laws.exec_ldd i r ea) fun _ _ => rfl
  case ald => exact fun i r ea => loadEffect_of_effAddr _ (Laws.exec_ald i r ea) fun _ _ => rfl
  case ldk => exact fun i r ea => loadEffect_of_effAddr _ (Laws.exec_ldk i r ea) fun _ _ => rfl

/-- A store at an effective address, after which nothing is left to do. -/
theorem storeEffect_of_storeV {c : Instr} {i : Issue} {e : Enc} {ea : Ea} {a : Access} {v : Core → Nat}
    (hx : ∀ s, exec c s = runInstr s i e (fun s => storeV i.proc ea a (v (getCore s i.proc)) s)) :
    StoreEffect c i e (address ea) a v (fun _ k => k) :=
  storeEffect_of_done (fun k => effAddr k ea) (fun _ t => .done t [] 1) hx (effAddr_moved ea e.len) fun _ t => ⟨t, [], rfl, rfl, rfl⟩

/-- Settles O19. -/
theorem storesStoreTheLowBytes : Obligations.StoresStoreTheLowBytes := by
  unfold Obligations.StoresStoreTheLowBytes
  refine ⟨?stb, ?sth, ?stw, ?std, ?ast, ?stk⟩
  case stb => exact fun i r ea => storeEffect_of_storeV (Laws.exec_stb i r ea)
  case sth => exact fun i r ea => storeEffect_of_storeV (Laws.exec_sth i r ea)
  case stw => exact fun i r ea => storeEffect_of_storeV (Laws.exec_stw i r ea)
  case std => exact fun i r ea => storeEffect_of_storeV (Laws.exec_std i r ea)
  case ast => exact fun i r ea => storeEffect_of_storeV (Laws.exec_ast i r ea)
  case stk => exact fun i r ea => storeEffect_of_storeV (Laws.exec_stk i r ea)

/-- The effect of an instruction that pushes a word, then comes to `k` of the states before and after the push (07 R221). -/
theorem storeEffect_of_pushThen {c : Instr} {i : Issue} {e : Enc} {v : Core → Word} {f : Core → Core → Core}
    (k : State → State → XOut)
    (hx : ∀ s, exec c s = runInstr s i e (fun s => pushThen s i.proc (v (getCore s i.proc)) (k s)))
    (hk : ∀ s t, ∃ t' ws, k s t = .done t' ws 1 ∧ getCore t' i.proc = f (getCore s i.proc) (getCore t i.proc) ∧
      elsewhere i.proc t' = elsewhere i.proc t) :
    StoreEffect c i e pushPlace (bytes 8) (fun b => (v b).toNat) (fun b d => f b (wrA d 15 (rdA b 15 - 8))) := by
  refine storeEffect_of_done pushPlace (fun s t => k s (modCore t i.proc (fun d => wrA d 15 (pushPlace (getCore s i.proc)))))
    hx (fun _ => rfl) fun s t => ?_
  obtain ⟨t', ws, hdone, hcore, helse⟩ := hk s (modCore t i.proc (fun d => wrA d 15 (pushPlace (getCore s i.proc))))
  exact ⟨t', ws, hdone, by rw [hcore, Laws.getCore_modCore, pushPlace], by rw [helse, Laws.elsewhere_modCore]⟩

/-- A push alone (07 R228). -/
theorem storeEffect_of_push {c : Instr} {i : Issue} {e : Enc} (v : Core → Word)
    (hx : ∀ s, exec c s = runInstr s i e (fun s =>
      pushThen s i.proc (v (getCore s i.proc)) (fun s => .done s [aItem (getCore s i.proc) 15] 1))) :
    StoreEffect c i e pushPlace (bytes 8) (fun b => (v b).toNat) (fun b d => wrA d 15 (rdA b 15 - 8)) :=
  storeEffect_of_pushThen (f := fun _ d => d) (fun _ t => .done t [aItem (getCore t i.proc) 15] 1) hx
    fun _ t => ⟨t, _, rfl, rfl, rfl⟩

/-- A call: the address of the next instruction is pushed, then the pc takes the target (07 R221). -/
theorem storeEffect_of_callTo {c : Instr} {i : Issue} {e : Enc} {target : Core → CodeAddr}
    (hx : ∀ s, exec c s = runInstr s i e (callTo i.proc target)) :
    StoreEffect c i e pushPlace (bytes 8) (fun b => b.pc.toNat) (fun b d => { wrA d 15 (rdA b 15 - 8) with pc := target b }) := by
  have hpc : (fun b : Core => b.pc.toNat) = fun b => (b.pc.setWidth 64).toNat := by
    funext b
    rw [BitVec.toNat_setWidth_of_le (by decide)]
  rw [hpc]
  exact storeEffect_of_pushThen (f := fun b d => { d with pc := target b })
    (fun s t => .done (modCore t i.proc (fun d => { d with pc := target (getCore s i.proc) }))
      [aItem (getCore (modCore t i.proc (fun d => { d with pc := target (getCore s i.proc) })) i.proc) 15] 1) hx
    fun _ _ => ⟨_, _, rfl, Laws.getCore_modCore _ _ _, Laws.elsewhere_modCore _ _ _⟩

theorem exec_callr_callTo (i : Issue) (a : Reg) (s : State) :
    exec (.callr i a) s = runInstr s i one (callTo i.proc (fun c => BitVec.ofNat 48 (rdA c a).toNat)) := by
  simp only [Laws.exec_callr, execCallr, BitVec.ofNat_toNat, one]

/-- Settles O20: pushes and calls store at `pushPlace`, pops and RET load at `stackTop`. -/
theorem stackCallsAndReturns : Obligations.StackCallsAndReturns := by
  unfold Obligations.StackCallsAndReturns
  refine ⟨?pushd, ?apush, ?popd, ?apop, ?call, ?callr, ?callf, ?ret⟩
  case pushd => exact fun i r => storeEffect_of_push (fun b => rdD b r) (Laws.exec_pushd i r)
  case apush => exact fun i r => storeEffect_of_push (fun b => rdA b r) (Laws.exec_apush i r)
  case popd => exact fun i d => loadEffect_of_retireWith stackTop _ (Laws.exec_popd i d) (fun _ => rfl) fun _ _ => rfl
  case apop =>
    intro i d
    refine loadEffect_of_retireWith stackTop _ (Laws.exec_apop i d) (fun _ => rfl) fun v k => ?_
    by_cases h : d = 15
    · rw [if_pos h, if_pos h]; rfl
    · rw [if_neg h, if_neg h]; rfl
  case call => exact fun i cc disp => storeEffect_of_callTo (Laws.exec_call i cc disp)
  case callr => exact fun i a => storeEffect_of_callTo (exec_callr_callTo i a)
  case callf => exact fun i target => storeEffect_of_callTo (Laws.exec_callf i target)
  case ret =>
    intro i s s1 s2 bs hready hload hcode
    obtain ⟨t, hnext, hregs, helse⟩ :=
      retires_of_load stackTop _ (Laws.exec_ret i s) (fun _ => rfl) hready hload (if_neg (Nat.not_le.2 hcode))
    exact ⟨t, hnext, by rw [hregs, Laws.getCore_setCore], by rw [helse, Laws.elsewhere_setCore]⟩

end Sys2Proof.Proofs.MemoryForms
end

section
/-! String instructions (O24): the end of an element, and an element of each instruction. -/
namespace Sys2Proof.Proofs.Strings

open Sys2Proof.Machine Sys2Proof.Safety Sys2Proof.Claims Sys2Proof.Proofs.MemoryForms

/-- A pointer moves by the element in the direction of DIR (07 R231). -/
theorem strStep_eq (o : StrOp) (a : Word) :
    strStep o a = a + (if o.dir then -(BitVec.ofNat 64 (elemBytes o)) else BitVec.ofNat 64 (elemBytes o)) := by
  rw [strStep]
  cases o.dir
  · rfl
  · exact sub_eq_add_neg _ _

/-- The registers with the pointers that an element uses moved. -/
def pointed (o : StrOp) (src dst : Bool) (c : Core) : Core :=
  let c := if src then wrA c 12 (strStep o (rdA c 12)) else c
  if dst then wrA c 13 (strStep o (rdA c 13)) else c

@[simp] theorem pointed_psw (o : StrOp) (src dst : Bool) (c : Core) : (pointed o src dst c).psw = c.psw := by
  cases src <;> cases dst <;> rfl

@[simp] theorem rdD_pointed (o : StrOp) (src dst : Bool) (c : Core) (r : Reg) : rdD (pointed o src dst c) r = rdD c r := by
  cases src <;> cases dst <;> rfl

/-- The registers at the end of an element, as the model computes them (07 R233). -/
def elementEnd (o : StrOp) (src dst stops : Bool) (c : Core) : Core :=
  let c := pointed o src dst c
  let n := rdD c 12 - 1
  let c := if o.rep then wrD c 12 n else c
  if o.rep && decide (n ≠ 0) && !stops then { c with pc := c.pc - 3 } else c

theorem elementEnd_eq_element (o : StrOp) (src dst stops : Bool) (c : Core) : elementEnd o src dst stops c = element o src dst stops c := by
  have helem : element o src dst stops c = if o.rep then
      (let c3 := wrD (pointed o src dst c) 12 (rdD c 12 - 1)
       if rdD c 12 - 1 = 0 ∨ stops then c3 else { c3 with pc := c3.pc - 3 })
      else pointed o src dst c := by
    simp only [element, pointed, strStep_eq]
  rw [helem, elementEnd, rdD_pointed]
  cases o.rep
  case false => simp
  case true =>
    generalize rdD c 12 - 1 = n
    by_cases hn : n = 0#64
    · simp [hn]
    · cases stops <;> simp [hn]

theorem elementEnd_psw (o : StrOp) (src dst stops : Bool) (c : Core) : (elementEnd o src dst stops c).psw = c.psw := by
  simp only [elementEnd]
  split <;> split <;> simp

/-- The end of an element without flags: the registers of `element`. -/
theorem strEnd_plain (s : State) (p : Proc) (o : StrOp) (src dst stops : Bool) :
    ∃ ws, strEnd s p o src dst stops none = .done (setCore s p (element o src dst stops (getCore s p))) ws 1 := by
  rw [← elementEnd_eq_element]
  exact ⟨_, rfl⟩

/-- The end of an element with flags: the registers of `element`, the status changed. -/
theorem strEnd_flags (s : State) (p : Proc) (o : StrOp) (src dst stops : Bool) (f : Psw → Psw) :
    ∃ ws, strEnd s p o src dst stops (some f) = .done (setCore s p
      { element o src dst stops (getCore s p) with psw := f (element o src dst stops (getCore s p)).psw }) ws 1 := by
  rw [← elementEnd_eq_element]
  exact ⟨_, rfl⟩

@[simp] theorem element_psw (o : StrOp) (src dst stops : Bool) (c : Core) : (element o src dst stops c).psw = c.psw := by
  rw [← elementEnd_eq_element, elementEnd_psw]

theorem rdA_inBody (s1 : State) (i : Issue) (len : Nat) (r : Reg) :
    rdA (getCore (inBody s1 i len) i.proc) r = rdA (getCore s1 i.proc) r := by
  rw [getCore_inBody]
  rfl

theorem rdD_inBody (s1 : State) (i : Issue) (len : Nat) (r : Reg) :
    rdD (getCore (inBody s1 i len) i.proc) r = rdD (getCore s1 i.proc) r := by
  rw [getCore_inBody]
  rfl

/-- A string instruction that processes an element comes to what the element comes to (07 R232). -/
theorem retires_of_element {c : Instr} {s s1 t : State} {i : Issue} {o : StrOp} {e : Enc} {elem : State → XOut}
    {ws : List (BitVec 8 × Quad)} (hx : exec c s = runStr s i o e elem) (hready : Ready s i e s1) (hgo : goesOn o (getCore s1 i.proc))
    (helem : elem (inBody s1 i e.len) = .done t ws 1) : retires c s i.proc (getCore t i.proc) t := by
  refine retires_of_done (ws := ws) hready hx ?_
  have hcount : (o.rep && decide (rdD (getCore (inBody s1 i e.len) i.proc) 12 = 0)) = false := by
    rw [getCore_inBody]
    exact Bool.and_eq_false_imp.2 fun hrep => decide_eq_false (hgo hrep)
  exact (if_neg (by rw [hcount]; decide)).trans helem

/-- Under REP with D12 = 0 nothing is processed (07 R232). -/
theorem effectIf_repZero {c : Instr} {i : Issue} {o : StrOp} {e : Enc} {elem : State → XOut}
    (hx : ∀ s, exec c s = runStr s i o e elem) (hrep : o.rep = true) : EffectIf c i e (fun k => rdD k 12 = 0) (fun k => k) := by
  intro s s1 hready hzero
  have hcount : (o.rep && decide (rdD (getCore (inBody s1 i e.len) i.proc) 12 = 0)) = true := by
    rw [getCore_inBody, hrep, hzero]
    rfl
  obtain ⟨t, hnext, hregs, helse⟩ := retires_of_done (t := inBody s1 i e.len) (ws := []) hready (hx s) (if_pos hcount)
  exact ⟨t, hnext, by rw [hregs, getCore_inBody], by rw [helse, inBody, Laws.elsewhere_setCore, Laws.ready_elsewhere hready]⟩

/-- The end of an element reached without flags. -/
theorem retires_of_strEnd_plain {c : Instr} {s s1 t : State} {i : Issue} {o : StrOp} {e : Enc} {elem : State → XOut}
    {src dst stops : Bool}
    (hx : exec c s = runStr s i o e elem) (hready : Ready s i e s1) (hgo : goesOn o (getCore s1 i.proc))
    (helem : elem (inBody s1 i e.len) = strEnd t i.proc o src dst stops none) :
    retires c s i.proc (element o src dst stops (getCore t i.proc)) t := by
  obtain ⟨ws, hend⟩ := strEnd_plain t i.proc o src dst stops
  obtain ⟨t', hnext, hregs, helse⟩ := retires_of_element hx hready hgo (helem.trans hend)
  exact ⟨t', hnext, by rw [hregs, Laws.getCore_setCore], by rw [helse, Laws.elsewhere_setCore]⟩

/-- The end of an element reached with flags. -/
theorem retires_of_strEnd_flags {c : Instr} {s s1 t : State} {i : Issue} {o : StrOp} {e : Enc} {elem : State → XOut}
    {src dst stops : Bool}
    {f : Psw → Psw} (hx : exec c s = runStr s i o e elem) (hready : Ready s i e s1) (hgo : goesOn o (getCore s1 i.proc))
    (helem : elem (inBody s1 i e.len) = strEnd t i.proc o src dst stops (some f)) :
    retires c s i.proc { element o src dst stops (getCore t i.proc) with psw := f (element o src dst stops (getCore t i.proc)).psw } t := by
  obtain ⟨ws, hend⟩ := strEnd_flags t i.proc o src dst stops f
  obtain ⟨t', hnext, hregs, helse⟩ := retires_of_element hx hready hgo (helem.trans hend)
  exact ⟨t', hnext, by rw [hregs, Laws.getCore_setCore], by rw [helse, Laws.elsewhere_setCore]⟩

theorem strStops_eq (o : StrOp) (x y : Nat) : strStops o x y = stopsAt o x y := by
  simp only [strStops, stopsAt]
  cases o.stop <;> simp [bne, Bool.beq_eq_decide_eq]

/-- The flags of an element comparison are those of a comparison at the element's width (07 R231). -/
theorem strFlags_eq (o : StrOp) (x y : Nat) (p : Psw) :
    strFlags o x y p = diffFlags p (BitVec.ofNat (8 * elemBytes o) x) (BitVec.ofNat (8 * elemBytes o) y) false :=
  Comparisons.setNzcv_subFull (Nat.mul_pos (by decide) (Nat.two_pow_pos o.sz.toNat)) p _ _

/-- The end of an element comparison. -/
theorem retires_of_comparison {c : Instr} {s s1 t : State} {i : Issue} {o : StrOp} {e : Enc} {elem : State → XOut}
    {dst : Bool} {x y : Nat}
    (hx : exec c s = runStr s i o e elem) (hready : Ready s i e s1) (hgo : goesOn o (getCore s1 i.proc))
    (helem : elem (inBody s1 i e.len) = strEnd t i.proc o true dst (strStops o x y) (some (strFlags o x y))) :
    retires c s i.proc (elementFlags o x y (element o true dst (stopsAt o x y) (getCore t i.proc))) t := by
  rw [← strStops_eq, elementFlags, ← strFlags_eq]
  exact retires_of_strEnd_flags hx hready hgo helem

/-- The sum of two packed bytes and a carry in: its low two digits, packed, and the carry out (08 R251). -/
theorem digitSum_eq (x y : Nat) (c : Bool) : digitSum x y c =
    (((x / 16 * 10 + x % 16) + (y / 16 * 10 + y % 16) + c.toNat) % 100 / 10 * 16 +
      ((x / 16 * 10 + x % 16) + (y / 16 * 10 + y % 16) + c.toNat) % 10,
      decide (100 ≤ (x / 16 * 10 + x % 16) + (y / 16 * 10 + y % 16) + c.toNat)) := by
  rw [digitSum, ControlRegisters.bit_eq_toNat]

/-- Settles O24: each element is its loads and stores in order, then `strEnd`. -/
theorem stringInstructionElements : Obligations.StringInstructionElements := by
  unfold Obligations.StringInstructionElements
  refine ⟨?movs, ?cmps, ?scans, ?fills, ?xlats, ?dadds, ?repZero⟩
  case movs =>
    intro i o s s1 s2 bs s3 hready hgo hload hstore
    rw [← rdA_inBody] at hload
    exact retires_of_strEnd_plain (Laws.exec_movs i o s) hready hgo ((loadThen_ok hload _).trans (storeThen_ok hstore _))
  case cmps =>
    intro i o s s1 s2 bs s3 cs hready hgo hfirst hsecond
    rw [← rdA_inBody] at hfirst
    exact retires_of_comparison (Laws.exec_cmps i o s) hready hgo ((loadThen_ok hfirst _).trans (loadThen_ok hsecond _))
  case scans =>
    intro i o s s1 s2 bs hready hgo hload
    rw [← rdA_inBody] at hload
    exact retires_of_comparison (Laws.exec_scans i o s) hready hgo (loadThen_ok hload _)
  case fills =>
    intro i o s s1 s2 hready hgo hstore
    rw [← rdA_inBody, ← rdD_inBody] at hstore
    exact retires_of_strEnd_plain (Laws.exec_fills i o s) hready hgo (storeThen_ok hstore _)
  case xlats =>
    intro i o s s1 s2 bs s3 cs s4 hready hgo hindex hbyte hstore
    rw [← rdA_inBody] at hindex
    exact retires_of_strEnd_plain (Laws.exec_xlats i o s) hready hgo
      ((loadThen_ok hindex _).trans ((loadThen_ok hbyte _).trans (storeThen_ok hstore _)))
  case dadds =>
    intro i o s s1 s2 bs s3 cs s4 hready hgo hfirst hsecond hx hx' hy hy' n hstore k
    rw [← rdA_inBody] at hfirst
    have hvalid : ¬ (!bcdByte (leNat bs) || !bcdByte (leNat cs)) = true := by simp [bcdByte, hx, hx', hy, hy']
    have hsum := digitSum_eq (leNat cs) (leNat bs) (getCore s3 i.proc).psw.c
    have hretires := retires_of_strEnd_flags (f := fun p => { p with c := (digitSum (leNat cs) (leNat bs) (getCore s3 i.proc).psw.c).2 })
      (Laws.exec_dadds i o s) hready hgo ((loadThen_ok hfirst _).trans ((loadThen_ok hsecond _).trans
        ((if_neg hvalid).trans (storeThen_ok (by rw [hsum]; exact hstore) _))))
    rw [hsum] at hretires
    exact hretires
  case repZero =>
    intro i o hrep
    exact ⟨effectIf_repZero (Laws.exec_movs i o) hrep, effectIf_repZero (Laws.exec_cmps i o) hrep,
      effectIf_repZero (Laws.exec_scans i o) hrep, effectIf_repZero (Laws.exec_fills i o) hrep,
      effectIf_repZero (Laws.exec_xlats i o) hrep⟩

end Sys2Proof.Proofs.Strings
end

section
/-! A logical core's load of DRAM outside a transaction (O21): its address leaves all but translations, and the load itself all
registers and bytes. -/
namespace Sys2Proof.Proofs.CoreLoads

open Sys2Proof.Machine Sys2Proof.Claims

/-- A core's registers without the translations that it holds. -/
def withoutTranslations (c : Core) : Core := { c with tlb := [], ctxLine := none }

theorem sb_of_withoutTranslations {c d : Core} (h : withoutTranslations d = withoutTranslations c) : d.sb = c.sb := by
  have hsb := congrArg Core.sb h
  exact hsb

theorem txn_of_withoutTranslations {c d : Core} (h : withoutTranslations d = withoutTranslations c) : d.txn = c.txn := by
  have htxn := congrArg Core.txn h
  exact htxn

/-- The checks on an address leave the state. -/
theorem checkAddr_at {s s0 : State} {u : UnitId} {l mpa m : Nat} {a : Access} {w us code : Bool}
    (h : checkAddr s u l mpa a w us code = .at m s0) : s0 = s := by
  simp only [checkAddr] at h
  split at h
  · cases h
  · split at h <;> cases h
    rfl

/-- A translation leaves the bytes of memory, and the core's registers but for the translations that it holds (15 R446, R448). -/
theorem coreAddr_at {s s0 : State} {u : UnitId} {l mpa : Nat} {va : Word} {a : Access} (h : coreAddr s u l va a = .at mpa s0) :
    (getUnit s0 u).mem.data = (getUnit s u).mem.data ∧
      withoutTranslations (unitCore (getUnit s0 u) l) = withoutTranslations (unitCore (getUnit s u) l) := by
  simp only [coreAddr] at h
  split at h
  · rw [checkAddr_at h]
    exact ⟨rfl, rfl⟩
  · split at h
    · cases h
    · split at h
      · cases h
      · split at h
        · next hcheck =>
          cases h
          rw [checkAddr_at hcheck, Laws.getUnit_modUnit, Laws.unitCore_setUnitCore]
          exact ⟨rfl, rfl⟩
        · next hother => exact (hother _ _ h).elim

theorem dataAddr_core {s s0 : State} {u : UnitId} {l : CoreId} {mpa : Nat} {va : Word} {a : Access}
    (h : dataAddr s (.core u l) va a = .at mpa s0) : coreAddr s u l va a = .at mpa s0 := by
  rw [dataAddr] at h
  split at h
  · cases h
  · exact h

theorem sbForward_congr {c d : Core} (h : d.sb = c.sb) (mpa n : Nat) : sbForward d mpa n = sbForward c mpa n := by
  have hover : sbOverlap d mpa n = sbOverlap c mpa n := by rw [sbOverlap, h, sbOverlap]
  rw [sbForward, hover, sbForward]

/-- A load of DRAM that no buffered store covers in part (09 R266, R267). -/
theorem dramLoad_ok {s s2 : State} {u : UnitId} {l mpa n : Nat} {va : Word} {bs : List Byte}
    (htxn : (unitCore (getUnit s u) l).txn = none) (hpart : sbForward (unitCore (getUnit s u) l) mpa n ≠ .part)
    (h : dramLoad s u l va mpa n = .ok s2 bs) :
    (getUnit s2 u).mem.data = (getUnit s u).mem.data ∧ (getUnit s2 u).exe.cores = (getUnit s u).exe.cores ∧
      (sbForward (unitCore (getUnit s u) l) mpa n = .value bs ∨
        sbForward (unitCore (getUnit s u) l) mpa n = .none ∧ bs = tabGetList byteDef (getUnit s u).mem.data mpa n) := by
  simp only [dramLoad, htxn] at h
  split at h
  case h_1 hfwd =>
    cases h
    exact ⟨rfl, rfl, .inl hfwd⟩
  case h_2 hfwd =>
    split at h
    · next x htouch =>
      obtain ⟨hdata, hcores⟩ := Laws.coreTouch_go htouch
      split at h
      · cases h
      · cases h
        simp [hdata, hcores, hfwd]
    · cases h
  case h_3 hfwd => exact (hpart hfwd).elim

/-- Settles O21: the address by `coreAddr_at`, the load by `dramLoad_ok`. -/
theorem coreLoadsOfDram : Obligations.CoreLoadsOfDram := by
  unfold Obligations.CoreLoadsOfDram
  intro s u l va a mpa s0 s2 bs haddr hctl hfb htxn hpart hload
  obtain ⟨hdata, hsame⟩ := coreAddr_at (dataAddr_core haddr)
  have hfwd := sbForward_congr (sb_of_withoutTranslations hsame) mpa a.n
  rw [← hfwd] at hpart
  have hdram : dramLoad s0 u l va mpa a.n = .ok s2 bs := by simpa [loadBytes, haddr, hctl, hfb] using hload
  obtain ⟨hdata2, hcores2, hbytes⟩ := dramLoad_ok ((txn_of_withoutTranslations hsame).trans htxn) hpart hdram
  have hcore2 : unitCore (getUnit s2 u) l = unitCore (getUnit s0 u) l := by rw [unitCore, hcores2, unitCore]
  refine ⟨fun n => by rw [byteAt, hdata2, hdata, byteAt], ?_, by rw [hcore2]; exact hsame⟩
  rw [hfwd, hdata, Laws.tabGetList_eq] at hbytes
  exact hbytes

end Sys2Proof.Proofs.CoreLoads
end

section
/-! Exceptions of decode (O32) and the service group (O33): what an instruction that fails its decode checks comes to. -/
namespace Sys2Proof.Proofs.DecodeExceptions

open Sys2Proof.Machine Sys2Proof.Safety Sys2Proof.Claims

/-- A fetched instruction that fails its decode checks takes the cause, whatever its body (07 R237). -/
theorem runInstr_decodeCause {s s1 : State} {i : Issue} {e : Enc} {code : Nat} (h : Fetched s i e.len s1)
    (hcause : decodeCause e (procProfile i.proc) (getCore s1 i.proc) = code) (hcode : code ≠ 0) (body : State → XOut) :
    runInstr s i e body = takeExn s1 i.proc code (e.len - 1) 0 := by
  have hruns := h.runs
  have hquiet := h.quiet
  have hfree := h.free
  have hfetch := h.fetch
  obtain ⟨p, ucc⟩ := i
  cases p <;> simp_all [runInstr, interruptAt]

/-- An encoding that the profile lacks, or that is illegal, is ILLEGAL. -/
theorem decodeCause_illegal {e : Enc} {p : Profile} (h : encHas e p = false ∨ e.bad = true) (c : Core) : decodeCause e p c = 1 := by
  rcases h with h | h <;> simp [decodeCause, h]

/-- A privileged instruction in problem state is PRIVILEGED, where its encoding is legal. -/
theorem decodeCause_privileged {e : Enc} {p : Profile} {c : Core} (hhas : encHas e p = true) (hbad : e.bad = false)
    (hpage : c.pc.toNat % 8192 + e.len ≤ 8192) (hpriv : e.priv = true) (hs : c.psw.s = false) : decodeCause e p c = 2 := by
  simp [decodeCause, hhas, hbad, hpriv, hs, Nat.not_lt.2 hpage]

theorem entryPoint_exception (c : Core) : entryPoint c .exception = BitVec.ofNat 48 (c.vbase.toNat * 1024 + 256) := by
  have hlt := c.vbase.isLt
  apply BitVec.eq_of_toNat_eq
  simp [entryPoint, entryOffset, Nat.shiftLeft_eq]

/-- The entry sequence of an exception outside a transaction leaves the registers of `entered` at +256 (10 R297, R299). -/
theorem enterCore_exception {code : Nat} (hkind : causeKind code = .exception) (c : Core) (ilen : Nat) (iaddr epc : CodeAddr)
    (eaddr : Word) :
    enterCore { c with rsvValid := false } code ilen false iaddr epc eaddr = entered c code ilen iaddr epc eaddr 256 := by
  have hpc : entryPoint { c with rsvValid := false } .exception = BitVec.ofNat 48 (c.vbase.toNat * 1024 + 256) := entryPoint_exception c
  simp [enterCore, entered, hkind, hpc]
  rfl

/-- An exception outside a transaction that does not arise at its own entry point is an entry (10 R297, R299). -/
theorem takeCause_exception {s : State} {u : UnitId} {l : CoreId} {code : Nat} (hkind : causeKind code = .exception)
    (hplain : plainCore s u l) (ilen : Nat) (epc : CodeAddr) (eaddr : Word) :
    takeCause s u l code ilen (unitCore (getUnit s u) l).pc epc eaddr =
      modUnit s u (fun x => enterFrom x l code ilen (unitCore (getUnit s u) l).pc epc eaddr) := by
  obtain ⟨-, hentry⟩ := hplain
  have hlow : ¬ 0x21 ≤ code := fun h => by simp [causeKind, show 0x20 ≤ code by omega] at hkind
  have hpc : (unitCore (getUnit s u) l).pc ≠ entryPoint (unitCore (getUnit s u) l) .exception := by
    rw [entryPoint_exception]
    exact hentry
  simp [takeCause, hkind, hlow, hpc]

theorem enterFrom_data {x : UnitState} {l : Nat} (h : (unitCore x l).txn = none) (code ilen : Nat) (iaddr epc : CodeAddr)
    (eaddr : Word) :
    (enterFrom x l code ilen iaddr epc eaddr).mem.data = x.mem.data := by
  have habort (code : BitVec 8) : txAbort x l code = x := by simp only [txAbort, h]
  simp only [enterFrom, habort, clearRsv, setUnitCore, releasePin]
  split
  · exact Laws.setDir_data _ _ _ _
  · rfl

theorem enterFrom_otherCore {x : UnitState} {l m : Nat} (h : (unitCore x l).txn = none) (hm : l ≠ m) (code ilen : Nat)
    (iaddr epc : CodeAddr)
    (eaddr : Word) : unitCore (enterFrom x l code ilen iaddr epc eaddr) m = unitCore x m := by
  have habort (code : BitVec 8) : txAbort x l code = x := by simp only [txAbort, h]
  simp only [enterFrom, habort, clearRsv, Laws.unitCore_setUnitCore_ne _ _ hm, OrderReset.unitCore_releasePin]

theorem unit_ne_other (u : UnitId) : u ≠ u.other := by cases u <;> decide

section
variable {c : Instr} {s s1 : State} {u : UnitId} {l : CoreId} {ucc len : Nat} {e : Enc} {body : State → XOut}

/-- A core's instruction that fails its decode checks raises the cause. -/
theorem raises_of_decodeCause {code : Nat} (hx : exec c s = runInstr s ⟨.core u l, ucc⟩ e body) (hlen : e.len = len)
    (hfetched : Fetched s ⟨.core u l, ucc⟩ len s1) (hplain : plainCore s1 u l)
    (hcause : decodeCause e .c (getCore s1 (.core u l)) = code) (hcode : code = 1 ∨ code = 2) : raises c s s1 u l code len 0 := by
  subst hlen
  have hkind : causeKind code = .exception := by rcases hcode with rfl | rfl <;> rfl
  have hne : code ≠ 0 := by omega
  have hsvc : code ≠ 0x0C := by omega
  have htxn : (unitCore (getUnit s1 u) l).txn = none := hplain.1
  have htake := takeCause_exception hkind hplain (e.len - 1) (unitCore (getUnit s1 u) l).pc 0
  have hnext : exec c s = .next (modUnit s1 u fun x =>
      enterFrom x l code (e.len - 1) (unitCore (getUnit s1 u) l).pc (unitCore (getUnit s1 u) l).pc 0) := by
    rw [hx, runInstr_decodeCause hfetched hcause hne, ← htake]
    simp only [takeExn, if_neg hsvc]
  refine ⟨_, hnext, ?registers, ?bytes, ?cores, ?other⟩
  case registers =>
    rw [getCore, Laws.getUnit_modUnit, OrderReset.unitCore_enterFrom htxn, enterCore_exception hkind]
    rfl
  case bytes =>
    intro n
    rw [byteAt, Laws.getUnit_modUnit, enterFrom_data htxn, byteAt]
  case cores =>
    intro m hm
    rw [Laws.getUnit_modUnit, enterFrom_otherCore htxn (Ne.symm hm)]
  case other => exact Laws.getUnit_modUnit_ne _ _ (unit_ne_other u)

/-- An encoding that logical cores lack, or that is illegal, raises ILLEGAL on a core. -/
theorem raises_illegal (hx : exec c s = runInstr s ⟨.core u l, ucc⟩ e body) (hlen : e.len = len)
    (hfetched : Fetched s ⟨.core u l, ucc⟩ len s1) (hplain : plainCore s1 u l) (hbad : e.c = false ∨ e.bad = true) :
    raises c s s1 u l 1 len 0 :=
  raises_of_decodeCause hx hlen hfetched hplain (decodeCause_illegal (p := .c) hbad _) (.inl rfl)

/-- A privileged instruction of logical cores raises PRIVILEGED on a core in problem state. -/
theorem raises_privileged (hx : exec c s = runInstr s ⟨.core u l, ucc⟩ e body) (hlen : e.len = len)
    (hfetched : Fetched s ⟨.core u l, ucc⟩ len s1) (hplain : plainCore s1 u l) (hs : (getCore s1 (.core u l)).psw.s = false)
    (hpage : (getCore s1 (.core u l)).pc.toNat % 8192 + len ≤ 8192) (hhas : e.c = true) (hbad : e.bad = false) (hpriv : e.priv = true) :
    raises c s s1 u l 2 len 0 :=
  raises_of_decodeCause hx hlen hfetched hplain (decodeCause_privileged (p := .c) hhas hbad (hlen ▸ hpage) hpriv hs) (.inr rfl)

/-- The same for an instruction that works on registers alone. -/
theorem raises_privileged_of_runReg {g : Core → Core × List (BitVec 8 × Quad)} (hx : exec c s = runReg s ⟨.core u l, ucc⟩ e g)
    (hlen : e.len = len) (hfetched : Fetched s ⟨.core u l, ucc⟩ len s1) (hplain : plainCore s1 u l)
    (hs : (getCore s1 (.core u l)).psw.s = false) (hpage : (getCore s1 (.core u l)).pc.toNat % 8192 + len ≤ 8192)
    (hhas : e.c = true) (hbad : e.bad = false) (hpriv : e.priv = true) : raises c s s1 u l 2 len 0 :=
  raises_privileged (body := regBody (.core u l) g) hx hlen hfetched hplain hs hpage hhas hbad hpriv

end

/-- MFC and MTC of a supervisor's control register: the encoding is legal and privileged (07 R219, R220). -/
theorem encCtlReg_supervisor {code : BitVec 12} (hlow : 0x37 ≤ code.toNat) (hhigh : code.toNat ≤ 0x3F) (hne : code.toNat ≠ 0x3E) :
    (encCtlReg code).bad = false ∧ (encCtlReg code).priv = true := by
  have hassigned : 0x30 ≤ code.toNat ∧ code.toNat < 0x40 ∧ code.toNat ≠ 0x3E := by omega
  simp [encCtlReg, hassigned, hlow]

/-- Settles O32: each instruction fails its decode checks, and `raises_of_decodeCause` says what the core then comes to. -/
theorem illegalAndPrivilegedInstructions : Obligations.IllegalAndPrivilegedInstructions := by
  unfold Obligations.IllegalAndPrivilegedInstructions
  refine ⟨?unassigned, ?serviceGroup, ?oneSyllable, ?twoSyllables, ?engine, ?service⟩
  case unassigned =>
    intro s s1 u l ucc why len i hfetched hplain
    exact raises_illegal (Laws.exec_unassignedInstruction i why len s) rfl hfetched hplain (.inr rfl)
  case serviceGroup =>
    intro s s1 u l ucc d r t i hfetched hplain
    exact ⟨raises_illegal (Laws.exec_serviceIoRead i d r t s) rfl hfetched hplain (.inl rfl),
      raises_illegal (Laws.exec_serviceIoWrite i d r t s) rfl hfetched hplain (.inl rfl),
      raises_illegal (Laws.exec_serviceStakeIssue i d r t s) rfl hfetched hplain (.inl rfl),
      raises_illegal (Laws.exec_serviceKeyTransfer i d r t s) rfl hfetched hplain (.inl rfl)⟩
  case oneSyllable =>
    intro s s1 u l ucc i hfetched hplain hs
    have hpage : (getCore s1 (.core u l)).pc.toNat % 8192 + 1 ≤ 8192 := by omega
    exact ⟨raises_privileged_of_runReg (Laws.exec_ei i s) rfl hfetched hplain hs hpage rfl rfl rfl,
      raises_privileged_of_runReg (Laws.exec_di i s) rfl hfetched hplain hs hpage rfl rfl rfl,
      raises_privileged_of_runReg (Laws.exec_rte i s) rfl hfetched hplain hs hpage rfl rfl rfl,
      raises_privileged (Laws.exec_wait i s) rfl hfetched hplain hs hpage rfl rfl rfl⟩
  case twoSyllables =>
    intro s s1 u l ucc a t code i hfetched hplain hs hpage
    refine ⟨raises_privileged (Laws.exec_lcode i a t s) rfl hfetched hplain hs hpage rfl rfl rfl, fun hlow hhigh hne => ?_⟩
    obtain ⟨hbad, hpriv⟩ := encCtlReg_supervisor hlow hhigh hne
    exact ⟨raises_privileged_of_runReg (Laws.exec_mfc i a code s) rfl hfetched hplain hs hpage rfl hbad hpriv,
      raises_privileged_of_runReg (Laws.exec_mtc i code t s) rfl hfetched hplain hs hpage rfl hbad hpriv⟩
  case engine =>
    intro s s1 u e ucc why len i hfetched
    have hrun := (Laws.exec_unassignedInstruction i why len s).trans
      (runInstr_decodeCause hfetched (decodeCause_illegal (.inr rfl) _) one_ne_zero _)
    refine ⟨_, hrun, ?_, ?_⟩
    · exact Laws.getCore_setCore s1 i.proc _
    · exact (Laws.elsewhere_setCore i.proc s1 _).trans
        ((Laws.fetchCheck_elsewhere hfetched.fetch).trans (Laws.elsewhere_atUcc s i))
  case service =>
    intro s s1 ucc why len i hfetched
    exact (Laws.exec_unassignedInstruction i why len s).trans
      (runInstr_decodeCause hfetched (decodeCause_illegal (.inr rfl) _) one_ne_zero _)

/-- An instruction that is ready, and whose body the model does not give, stops the model. -/
theorem runInstr_refuse {s s1 : State} {i : Issue} {e : Enc} (h : Ready s i e s1) (r : Refusal) :
    runInstr s i e (fun _ => .refuse r) = .refused r := Laws.runInstr_ready h _

/-- Settles O33: each of the four forms refuses by name (07 R228). -/
theorem serviceGroupStops : Obligations.ServiceGroupStops := by
  unfold Obligations.ServiceGroupStops
  intro s s1 ucc d r t i hready
  exact ⟨(Laws.exec_serviceIoRead i d r t s).trans (runInstr_refuse hready _),
    (Laws.exec_serviceIoWrite i d r t s).trans (runInstr_refuse hready _),
    (Laws.exec_serviceStakeIssue i d r t s).trans (runInstr_refuse hready _),
    (Laws.exec_serviceKeyTransfer i d r t s).trans (runInstr_refuse hready _)⟩

end Sys2Proof.Proofs.DecodeExceptions
end

section
/-! Integer arithmetic on data, address and accumulator registers: sums, differences and comparisons with their flags, divisions, products
into accumulators (O1, O3, O8, O9). -/
namespace Sys2Proof.Proofs.Arithmetic

open Sys2Proof.Machine Sys2Proof.Safety Sys2Proof.Claims Sys2Proof.Proofs.Registers

/-- A sum with a carry in, as a signed number: the true sum reduced into the signed range. -/
theorem toInt_add_carry {w : Nat} (x y : BitVec w) (n : Nat) :
    (x + y + BitVec.ofNat w n).toInt = (x.toInt + y.toInt + n).bmod (2 ^ w) := by
  rw [BitVec.toInt_add, BitVec.toInt_add, BitVec.toInt_ofNat', Int.bmod_add_bmod, Int.add_bmod_bmod]

/-- A difference with a borrow in, as a signed number: the true difference reduced into the signed range. -/
theorem toInt_sub_borrow {w : Nat} (x y : BitVec w) (n : Nat) :
    (x - y - BitVec.ofNat w n).toInt = (x.toInt - y.toInt - n).bmod (2 ^ w) := by
  rw [BitVec.toInt_sub, BitVec.toInt_sub, BitVec.toInt_ofNat', Int.bmod_sub_bmod, Int.sub_bmod_bmod]

theorem eq_zero_iff_toNat {w : Nat} (r : BitVec w) : r = 0#w ↔ r.toNat = 0 := by
  rw [BitVec.toNat_eq, BitVec.toNat_zero]

/-- The flags of a sum, as the model sets them (08 R239). -/
theorem setNzcv_addFull {w : Nat} (hw : 0 < w) (p : Psw) (x y : BitVec w) (cin : Bool) :
    setNzcv p (addFull x y cin).1 (addFull x y cin).2.1 (addFull x y cin).2.2 = sumFlags p x y cin := by
  simp only [setNzcv, addFull, sumFlags, ControlRegisters.bit_eq_toNat, Comparisons.outside_eq_bmod hw, toInt_add_carry, BitVec.msb,
    BitVec.ofNat_eq_ofNat, eq_zero_iff_toNat]

/-- The flags of a difference with a borrow in, as the model sets them (08 R239). -/
theorem setNzcv_subFull_borrow {w : Nat} (hw : 0 < w) (p : Psw) (x y : BitVec w) (bin : Bool) :
    setNzcv p (subFull x y bin).1 (subFull x y bin).2.1 (subFull x y bin).2.2 = diffFlags p x y bin := by
  simp only [setNzcv, subFull, diffFlags, ControlRegisters.bit_eq_toNat, Comparisons.outside_eq_bmod hw, toInt_sub_borrow, BitVec.msb,
    BitVec.ofNat_eq_ofNat, eq_zero_iff_toNat]

theorem addFull_value {w : Nat} (x y : BitVec w) (cin : Bool) : (addFull x y cin).1 = x + y + BitVec.ofNat w cin.toNat := by
  rw [← ControlRegisters.bit_eq_toNat, addFull]

theorem subFull_value {w : Nat} (x y : BitVec w) (bin : Bool) : (subFull x y bin).1 = x - y - BitVec.ofNat w bin.toNat := by
  rw [← ControlRegisters.bit_eq_toNat, subFull]

@[simp] theorem putK_core (c : Core) (k : Reg) (v : Quad) : (putK c k v).1 = wrK c k v := rfl

@[simp] theorem withFlags_core (r : Core × List (BitVec 8 × Quad)) (f : Psw → Psw) :
    (withFlags r f).1 = { r.1 with psw := f r.1.psw } := rfl

@[simp] theorem wrD_psw (c : Core) (d : Reg) (v : Word) : (wrD c d v).psw = c.psw := rfl
@[simp] theorem wrK_psw (c : Core) (k : Reg) (v : Quad) : (wrK c k v).psw = c.psw := rfl

@[simp] theorem addOp_core (c : Core) (d : Reg) (x y : Word) (cin : Bool) : (addOp c d x y cin).1 = sumTo c d x y cin := by
  simp only [addOp, withFlags_core, putD_core, wrD_psw, setNzcv_addFull (by decide : 0 < 64)]
  rw [addFull_value, sumTo]

@[simp] theorem subOp_core (c : Core) (d : Reg) (x y : Word) (bin : Bool) : (subOp c d x y bin).1 = diffTo c d x y bin := by
  simp only [subOp, withFlags_core, putD_core, wrD_psw, setNzcv_subFull_borrow (by decide : 0 < 64)]
  rw [subFull_value, diffTo]

@[simp] theorem cmpOp_core (c : Core) (x y : Word) : (cmpOp c x y).1 = { c with psw := diffFlags c.psw x y false } := by
  simp only [cmpOp, withFlags_core, Comparisons.setNzcv_subFull (by decide : 0 < 64)]

/-- Settles O1: every form is a sum, a difference or a comparison, whose flags are those of `setNzcv_addFull` and
`setNzcv_subFull_borrow`. -/
theorem sumsDifferencesAndComparisons : Obligations.SumsDifferencesAndComparisons := by
  unfold Obligations.SumsDifferencesAndComparisons
  refine ⟨?add, ?sub, ?addc, ?subb, ?addq, ?addi, ?adiff, ?neg, ?cmp, ?cmpi, ?acmp⟩
  case add => exact fun i o => effect_of_forms _ (Laws.exec_add i o) fun k => by rw [addOp_core, aluRegs_eq]
  case sub => exact fun i o => effect_of_forms _ (Laws.exec_sub i o) fun k => by rw [subOp_core, aluRegs_eq]
  case addc => exact fun i d x y => effect_of_regs _ (Laws.exec_addc i d x y) fun k => addOp_core k d _ _ _
  case subb => exact fun i d x y => effect_of_regs _ (Laws.exec_subb i d x y) fun k => subOp_core k d _ _ _
  case addq => exact fun i d q => effect_of_regs _ (Laws.exec_addq i d q) fun k => addOp_core k d _ _ _
  case addi => exact fun i d x imm => effect_of_regs _ (Laws.exec_addi i d x imm) fun k => addOp_core k d _ _ _
  case adiff => exact fun i d x y => effect_of_regs _ (Laws.exec_adiff i d x y) fun k => subOp_core k d _ _ _
  case neg => exact fun i d => effect_of_regs _ (Laws.exec_neg i d) fun k => subOp_core k d _ _ _
  case cmp => exact fun i x y => effect_of_regs _ (Laws.exec_cmp i x y) fun k => cmpOp_core k _ _
  case cmpi => exact fun i x imm => effect_of_regs _ (Laws.exec_cmpi i x imm) fun k => cmpOp_core k _ _
  case acmp => exact fun i x y => effect_of_regs _ (Laws.exec_acmp i x y) fun k => cmpOp_core k _ _

theorem allOnes_eq_neg_one : BitVec.allOnes 64 = -1 := rfl

theorem divU_eq (x y : Word) : divU x y = if y = 0 then -1 else BitVec.ofNat 64 (x.toNat / y.toNat) := by
  rw [divU, allOnes_eq_neg_one, ← BitVec.toNat_udiv, BitVec.ofNat_toNat, BitVec.setWidth_eq]

theorem remU_eq (x y : Word) : remU x y = if y = 0 then x else BitVec.ofNat 64 (x.toNat % y.toNat) := by
  rw [remU, ← BitVec.toNat_umod, BitVec.ofNat_toNat, BitVec.setWidth_eq]

/-- Settles O3: the signed forms as written, the unsigned ones by `divU_eq` and `remU_eq`. -/
theorem divisionResults : Obligations.DivisionResults := by
  unfold Obligations.DivisionResults
  refine ⟨?div, ?rem, ?divu, ?remu⟩
  case div => exact fun i d x y => effect_of_regs _ (Laws.exec_div i d x y) fun k => by rw [putD_core, divS, allOnes_eq_neg_one]
  case rem => exact fun i d x y => effect_of_regs _ (Laws.exec_rem i d x y) fun _ => rfl
  case divu => exact fun i d x y => effect_of_regs _ (Laws.exec_divu i d x y) fun k => by rw [putD_core, divU_eq]
  case remu => exact fun i d x y => effect_of_regs _ (Laws.exec_remu i d x y) fun k => by rw [putD_core, remU_eq]

@[simp] theorem macOp_core (c : Core) (k : Reg) (p : Quad) : (macOp c k p).1 = accAdd c k p := by
  simp only [macOp, withFlags_core, putK_core, wrK_psw, addFull_value, accAdd]
  simp [addFull, bit]

/-- Settles O8: the products as written, the accumulated sums by `macOp_core`. -/
theorem productsIntoAccumulators : Obligations.ProductsIntoAccumulators := by
  unfold Obligations.ProductsIntoAccumulators
  refine ⟨?mulwu, ?mulws, ?macwu, ?macws⟩
  case mulwu => exact fun i k x y => effect_of_regs _ (Laws.exec_mulwu i k x y) fun _ => rfl
  case mulws => exact fun i k x y => effect_of_regs _ (Laws.exec_mulws i k x y) fun _ => rfl
  case macwu => exact fun i k x y => effect_of_regs _ (Laws.exec_macwu i k x y) fun c => macOp_core c k _
  case macws => exact fun i k x y => effect_of_regs _ (Laws.exec_macws i k x y) fun c => macOp_core c k _

@[simp] theorem kaddOp_core (c : Core) (k : Reg) (x y : Quad) (cin : Bool) : (kaddOp c k x y cin).1 = accSumTo c k x y cin := by
  simp only [kaddOp, withFlags_core, putK_core, wrK_psw, setNzcv_addFull (by decide : 0 < 128)]
  rw [addFull_value, accSumTo]

@[simp] theorem ksubOp_core (c : Core) (k : Reg) (x y : Quad) (bin : Bool) : (ksubOp c k x y bin).1 = accDiffTo c k x y bin := by
  simp only [ksubOp, withFlags_core, putK_core, wrK_psw, setNzcv_subFull_borrow (by decide : 0 < 128)]
  rw [subFull_value, accDiffTo]

section
variable (q : Quad) (w : Word)

theorem low_eq_setWidth : q.setWidth 64 = low q := BitVec.eq_of_toNat_eq (by simp [low])

theorem high_eq_setWidth : (q >>> 64).setWidth 64 = high q :=
  BitVec.eq_of_toNat_eq (by simp [high, Nat.shiftRight_eq_div_pow])

/-- The bits of an accumulator of two halves: the low half, then the high one. -/
theorem halves_getLsbD (h l : Word) (i : Nat) :
    (halves h l).getLsbD i = if i < 64 then l.getLsbD i else h.getLsbD (i - 64) := by
  rw [halves, BitVec.getLsbD_ofNat, Nat.mul_comm, Nat.testBit_two_pow_mul_add _ l.isLt]
  by_cases hi : i < 128
  · simp [hi, BitVec.getLsbD]
  · simp [hi, show ¬ i < 64 by omega, BitVec.getLsbD_of_ge h (i - 64) (by omega)]

theorem withBits_low_half : withBits q 0 64 w.toNat = halves (high q) w := by
  refine BitVec.eq_of_getLsbD_eq fun i hi => ?_
  rw [Fields.getLsbD_withBits, halves_getLsbD, ← high_eq_setWidth]
  by_cases hlow : i < 64
  · simp [hlow, hi, BitVec.getLsbD]
  · simp [hlow, hi, show i - 64 < 64 by omega, show 64 + (i - 64) = i by omega]

theorem withBits_high_half : withBits q 64 64 w.toNat = halves w (low q) := by
  refine BitVec.eq_of_getLsbD_eq fun i hi => ?_
  rw [Fields.getLsbD_withBits, halves_getLsbD, ← low_eq_setWidth]
  by_cases hlow : i < 64
  · simp [hlow, hi, show ¬ 64 ≤ i by omega]
  · simp [hlow, hi, show 64 ≤ i by omega, BitVec.getLsbD]

end

/-- Settles O9: sums and differences as at 64 bits, and the halves by `withBits_low_half` and `withBits_high_half`. -/
theorem accumulatorResults : Obligations.AccumulatorResults := by
  unfold Obligations.AccumulatorResults
  refine ⟨?kadd, ?kaddc, ?ksub, ?ksubb, ?kcmp, ?kmov, ?mfkl, ?mfkh, ?mtkl, ?mtkh, ?kclr⟩
  case kadd => exact fun i k x => effect_of_regs _ (Laws.exec_kadd i k x) fun c => kaddOp_core c k _ _ _
  case kaddc => exact fun i k x => effect_of_regs _ (Laws.exec_kaddc i k x) fun c => kaddOp_core c k _ _ _
  case ksub => exact fun i k x => effect_of_regs _ (Laws.exec_ksub i k x) fun c => ksubOp_core c k _ _ _
  case ksubb => exact fun i k x => effect_of_regs _ (Laws.exec_ksubb i k x) fun c => ksubOp_core c k _ _ _
  case kcmp =>
    intro i k x
    refine effect_of_regs _ (Laws.exec_kcmp i k x) fun c => ?_
    rw [withFlags_core, Comparisons.setNzcv_subFull (by decide)]
  case kmov => exact fun i k x => effect_of_regs _ (Laws.exec_kmov i k x) fun _ => rfl
  case mfkl => exact fun i d k => effect_of_regs _ (Laws.exec_mfkl i d k) fun c => by rw [putD_core, low_eq_setWidth]
  case mfkh => exact fun i d k => effect_of_regs _ (Laws.exec_mfkh i d k) fun c => by rw [putD_core, high_eq_setWidth]
  case mtkl => exact fun i k x => effect_of_regs _ (Laws.exec_mtkl i k x) fun c => by rw [putK_core, withBits_low_half]
  case mtkh => exact fun i k x => effect_of_regs _ (Laws.exec_mtkh i k x) fun c => by rw [putK_core, withBits_high_half]
  case kclr => exact fun i k => effect_of_regs _ (Laws.exec_kclr i k) fun _ => rfl

end Sys2Proof.Proofs.Arithmetic
end

section
/-! Packed-decimal instructions (O10): the digits, sign and value of an accumulator as 07 R218 says them and as the model computes them,
and the numbers that are written. -/
namespace Sys2Proof.Proofs.Decimals

open Sys2Proof.Machine Sys2Proof.Safety Sys2Proof.Claims Sys2Proof.Proofs.Registers Sys2Proof.Proofs.Arithmetic

section
variable (q : Quad)

theorem bcdDigit_eq_nibble (n : Nat) : bcdDigit q n = nibble q (n + 1) := rfl

theorem signNibble_eq : bitsOf q 0 4 = nibble q 0 := rfl

theorem bcdMinus_eq_minus : bcdMinus q = minus q := rfl

theorem bcdMag_eq_sum (n : Nat) : bcdMag q n = ((List.range n).map (fun k => nibble q (k + 1) * 10 ^ k)).sum := by
  induction n with
  | zero => rfl
  | succ n ih => rw [bcdMag, ih, List.sum_range_succ, bcdDigit_eq_nibble]

theorem bcdMag_eq_magnitude : bcdMag q 31 = magnitude q := bcdMag_eq_sum q 31

theorem bcdValue_eq_packedValue : bcdValue q = packedValue q := by
  rw [bcdValue, packedValue, bcdMinus_eq_minus, bcdMag_eq_magnitude]

theorem bcdValid_iff_packedOk : bcdValid q = true ↔ packedOk q := by
  simp only [bcdValid, Bool.and_eq_true, List.all_eq_true, List.mem_range, decide_eq_true_eq]
  rfl

end

/-- The digits of a number, each in the nibble above the sign and the digits below it. -/
theorem bcdDigits_eq_sum (n m : Nat) :
    16 * bcdDigits n m = ((List.range n).map (fun k => m / 10 ^ k % 10 * 2 ^ (4 * (k + 1)))).sum := by
  induction n generalizing m with
  | zero => rfl
  | succ n ih =>
    have hshift : ∀ k, m / 10 ^ (k + 1) % 10 * 2 ^ (4 * (k + 1 + 1)) = 16 * (m / 10 / 10 ^ k % 10 * 2 ^ (4 * (k + 1))) := by
      intro k
      rw [Nat.div_div_eq_div_mul, ← Nat.pow_succ', show 4 * (k + 1 + 1) = 4 * (k + 1) + 4 by ring, Nat.pow_add]
      ring
    rw [bcdDigits, List.range_succ_eq_map, List.map_cons, List.sum_cons, List.map_map, Nat.mul_add, ih]
    simp only [Function.comp_def, hshift, List.sum_map_mul_left, Nat.pow_zero, Nat.div_one]
    ring

/-- The low-order digits of a number are those of its residue. -/
theorem digit_mod {n k : Nat} (h : k < n) (m : Nat) : m % 10 ^ n / 10 ^ k % 10 = m / 10 ^ k % 10 := by
  obtain ⟨j, rfl⟩ : ∃ j, n = k + (j + 1) := ⟨n - k - 1, by omega⟩
  rw [Nat.pow_add, Nat.mod_mul_right_div_self, Nat.mod_mod_of_dvd _ (Dvd.intro_left (10 ^ j) (Nat.pow_succ ..).symm)]

theorem bcdResult_eq_packed (neg : Bool) (m : Nat) : bcdResult neg m = packed neg m := by
  have hdigits : (List.range 31).map (fun k => m % 10 ^ 31 / 10 ^ k % 10 * 2 ^ (4 * (k + 1))) =
      (List.range 31).map (fun k => m / 10 ^ k % 10 * 2 ^ (4 * (k + 1))) :=
    List.map_congr_left fun k hk => by rw [digit_mod (List.mem_range.1 hk)]
  simp only [bcdResult, packed, bcdDigits_eq_sum, hdigits]

/-- The sign that a result carries (08 R245): minus only with a digit that is not zero. -/
theorem bcdMinus_bcdResult (neg : Bool) (m : Nat) : bcdMinus (bcdResult neg m) = (neg && decide (m % 10 ^ 31 ≠ 0)) := by
  have hsign : ∀ a b : Nat, b < 16 → bitsOf (BitVec.ofNat 128 (16 * a + b)) 0 4 = b := by
    intro a b hb
    simp only [bitsOf, BitVec.toNat_ofNat]
    omega
  rw [bcdMinus, bcdResult, hsign _ _ (by split <;> decide)]
  cases h : neg && decide (m % 10 ^ 31 ≠ 0) <;> rfl

@[simp] theorem bcdPut_core (c : Core) (k : Reg) (neg : Bool) (m : Nat) (v : Bool) : (bcdPut c k neg m v).1 = packedTo c k neg m v := by
  simp only [bcdPut, withFlags_core, putK_core, wrK_psw, bcdMinus_bcdResult]
  rw [bcdResult_eq_packed, packedTo, setNzv]

@[simp] theorem bcdSum_core (c : Core) (k : Reg) (r : Int) : (bcdSum c k r).1 = packedSumTo c k r := bcdPut_core c k _ _ _

/-- N and Z of a result, with a V of their own. -/
theorem setNzv_eq_nzFlags (p : Psw) (r : Word) (v : Bool) : setNzv p r.msb (decide (r = 0)) v = { nzFlags p r with v := v } := by
  rw [← setNz_eq_nzFlags, setNz, setNzv]

/-- The effect of a decimal instruction on operands that are valid (08 R250). -/
theorem effectIf_of_runDec {c : Instr} {i : Issue} {e : Enc} {ok : Core → Prop} {f : Core → Core} {ks : List Reg}
    (g : Core → Core × List (BitVec 8 × Quad)) (hx : ∀ s, exec c s = runDec s i e ks g)
    (hok : ∀ k, ok k → ∀ r ∈ ks, packedOk (rdK k r)) (hf : ∀ k, (g k).1 = f k) : EffectIf c i e ok f := by
  refine Laws.effectIf_of_body _ hx fun s k _ hk hcore => ?_
  have hvalid : ks.all (fun r => bcdValid (rdK (getCore s i.proc) r)) = true := by
    rw [hcore, List.all_eq_true]
    exact fun r hr => (bcdValid_iff_packedOk _).2 (hok _ hk r hr)
  refine ⟨(g (moved e.len k)).2, ?_⟩
  rw [if_pos hvalid, regBody, hcore, hf]

/-- The effect of a decimal instruction with two accumulator operands. -/
theorem effectIf_of_runDec_two {c : Instr} {i : Issue} {e : Enc} {f : Core → Core} {a b : Reg}
    (g : Core → Core × List (BitVec 8 × Quad)) (hx : ∀ s, exec c s = runDec s i e [a, b] g) (hf : ∀ k, (g k).1 = f k) :
    EffectIf c i e (fun k => packedOk (rdK k a) ∧ packedOk (rdK k b)) f :=
  effectIf_of_runDec g hx (fun k hk => by simpa using hk) hf

/-- The effect of a decimal instruction with one accumulator operand. -/
theorem effectIf_of_runDec_one {c : Instr} {i : Issue} {e : Enc} {f : Core → Core} {a : Reg}
    (g : Core → Core × List (BitVec 8 × Quad)) (hx : ∀ s, exec c s = runDec s i e [a] g) (hf : ∀ k, (g k).1 = f k) :
    EffectIf c i e (fun k => packedOk (rdK k a)) f :=
  effectIf_of_runDec g hx (fun k hk => by simpa using hk) hf

/-- With no accumulator operand to check, a decimal instruction works on registers alone. -/
theorem runDec_nil (s : State) (i : Issue) (e : Enc) (g : Core → Core × List (BitVec 8 × Quad)) :
    runDec s i e [] g = runReg s i e g := rfl

/-- Settles O10: the operands pass the check by `bcdValid_iff_packedOk`, and what is written is `packedTo` by `bcdPut_core`. -/
theorem decimalResults : Obligations.DecimalResults := by
  unfold Obligations.DecimalResults
  refine ⟨?dadd, ?dsub, ?dcmp, ?dshl, ?dshr, ?cvbd, ?cvdb⟩
  case dadd =>
    exact fun i k x => effectIf_of_runDec_two _ (Laws.exec_dadd i k x) fun c => by
      rw [bcdSum_core, bcdValue_eq_packedValue, bcdValue_eq_packedValue]
  case dsub =>
    exact fun i k x => effectIf_of_runDec_two _ (Laws.exec_dsub i k x) fun c => by
      rw [bcdSum_core, bcdValue_eq_packedValue, bcdValue_eq_packedValue]
  case dcmp =>
    exact fun i k x => effectIf_of_runDec_two _ (Laws.exec_dcmp i k x) fun c => by
      rw [withFlags_core, bcdValue_eq_packedValue, bcdValue_eq_packedValue, setNzv]
  case dshl =>
    exact fun i k n => effectIf_of_runDec_one _ (Laws.exec_dshl i k n) fun c => by
      rw [bcdPut_core, bcdMinus_eq_minus, bcdMag_eq_magnitude]
  case dshr =>
    exact fun i k n => effectIf_of_runDec_one _ (Laws.exec_dshr i k n) fun c => by
      rw [bcdPut_core, bcdMinus_eq_minus, bcdMag_eq_magnitude]
  case cvbd =>
    exact fun i k x => effect_of_regs _ (fun s => (Laws.exec_cvbd i k x s).trans (runDec_nil s i _ _)) fun c => bcdPut_core c k _ _ _
  case cvdb =>
    refine fun i d k => effectIf_of_runDec_one _ (Laws.exec_cvdb i d k) fun c => ?_
    rw [withFlags_core, setNzv_eq_nzFlags, putD_core, wrD_psw, bcdValue_eq_packedValue, BitVec.toInt_ofInt,
      ← Comparisons.outside_eq_bmod (by decide)]

end Sys2Proof.Proofs.Decimals
end

section
/-! Floating-point classes and operands (O13, O14): what flushing a subnormal operand keeps, the comparison of two operands, the NaN that
an operation delivers. -/
namespace Sys2Proof.Proofs.Floats

open Sys2Proof.Machine Sys2Proof.Safety Sys2Proof.Claims

theorem fpRead_eq_operand (p : Bool) (w : Word) : fpRead (fmtOf p) w = operand p w := by
  cases p with
  | true => rfl
  | false => exact Nat.mod_eq_of_lt w.isLt

section
variable (p : Bool) (v : Nat)

/-- A zero of either sign has an empty fraction field. -/
theorem fpFrac_fpZero (f : FpFmt) (sg : Bool) : fpFrac f (fpZero f sg) = 0 := by
  simp [fpFrac, fpZero, fpPack, Nat.pow_add, Nat.mul_comm (2 ^ f.frac), ← Nat.mul_assoc]

theorem fpIsNan_fpZero (f : FpFmt) (sg : Bool) : fpIsNan f (fpZero f sg) = false := by simp [fpIsNan, fpFrac_fpZero]

theorem zero_ne_fpEmax : 0 ≠ fpEmax (fmtOf p) := by cases p <;> decide

/-- A subnormal operand is no NaN: its exponent field is zero, not all ones. -/
theorem fpIsNan_of_fpIsSub (h : fpIsSub (fmtOf p) v = true) : fpIsNan (fmtOf p) v = false := by
  have hexp : fpExp (fmtOf p) v = 0 := by simp_all [fpIsSub]
  simp [fpIsNan, hexp, zero_ne_fpEmax]

theorem fpFlushIn_of_not_sub {f : FpFmt} (h : ¬ fpIsSub f v = true) : fpFlushIn f v = v := if_neg h

/-- Flushing a subnormal operand makes no NaN, and loses none (08 R258). -/
@[simp] theorem fpIsNan_fpFlushIn : fpIsNan (fmtOf p) (fpFlushIn (fmtOf p) v) = fpIsNan (fmtOf p) v := by
  by_cases h : fpIsSub (fmtOf p) v = true
  · rw [fpFlushIn, if_pos h, fpIsNan_fpZero, fpIsNan_of_fpIsSub p v h]
  · rw [fpFlushIn_of_not_sub v h]

@[simp] theorem fpIsSnan_fpFlushIn : fpIsSnan (fmtOf p) (fpFlushIn (fmtOf p) v) = fpIsSnan (fmtOf p) v := by
  by_cases h : fpIsSub (fmtOf p) v = true
  · rw [fpIsSnan, fpIsNan_fpFlushIn, fpIsSnan, fpIsNan_of_fpIsSub p v h, Bool.false_and, Bool.false_and]
  · rw [fpFlushIn_of_not_sub v h]

theorem fpFlushIn_of_nan (h : fpIsNan (fmtOf p) v = true) : fpFlushIn (fmtOf p) v = v := by
  refine fpFlushIn_of_not_sub v fun hsub => ?_
  rw [fpIsNan_of_fpIsSub p v hsub] at h
  exact Bool.false_ne_true h

/-- A signalling NaN is a NaN. -/
theorem fpIsSnan_eq_false {f : FpFmt} (h : ¬ fpIsNan f v = true) : fpIsSnan f v = false := by simp [fpIsSnan, h]

end

/-- The flags of a comparison of two operands (07 R228, 08 R261). -/
def comparedFlags (f : FpFmt) (a b : Nat) (w : Psw) : Psw :=
  if [a, b].any (fpIsNan f) then { w with n := false, z := false, c := true, v := true }
  else if fpKey f a < fpKey f b then { w with n := true, z := false, c := false, v := false }
  else if fpKey f a = fpKey f b then { w with n := false, z := true, c := true, v := false }
  else { w with n := false, z := false, c := true, v := false }

/-- The registers after a comparison: its flags, and INVALID joined for a signalling NaN. -/
def compared (f : FpFmt) (a b : Nat) (c : Core) : Core :=
  { c with psw := comparedFlags f a b c.psw, fpsw := c.fpsw ||| if [a, b].any (fpIsSnan f) then fInvalid else 0 }

section
variable {f : FpFmt} {a b : Nat} (c : Core)

/-- With a NaN among the operands nothing but its signalling matters. -/
theorem compared_unordered (h : fpIsNan f a = true ∨ fpIsNan f b = true) :
    compared f a b c = compareTo c false false true true (fpIsSnan f a || fpIsSnan f b) := by
  have hnan : [a, b].any (fpIsNan f) = true := by simpa using h
  have hsig : [a, b].any (fpIsSnan f) = (fpIsSnan f a || fpIsSnan f b) := by simp
  rw [compared, comparedFlags, if_pos hnan, hsig, compareTo]
  cases fpIsSnan f a || fpIsSnan f b <;> simp [fInvalid]

/-- Without a NaN the order of the operands gives the flags, and FPSW is left. -/
theorem compared_ordered (ha : ¬ fpIsNan f a = true) (hb : ¬ fpIsNan f b = true) :
    compared f a b c = compareTo c (decide (fpKey f a < fpKey f b)) (decide (fpKey f a = fpKey f b))
      (decide (fpKey f b ≤ fpKey f a)) false false := by
  have hnan : ¬ [a, b].any (fpIsNan f) = true := by simp [ha, hb]
  have hsig : ¬ [a, b].any (fpIsSnan f) = true := by simp [fpIsSnan_eq_false, ha, hb]
  rw [compared, comparedFlags, if_neg hnan, if_neg hsig, compareTo]
  obtain h | h | h := lt_trichotomy (fpKey f a) (fpKey f b)
  · simp [h, h.ne, h.not_ge]
  · simp [h]
  · simp [h.not_gt, h.ne', h.le]

end

/-- FCMP compares its operands, flushed where FPCR says so, unless one of them is a subnormal that traps (08 R257, R258). -/
theorem fcmp_effect (i : Issue) (p : Bool) (x y : Reg) : EffectIf (.fcmp i p x y) i (coreEnc true)
    (fun c => c.subn = true ∨ (¬ fpIsSub (fmtOf p) (operand p (rdD c x)) = true ∧ ¬ fpIsSub (fmtOf p) (operand p (rdD c y)) = true))
    (fun c => compared (fmtOf p) (fpFlushIn (fmtOf p) (operand p (rdD c x))) (fpFlushIn (fmtOf p) (operand p (rdD c y))) c) := by
  refine Laws.effectIf_of_body _ (Laws.exec_fcmp i p x y) fun s k _ hk hcore => ?_
  generalize moved (coreEnc true).len k = c at hk hcore ⊢
  have htrap : ¬ (!isFlush c && [operand p (rdD c x), operand p (rdD c y)].any (fpIsSub (fmtOf p))) = true := by
    rcases hk with hflush | ⟨hx, hy⟩
    · simp [isFlush, hflush]
    · simp [hx, hy]
  apply Exists.intro
  simp only [hcore, fpRead_eq_operand, if_neg htrap]
  rfl

/-- An operand that does not trap is the same flushed. -/
theorem fpFlushIn_of_untrapped {f : FpFmt} {v : Nat} {flush : Bool} (h : ¬ fpIsSub f (if flush then fpFlushIn f v else v) = true) :
    fpFlushIn f v = if flush then fpFlushIn f v else v := by
  cases flush with
  | true => rfl
  | false => exact fpFlushIn_of_not_sub v h

/-- Settles O13: the effect of `fcmp_effect`, by the order of the operands. -/
theorem floatingPointComparison : Obligations.FloatingPointComparison := by
  unfold Obligations.FloatingPointComparison
  intro i p x y s s1 hready c a b sg ha hb
  have hx : fpFlushIn (fmtOf p) (operand p (rdD c x)) = a := fpFlushIn_of_untrapped ha
  have hy : fpFlushIn (fmtOf p) (operand p (rdD c y)) = b := fpFlushIn_of_untrapped hb
  have huntrapped : c.subn = true ∨
      (¬ fpIsSub (fmtOf p) (operand p (rdD c x)) = true ∧ ¬ fpIsSub (fmtOf p) (operand p (rdD c y)) = true) := by
    cases hflush : c.subn with
    | true => exact .inl rfl
    | false => exact .inr ⟨by simpa [a, hflush] using ha, by simpa [b, hflush] using hb⟩
  obtain ⟨t, hnext, hregs, helse⟩ := fcmp_effect i p x y s s1 hready huntrapped
  have hregs : getCore t i.proc = counted i.proc 1 (compared (fmtOf p) a b c) := by rw [← hx, ← hy]; exact hregs
  refine ⟨t, hnext, helse, fun hnan => ?unordered, fun hna hnb => ⟨fun h => ?less, fun h => ?equal, fun h => ?greater⟩⟩
  case unordered => rw [hregs, compared_unordered c hnan]
  case less => simp [hregs, compared_ordered c hna hnb, h, h.ne, h.not_ge]
  case equal => simp [hregs, compared_ordered c hna hnb, h]
  case greater => simp [hregs, compared_ordered c hna hnb, h.not_gt, h.ne', h.le]

/-- The first NaN among the operands is delivered, quiet (08 R259). -/
theorem fpNan_of_find {f : FpFmt} {vs : List Nat} {x : Nat} (h : vs.find? (fpIsNan f) = some x) :
    fpNan f vs 0 = some (.value (fpQuiet f x) (if vs.any (fpIsSnan f) then 1 else 0)) := by
  rw [fpNan, h]
  rfl

/-- Flushing leaves the first NaN where it stood. -/
theorem find_nan_map_fpFlushIn {p : Bool} {vs : List Nat} {x : Nat} (h : vs.find? (fpIsNan (fmtOf p)) = some x) :
    (vs.map (fpFlushIn (fmtOf p))).find? (fpIsNan (fmtOf p)) = some x := by
  have hflush : fpIsNan (fmtOf p) ∘ fpFlushIn (fmtOf p) = fpIsNan (fmtOf p) := funext (fpIsNan_fpFlushIn p)
  rw [List.find?_map, hflush, h, Option.map_some, fpFlushIn_of_nan p x (List.find?_some h)]

theorem any_snan_map_fpFlushIn (p : Bool) (vs : List Nat) :
    (vs.map (fpFlushIn (fmtOf p))).any (fpIsSnan (fmtOf p)) = vs.any (fpIsSnan (fmtOf p)) := by
  have hflush : fpIsSnan (fmtOf p) ∘ fpFlushIn (fmtOf p) = fpIsSnan (fmtOf p) := funext (fpIsSnan_fpFlushIn p)
  rw [List.any_map, hflush]

theorem fpQuiet_eq (p : Bool) (x : Nat) : fpQuiet (fmtOf p) x = x ||| if p then 2 ^ 22 else 2 ^ 51 := by cases p <;> rfl

section
variable {f : FpFmt} (rm : Nat) (flush : Bool) {x y : Nat}

theorem fpAdd_opposite_infinities (hx : fpIsInf f x = true) (hy : fpIsInf f y = true) (hs : fpSign f x ≠ fpSign f y) :
    fpAdd f rm flush x y = fpInvalid f := by rw [fpAdd, if_pos hx, if_pos ⟨hy, hs⟩]

theorem fpMul_zero_infinity (hx : fpIsZero f x = true) (hy : fpIsInf f y = true) : fpMul f rm flush x y = fpInvalid f := by
  rw [fpMul, if_pos (.inr hy), if_pos (.inl hx)]

theorem fpIsInf_of_zero {p : Bool} (hx : fpIsZero (fmtOf p) x = true) : fpIsInf (fmtOf p) x = false := by
  have hexp : fpExp (fmtOf p) x = 0 := by simp_all [fpIsZero]
  simp [fpIsInf, hexp, zero_ne_fpEmax]

theorem fpDiv_zeros {p : Bool} (hx : fpIsZero (fmtOf p) x = true) (hy : fpIsZero (fmtOf p) y = true) :
    fpDiv (fmtOf p) rm flush x y = fpInvalid (fmtOf p) := by
  simp [fpDiv, fpIsInf_of_zero hx, fpIsInf_of_zero hy, hx, hy]

theorem fpSqrt_negative (hz : ¬ fpIsZero f x = true) (hs : fpSign f x = true) : fpSqrt f rm flush x = fpInvalid f := by
  rw [fpSqrt, if_neg hz, if_pos hs]

end

theorem fpInvalid_double : fpInvalid fmtD = .value 0x7FF8000000000000 1 := rfl
theorem fpInvalid_single : fpInvalid fmtS = .value 0x7FC00000 1 := rfl

/-- Settles O14: flushing moves no NaN, so the first one stands where it stood; each invalid operation comes to `fpInvalid`. -/
theorem nanOperandsGiveTheFirstOneQuiet : Obligations.NanOperandsGiveTheFirstOneQuiet := by
  unfold Obligations.NanOperandsGiveTheFirstOneQuiet
  refine ⟨?nan, ?invalid⟩
  case nan =>
    intro p flush vs op x hfind hsub
    have htrap : ¬ (!flush && vs.any (fpIsSub (fmtOf p))) = true := by
      rcases hsub with hflush | hnone
      · simp [hflush]
      · simpa using fun _ => hnone
    rw [fpOperate, if_neg htrap, ← fpQuiet_eq]
    cases flush with
    | true => simp only [if_true, fpNan_of_find (find_nan_map_fpFlushIn hfind), any_snan_map_fpFlushIn]
    | false => simp only [Bool.false_eq_true, if_false, fpNan_of_find hfind]
  case invalid =>
    intro flush rm
    refine ⟨?_, ?_, ?_, ?_, ?_⟩
    · exact (fpAdd_opposite_infinities rm flush (by decide) (by decide) (by decide)).trans fpInvalid_double
    · exact (fpAdd_opposite_infinities rm flush (by decide) (by decide) (by decide)).trans fpInvalid_single
    · exact (fpMul_zero_infinity rm flush (by decide) (by decide)).trans fpInvalid_double
    · exact (fpDiv_zeros (p := false) rm flush (by decide) (by decide)).trans fpInvalid_double
    · exact (fpSqrt_negative rm flush (by decide) (by decide)).trans fpInvalid_double

end Sys2Proof.Proofs.Floats
end

section
/-! What a unit's home keeps and loses: the directory entries after an update, the memory and the core map seen past the registers of a
processor, and the storing core's own registers under what a store ends elsewhere. -/
namespace Sys2Proof.Proofs.Home

open Sys2Proof.Machine Sys2Proof.Safety Sys2Proof.Claims

-- directory entries
theorem dirOf_setDir_ne {x : UnitState} {line n : Nat} (h : line ≠ n) (a : Nat) (e : DirEnt) :
    dirOf (setDir x line a e) n = dirOf x n := by
  simp only [setDir]
  split <;> exact Laws.tabGet_tabSet_ne _ _ _ h

/-- An entry with nothing left reads as the released one (11 R335). -/
theorem dirOf_setDir_same (x : UnitState) (line a : Nat) (e : DirEnt) :
    dirOf (setDir x line a e) line = if e.st = .free ∧ e.pin = none ∧ e.tvec = 0 then {} else e := by
  simp only [setDir]
  split <;> exact Laws.tabGet_tabSet_same _ _ _ _

@[simp] theorem dirOf_setDir_pin (x : UnitState) (line a : Nat) (e : DirEnt) : (dirOf (setDir x line a e) line).pin = e.pin := by
  rw [dirOf_setDir_same]
  split
  · next hfree => exact hfree.2.1.symm
  · rfl

@[simp] theorem dirOf_setDir_tvec (x : UnitState) (line a : Nat) (e : DirEnt) : (dirOf (setDir x line a e) line).tvec = e.tvec := by
  rw [dirOf_setDir_same]
  split
  · next hfree => exact hfree.2.2.symm
  · rfl

@[simp] theorem setDir_map (x : UnitState) (line a : Nat) (e : DirEnt) : (setDir x line a e).exe.map = x.exe.map := by
  simp only [setDir]
  split <;> rfl

-- past a processor's registers
theorem field_modUnit {V : Type} (g : UnitState → V) {f : UnitState → UnitState} (h : ∀ x, g (f x) = g x) (s : State) (u v : UnitId) :
    g (getUnit (modUnit s v f) u) = g (getUnit s u) := by
  by_cases huv : v = u
  · rw [huv, Laws.getUnit_modUnit, h]
  · rw [Laws.getUnit_modUnit_ne _ _ huv]

/-- States that agree but for a processor's registers have the same memories. -/
theorem mem_of_elsewhere {p : Proc} {s t : State} (h : elsewhere p t = elsewhere p s) (u : UnitId) :
    (getUnit t u).mem = (getUnit s u).mem := by
  have hmem (s : State) : (getUnit (elsewhere p s) u).mem = (getUnit s u).mem := by
    cases p with
    | core v l => exact field_modUnit (fun x => x.mem) (fun _ => by rfl) s u v
    | engine v e => exact field_modUnit (fun x => x.mem) (fun _ => by rfl) s u v
    | service => cases u <;> rfl
  rw [← hmem t, h, hmem]

theorem byteAt_of_elsewhere {p : Proc} {s t : State} (h : elsewhere p t = elsewhere p s) (u : UnitId) (n : Nat) :
    byteAt t u n = byteAt s u n := by
  rw [byteAt, mem_of_elsewhere h, byteAt]

theorem dirOf_of_elsewhere {p : Proc} {s t : State} (h : elsewhere p t = elsewhere p s) (u : UnitId) (line : Nat) :
    dirOf (getUnit t u) line = dirOf (getUnit s u) line := by
  rw [dirOf, mem_of_elsewhere h, dirOf]

/-- States that agree but for a processor's registers have the same core maps. -/
theorem corePos_of_elsewhere {p : Proc} {s t : State} (h : elsewhere p t = elsewhere p s) (u : UnitId) (l : Nat) :
    corePos (getUnit t u) l = corePos (getUnit s u) l := by
  have hmap (s : State) : (getUnit (elsewhere p s) u).exe.map = (getUnit s u).exe.map := by
    cases p with
    | core v l => exact field_modUnit (fun x => x.exe.map) (fun _ => by rfl) s u v
    | engine v e => exact field_modUnit (fun x => x.exe.map) (fun _ => by rfl) s u v
    | service => cases u <;> rfl
  rw [corePos, ← hmap t, h, hmap, corePos]

/-- The body of an instruction begins with the state it was issued in, but for its processor's registers. -/
theorem elsewhere_inBody {s s1 : State} {i : Issue} {e : Enc} (h : Ready s i e s1) (len : Nat) :
    elsewhere i.proc (inBody s1 i len) = elsewhere i.proc s := by
  rw [inBody, Laws.elsewhere_setCore, Laws.ready_elsewhere h]

-- a table changed entry by entry
section
variable {V : Type} [DecidableEq V]

/-- A table lists a key at most once. -/
def listsOnce (t : Tab V) (n : Nat) : Prop := t.countP (fun e => e.1 == n) ≤ 1

omit [DecidableEq V] in
theorem tabGet_unlisted {d : Nat → V} {t : Tab V} {n : Nat} (h : ∀ e ∈ t, e.1 ≠ n) : tabGet d t n = d n := by
  rw [← Laws.tabErase_none t h, Laws.tabGet_tabErase_same]

omit [DecidableEq V] in
theorem countP_tabInsert (t : Tab V) (n : Nat) (w : V) :
    (tabInsert t n w).countP (fun e => e.1 == n) = t.countP (fun e => e.1 == n) + 1 := by
  induction t with
  | nil => simp [tabInsert]
  | cons e r ih =>
    obtain ⟨k, v⟩ := e
    by_cases hk : n < k
    · simp [tabInsert, hk]
    · simp only [tabInsert, hk, if_false, List.countP_cons, ih]
      omega

theorem listsOnce_tabSet (d : Nat → V) (t : Tab V) (n : Nat) (w : V) : listsOnce (tabSet d t n w) n := by
  have hnone : (tabErase t n).countP (fun e => e.1 == n) = 0 :=
    List.countP_eq_zero.2 fun e he => by simpa using Laws.tabErase_mem_ne t n e he
  unfold listsOnce tabSet
  split
  · omega
  · rw [countP_tabInsert, hnone]

theorem listsOnce_tabMap {t : Tab V} {n : Nat} (h : listsOnce t n) (d : Nat → V) (f : Nat → V → V) : listsOnce (tabMap d f t) n := by
  have hkeys : (t.map (fun e => (e.1, f e.1 e.2))).countP (fun e => e.1 == n) = t.countP (fun e => e.1 == n) := List.countP_map
  exact (List.filter_sublist.countP_le).trans (hkeys.trans_le h)

/-- A key listed once reads changed, where the change keeps its default. -/
theorem tabGet_tabMap {d : Nat → V} {f : Nat → V → V} {t : Tab V} {n : Nat} (h : listsOnce t n) (hd : f n (d n) = d n) :
    tabGet d (tabMap d f t) n = f n (tabGet d t n) := by
  induction t with
  | nil => exact hd.symm
  | cons e r ih =>
    obtain ⟨k, v⟩ := e
    by_cases hk : k = n
    · subst hk
      have hrest : ∀ e ∈ tabMap d f r, e.1 ≠ k := by
        have hzero : r.countP (fun e => e.1 == k) = 0 := by simpa [listsOnce] using h
        have hnone : ∀ e ∈ r, e.1 ≠ k := by simpa [List.countP_eq_zero] using hzero
        intro e he
        simp only [tabMap, List.mem_filter, List.mem_map] at he
        obtain ⟨⟨g, hg, rfl⟩, -⟩ := he
        exact hnone g hg
      by_cases hv : f k v = d k
      · have hcons : tabMap d f ((k, v) :: r) = tabMap d f r := by simp [tabMap, hv]
        rw [hcons, tabGet_unlisted hrest, tabGet, if_pos rfl, hv]
      · have hcons : tabMap d f ((k, v) :: r) = (k, f k v) :: tabMap d f r := by simp [tabMap, hv]
        rw [hcons, tabGet, if_pos rfl, tabGet, if_pos rfl]
    · have hr : listsOnce r n := by simpa [listsOnce, hk] using h
      rw [tabGet, if_neg hk, ← ih hr]
      by_cases hv : f k v = d k
      · have hcons : tabMap d f ((k, v) :: r) = tabMap d f r := by simp [tabMap, hv]
        rw [hcons]
      · have hcons : tabMap d f ((k, v) :: r) = (k, f k v) :: tabMap d f r := by simp [tabMap, hv]
        rw [hcons, tabGet, if_neg hk]

end

-- the storing core
/-- The registers of a core after its own store to a line: its held context translations of that line are stale (15 R448). -/
def afterOwnStore (line : Nat) (c : Core) : Core := if c.ctxLine = some line then { c with ctxStale := true } else c

/-- A unit's core table lists a core at most once. -/
def listsCore (x : UnitState) (l : Nat) : Prop := listsOnce x.exe.cores l

theorem listsCore_setUnitCore (x : UnitState) (l : Nat) (c : Core) : listsCore (setUnitCore x l c) l := listsOnce_tabSet _ _ _ _

theorem listsCore_modUnitCore (x : UnitState) (l : Nat) (f : Core → Core) : listsCore (modUnitCore x l f) l :=
  listsCore_setUnitCore _ _ _

/-- What a core's own store ends elsewhere changes its table entry by entry. -/
theorem storeEffects_cores (x : UnitState) (line l : Nat) : ∃ f : Nat → Core → Core,
    (storeEffects x line (some l) none).exe.cores = tabMap coreDef f x.exe.cores ∧ ∀ c, f l c = afterOwnStore line c := by
  unfold storeEffects
  extract_lets clr dropTlb y e mine
  refine ⟨fun n c => dropTlb (some n = some l) (if some n = some l then c else clr c), ?cores, fun c => ?own⟩
  case cores =>
    split
    · rfl
    · exact Laws.setDir_cores _ _ _ _
  case own => simp [dropTlb, afterOwnStore]

theorem listsCore_storeEffects {x : UnitState} {l : Nat} (h : listsCore x l) (line : Nat) :
    listsCore (storeEffects x line (some l) none) l := by
  obtain ⟨f, hcores, -⟩ := storeEffects_cores x line l
  rw [listsCore, hcores]
  exact listsOnce_tabMap h _ _

/-- What a core's own store ends elsewhere leaves the core's registers, but for its stale translations. -/
theorem unitCore_storeEffects {x : UnitState} {l : Nat} (h : listsCore x l) (line : Nat) :
    unitCore (storeEffects x line (some l) none) l = afterOwnStore line (unitCore x l) := by
  obtain ⟨f, hcores, hown⟩ := storeEffects_cores x line l
  rw [unitCore, hcores, tabGet_tabMap h (hown _), hown, unitCore]

@[simp] theorem writeThrough_cores (x : UnitState) (a l : Nat) : (writeThrough x a l).exe.cores = x.exe.cores := by
  unfold writeThrough
  split <;> simp

theorem unitCore_congr {x y : UnitState} (h : y.exe.cores = x.exe.cores) (l : Nat) : unitCore y l = unitCore x l := by
  rw [unitCore, h, unitCore]

end Sys2Proof.Proofs.Home
end

section
/-! The store buffer: a store retires into it (O22), and its oldest store is performed (O23). -/
namespace Sys2Proof.Proofs.StoreBuffer

open Sys2Proof.Machine Sys2Proof.Claims Sys2Proof.Proofs.CoreLoads Sys2Proof.Proofs.Home

/-- A store at a translated address outside a transaction goes to the buffer. -/
theorem storeBytes_core {s s0 : State} {u : UnitId} {l : CoreId} {va : Word} {a : Access} {mpa : Nat}
    (haddr : dataAddr s (.core u l) va { a with write := true } = .at mpa s0) (hctl : isCtlAddr mpa = false)
    (htxn : (unitCore (getUnit s0 u) l).txn = none) (bs : List Byte) : storeBytes s (.core u l) va a bs = sbPut s0 u l mpa bs := by
  simp [storeBytes, haddr, hctl, htxn]

/-- A buffer with room takes the store as its youngest entry. -/
theorem sbPut_room {s : State} {u : UnitId} {l : Nat} (h : (unitCore (getUnit s u) l).sb.length < 64) (mpa : Nat) (bs : List Byte) :
    sbPut s u l mpa bs =
      .ok (modUnit s u (fun x => modUnitCore x l (fun c => { c with sb := c.sb ++ [{ addr := mpa, bytes := bs }] }))) := by
  rw [sbPut, if_pos h]

/-- Settles O22: the address by `coreAddr_at`, the store by `sbPut_room`. -/
theorem coreStoresRetireIntoTheBuffer : Obligations.CoreStoresRetireIntoTheBuffer := by
  unfold Obligations.CoreStoresRetireIntoTheBuffer
  intro s u l va a mpa s0 bs haddr hctl htxn hroom
  obtain ⟨hdata, hsame⟩ := coreAddr_at (dataAddr_core haddr)
  have hsb := sb_of_withoutTranslations hsame
  have hroom0 : (unitCore (getUnit s0 u) l).sb.length < 64 := by rw [hsb]; exact hroom
  have hstore := (storeBytes_core haddr hctl ((txn_of_withoutTranslations hsame).trans htxn) bs).trans (sbPut_room hroom0 mpa bs)
  refine ⟨_, hstore, fun n => ?bytes, ?buffer, ?registers⟩
  case bytes =>
    rw [byteAt, Laws.getUnit_modUnit, byteAt, ← hdata]
    rfl
  case buffer => rw [Laws.getUnit_modUnit, Laws.unitCore_modUnitCore, hsb]
  case registers =>
    rw [Laws.getUnit_modUnit, Laws.unitCore_modUnitCore]
    exact congrArg (fun c : Core => { c with sb := [] }) hsame

/-- A core's own store performed leaves its registers, but for its stale translations. -/
theorem unitCore_performStore {x : UnitState} {l : Nat} (h : listsCore x l) (a addr : Nat) (bs : List Byte) :
    unitCore (performStore x a addr bs (some l) none) l = afterOwnStore (addr / 64) (unitCore x l) := by
  have hcores : (writeThrough (putBytes (cohOwn x a (addr / 64)) addr bs) a (addr / 64)).exe.cores = x.exe.cores := by simp [putBytes]
  have hlists : listsCore (writeThrough (putBytes (cohOwn x a (addr / 64)) addr bs) a (addr / 64)) l := by rwa [listsCore, hcores]
  rw [performStore, unitCore_storeEffects hlists, unitCore_congr hcores]

theorem afterOwnStore_sb (line : Nat) (c : Core) : (afterOwnStore line c).sb = c.sb := by
  unfold afterOwnStore
  split <;> rfl

/-- The bytes of a unit's memory after a store of DRAM is performed. -/
theorem tabGet_performStore (x : UnitState) (a addr : Nat) (bs : List Byte) (c e : Option Nat) (n : Nat) :
    tabGet byteDef (performStore x a addr bs c e).mem.data n =
      if addr ≤ n ∧ n < addr + bs.length then bs.getD (n - addr) 0 else tabGet byteDef x.mem.data n := by
  rw [Laws.performStore_data, Laws.tabGet_tabSetList _ _ _ _ _ 0]

/-- The oldest store leaves the buffer and is performed, where its home in DRAM takes it and its line can be had. -/
theorem drainHead_performs {s : State} {u : UnitId} {l : Nat} {e : SbEntry} {r : List SbEntry} {y : UnitState}
    (hsb : (unitCore (getUnit s u) l).sb = e :: r) (hfb : isFbAddr e.addr = false)
    (htakes : homeTakes (getUnit s u) (unitCore (getUnit s u) l).parcel.toNat e.addr = true)
    (htouch : coreTouch (getUnit s u) l (e.addr / 64) true none = (y, .go)) :
    drainHead s u l = some (setUnit s u
      (performStore (modUnitCore y l (fun c => { c with sb := r })) (corePos y l) e.addr e.bytes (some l) none)) := by
  simp [drainHead, hsb, hfb, htakes, htouch]

theorem exec_storeBufferDrain_next {s t : State} {u : UnitId} {l : CoreId} (hruns : unitRuns s u (getUnit s u).ucc = true)
    (h : drainHead s u l = some t) : exec (.storeBufferDrain u l) s = .next t := by
  rw [Laws.exec_storeBufferDrain, execStoreBufferDrain, if_pos hruns, h, Option.getD_some]

/-- Settles O23: what `drainHead_performs` leaves of the buffer and of memory. -/
theorem drainPerformsTheOldestStore : Obligations.DrainPerformsTheOldestStore := by
  unfold Obligations.DrainPerformsTheOldestStore
  intro s u l e r y hruns hsb hfb htakes htouch
  have hdrain := drainHead_performs hsb hfb htakes htouch
  have hdata := (Laws.coreTouch_go htouch).1
  refine ⟨_, exec_storeBufferDrain_next hruns hdrain, ?buffer, fun n => ?bytes⟩
  case buffer =>
    rw [Laws.getUnit_setUnit, unitCore_performStore (listsCore_modUnitCore _ _ _), afterOwnStore_sb, Laws.unitCore_modUnitCore]
  case bytes =>
    rw [byteAt, Laws.getUnit_setUnit, tabGet_performStore, byteAt, ← hdata]
    rfl

end Sys2Proof.Proofs.StoreBuffer
end

section
/-! The end of a transaction without a commit (O30): its lines are released at their homes, its core is at the abort path with the
checkpoint. -/
namespace Sys2Proof.Proofs.Aborts

open Sys2Proof.Machine Sys2Proof.Safety Sys2Proof.Claims Sys2Proof.Proofs.Home

theorem releaseLines_cons (x : UnitState) (p line : Nat) (ls : List Nat) : releaseLines x p (line :: ls) =
    releaseLines (setDir x line p { dirOf x line with tvec := (dirOf x line).tvec &&& ~~~(tvecBit p) }) p ls := rfl

@[simp] theorem releaseLines_data (x : UnitState) (p : Nat) (ls : List Nat) : (releaseLines x p ls).mem.data = x.mem.data := by
  induction ls generalizing x with
  | nil => rfl
  | cons line ls ih => rw [releaseLines_cons, ih, Laws.setDir_data]

@[simp] theorem releaseLines_map (x : UnitState) (p : Nat) (ls : List Nat) : (releaseLines x p ls).exe.map = x.exe.map := by
  induction ls generalizing x with
  | nil => rfl
  | cons line ls ih => rw [releaseLines_cons, ih, setDir_map]

/-- A position taken off a transaction vector is off. -/
theorem getLsbD_off (v : BitVec 56) (p : Nat) : (v &&& ~~~(tvecBit p)).getLsbD p = false := by
  have hbit : (tvecBit p).getLsbD p = decide (p < 56) := by
    rw [tvecBit, BitVec.getLsbD_ofNat, Nat.testBit_two_pow_self, Bool.and_true]
  simp [hbit]

/-- A line that does not name a position does not name it after a release either. -/
theorem tvec_releaseLines_of_off {x : UnitState} {p n : Nat} (h : (dirOf x n).tvec.getLsbD p = false) (ls : List Nat) :
    (dirOf (releaseLines x p ls) n).tvec.getLsbD p = false := by
  induction ls generalizing x with
  | nil => exact h
  | cons line ls ih =>
    rw [releaseLines_cons]
    apply ih
    by_cases hn : line = n
    · rw [hn, dirOf_setDir_tvec, getLsbD_off]
    · rw [dirOf_setDir_ne hn, h]

/-- Each line of a release loses the position. -/
theorem tvec_releaseLines (x : UnitState) (p : Nat) {ls : List Nat} {n : Nat} (h : n ∈ ls) :
    (dirOf (releaseLines x p ls) n).tvec.getLsbD p = false := by
  induction ls generalizing x with
  | nil => cases h
  | cons line ls ih =>
    rw [releaseLines_cons]
    rcases List.mem_cons.1 h with rfl | hrest
    · exact tvec_releaseLines_of_off (by rw [dirOf_setDir_tvec, getLsbD_off]) ls
    · exact ih _ hrest

/-- A unit whose sets are released at a core's position holds neither. -/
theorem released_releaseLines (x : UnitState) (l : Nat) (t : Txn) :
    released (releaseLines x (corePos x l) (t.readSet ++ t.writeSet)) l t := by
  intro line hline
  have hpos : corePos (releaseLines x (corePos x l) (t.readSet ++ t.writeSet)) l = corePos x l := by
    rw [corePos, releaseLines_map, corePos]
  rw [hpos]
  exact tvec_releaseLines x _ hline

theorem released_setUnitCore {x : UnitState} {l : Nat} {t : Txn} (h : released x l t) (m : Nat) (c : Core) :
    released (setUnitCore x m c) l t := h

/-- Sets released stay so in a state that agrees but for a processor's registers. -/
theorem released_of_elsewhere {p : Proc} {s s' : State} {u : UnitId} {l : Nat} {t : Txn} (h : elsewhere p s' = elsewhere p s)
    (hreleased : released (getUnit s u) l t) : released (getUnit s' u) l t := by
  intro line hline
  rw [dirOf_of_elsewhere h, corePos_of_elsewhere h]
  exact hreleased line hline

theorem abortCore_open {c : Core} {t : Txn} (h : c.txn = some t) (code : BitVec 8) : abortCore c code = aborted c t code := by
  simp only [abortCore, h]
  rfl

/-- An open transaction aborted, in its unit (09 R286). -/
theorem txAbort_open {x : UnitState} {l : Nat} {t : Txn} (h : (unitCore x l).txn = some t) (code : BitVec 8) :
    txAbort x l code =
      setUnitCore (releaseLines x (corePos x l) (t.readSet ++ t.writeSet)) l (aborted (unitCore x l) t code) := by
  simp only [txAbort, h, abortCore_open h]

theorem txAbort_closed {x : UnitState} {l : Nat} (h : (unitCore x l).txn = none) (code : BitVec 8) : txAbort x l code = x := by
  simp only [txAbort, h]

/-- A command that aborts a core's open transaction in a state with the memory that the command found. -/
theorem aborts_of_txAbort {c : Instr} {s s1 : State} {u : UnitId} {l : CoreId} {t : Txn} {code : BitVec 8}
    (hnext : exec c s = .next (modUnit s1 u (fun x => txAbort x l code))) (htxn : (unitCore (getUnit s1 u) l).txn = some t)
    (hbytes : ∀ n, byteAt s1 u n = byteAt s u n) : aborts c s (unitCore (getUnit s1 u) l) u l t code := by
  refine ⟨_, hnext, ?registers, ?sets, fun n => ?bytes⟩
  case registers => rw [getCore, Laws.getUnit_modUnit, txAbort_open htxn, Laws.unitCore_setUnitCore]
  case sets =>
    rw [Laws.getUnit_modUnit, txAbort_open htxn]
    exact released_setUnitCore (released_releaseLines _ _ _) _ _
  case bytes =>
    rw [byteAt, Laws.getUnit_modUnit, txAbort_open htxn, Laws.setUnitCore_mem, releaseLines_data, ← hbytes, byteAt]

theorem abortCodeOk_iff (code : BitVec 8) : abortCodeOk code = true ↔ 1 ≤ code.toNat ∧ code.toNat ≤ 10 ∨ 128 ≤ code.toNat := by
  simp [abortCodeOk]

/-- Settles O30: an open transaction by `txAbort_open`, none by `txAbort_closed`. -/
theorem abortsRestoreTheCheckpoint : Obligations.AbortsRestoreTheCheckpoint := by
  unfold Obligations.AbortsRestoreTheCheckpoint
  refine ⟨?aborts, ?nothing⟩
  case aborts =>
    intro s u l code txn hruns htxn hcode
    refine aborts_of_txAbort ?_ htxn fun _ => rfl
    rw [Laws.exec_transactionAbort, execTransactionAbort, (abortCodeOk_iff code).2 hcode, hruns]
    rfl
  case nothing =>
    intro s u l code h
    rw [Laws.exec_transactionAbort, execTransactionAbort]
    rcases h with hclosed | hcode
    · rw [modUnit, txAbort_closed hclosed, Laws.setUnit_getUnit, ite_self]
    · have hbad : abortCodeOk code = false := by
        rw [Bool.eq_false_iff, Ne, abortCodeOk_iff]
        omega
      rw [hbad]
      rfl

end Sys2Proof.Proofs.Aborts
end

section
/-! Reservations of logical cores (O28): what LDRES pins, what CLRES releases, and the two ends of a STCOND. -/
namespace Sys2Proof.Proofs.Reservations

open Sys2Proof.Machine Sys2Proof.Safety Sys2Proof.Claims Sys2Proof.Proofs.Home Sys2Proof.Proofs.MemoryForms Sys2Proof.Proofs.CoreLoads
  Sys2Proof.Proofs.StoreBuffer

@[simp] theorem clearRsv_data (x : UnitState) (l : Nat) : (clearRsv x l).mem.data = x.mem.data := by
  simp only [clearRsv, releasePin, Laws.setUnitCore_mem]
  split
  · exact Laws.setDir_data _ _ _ _
  · rfl

-- LDRES
/-- A unit in which a core holds the reservation of a line that it has read (09 R277, R280). -/
def reserved (pos l line : Nat) (x : UnitState) : UnitState :=
  setRsv (cohRead x pos line) line (pos, 0)
    (fun x => modUnitCore x l (fun c => { c with rsvValid := true, rsvGranule := BitVec.ofNat 46 line, pinWait := none }))

theorem unitCore_reserved (pos l line : Nat) (x : UnitState) : unitCore (reserved pos l line x) l =
    { unitCore x l with rsvValid := true, rsvGranule := BitVec.ofNat 46 line, pinWait := none } := by
  rw [reserved, setRsv, Laws.unitCore_modUnitCore, unitCore_congr (x := x) (by rw [Laws.setDir_cores, Laws.cohRead_cores])]

theorem reserved_pin (pos l line : Nat) (x : UnitState) : (dirOf (reserved pos l line x) line).pin = some (pos, 0) :=
  dirOf_setDir_pin _ _ _ _

theorem setUnit_modUnit (s : State) (u : UnitId) (f : UnitState → UnitState) (x : UnitState) :
    setUnit (modUnit s u f) u x = setUnit s u x := Laws.setUnit_setUnit s u _ x

/-- LDRES whose pin and line can be had reads the doubleword and holds the granule. -/
theorem ldresCore_reserves {s s3 : State} {u : UnitId} {l : CoreId} {mpa : Nat} {y : UnitState} {va : Word} {bs : List Byte}
    (hfb : isFbAddr mpa = false)
    (hpins : pinsInSet (clearRsv (getUnit s u) l) (mpa / 64) (corePos (clearRsv (getUnit s u) l) l, 0) < 8)
    (htouch : coreTouch (clearRsv (getUnit s u) l) l (mpa / 64) false none = (y, .go))
    (hload : dramLoad (setUnit s u y) u l va mpa 8 = .ok s3 bs) (d : Reg) (p : Proc) :
    ldresCore d u l va mpa p s = retireWith (modUnit s3 u (reserved (corePos (clearRsv (getUnit s u) l) l) l (mpa / 64))) p (fun c =>
      ((putD c d (BitVec.ofNat 64 (leNat bs))).1,
        (putD c d (BitVec.ofNat 64 (leNat bs))).2 ++ [ctlItem p (putD c d (BitVec.ofNat 64 (leNat bs))).1 0x33])) := by
  simp only [ldresCore, Laws.getUnit_modUnit, Nat.not_le.2 hpins, if_false, hfb, Bool.false_eq_true, htouch, setUnit_modUnit, hload]
  rfl

/-- LDRES of a core retires as its body at the translated address does. -/
theorem retires_of_ldresCore {s s1 s2 t : State} {u : UnitId} {l : CoreId} {ucc mpa : Nat} {d r : Reg} {ws : List (BitVec 8 × Quad)}
    (hready : Ready s ⟨.core u l, ucc⟩ { len := 2, txBad := true } s1)
    (haddr : dataAddr (inBody s1 ⟨.core u l, ucc⟩ 2) (.core u l) (rdA (getCore s1 (.core u l)) r) (bytes 8) = .at mpa s2)
    (hcore : ldresCore d u l (rdA (getCore s1 (.core u l)) r) mpa (.core u l) s2 = .done t ws 1) :
    retires (.ldres ⟨.core u l, ucc⟩ d r) s (.core u l) (getCore t (.core u l)) t := by
  have hva := Strings.rdA_inBody s1 ⟨.core u l, ucc⟩ 2 r
  rw [← hva] at haddr hcore
  have haddr : dataAddr _ _ _ (plain 8) = .at mpa s2 := haddr
  refine retires_of_done (ws := ws) hready (Laws.exec_ldres _ d r s) ?_
  simp only [haddr]
  exact hcore

-- CLRES
/-- The state with a processor's reservation cleared (09 R279). -/
def unreserved (p : Proc) (s : State) : State :=
  match p with
  | .core u l => modUnit s u (fun x => clearRsv x l)
  | .engine u e => modUnit s u (fun x => clearEngineRsv x e)
  | .service => modCore s .service (fun c => { c with rsvValid := false })

theorem exec_clres_eq (i : Issue) (s : State) : exec (.clres i) s = runInstr s i { len := 1, txBad := true } (fun s =>
    retireWith (unreserved i.proc s) i.proc (fun c => (c, [ctlItem i.proc c 0x33]))) := by
  obtain ⟨p, ucc⟩ := i
  cases p <;> rfl

theorem getCore_unreserved (p : Proc) (s : State) : getCore (unreserved p s) p = { getCore s p with rsvValid := false } := by
  cases p with
  | core u l => rw [unreserved, getCore, Laws.getUnit_modUnit, OrderReset.unitCore_clearRsv, getCore]
  | engine u e => rw [unreserved, getCore, Laws.getUnit_modUnit, clearEngineRsv, Laws.unitEngine_setUnitEngine, getCore]
  | service => rfl

-- STCOND
theorem drainSb_empty {s : State} {u : UnitId} {l : Nat} (h : (unitCore (getUnit s u) l).sb = []) : drainSb s u l = some s := by
  simp [drainSb, drainBuf, h]

theorem rsvValid_of_withoutTranslations {c d : Core} (h : withoutTranslations d = withoutTranslations c) : d.rsvValid = c.rsvValid := by
  have hvalid := congrArg Core.rsvValid h
  exact hvalid

theorem rsvCovers_of_withoutTranslations {c d : Core} (h : withoutTranslations d = withoutTranslations c) (mpa : Nat) :
    rsvCovers d mpa = rsvCovers c mpa := by
  have hgranule := congrArg Core.rsvGranule h
  have hgranule : d.rsvGranule = c.rsvGranule := hgranule
  rw [rsvCovers, rsvValid_of_withoutTranslations h, hgranule, rsvCovers]

theorem without_reservation {c : Core} (h : c.rsvValid = false) : { c with rsvValid := false } = c := by rw [← h]

theorem unitCore_inBody (s1 : State) (u : UnitId) (l : CoreId) (ucc len : Nat) :
    unitCore (getUnit (inBody s1 ⟨.core u l, ucc⟩ len) u) l = moved len (getCore s1 (.core u l)) :=
  getCore_inBody s1 ⟨.core u l, ucc⟩ len

theorem unitCore_inBody_sb (s1 : State) (u : UnitId) (l : CoreId) (ucc len : Nat) :
    (unitCore (getUnit (inBody s1 ⟨.core u l, ucc⟩ len) u) l).sb = (getCore s1 (.core u l)).sb := by
  rw [unitCore_inBody]
  rfl

theorem unitCore_inBody_rsvValid (s1 : State) (u : UnitId) (l : CoreId) (ucc len : Nat) :
    (unitCore (getUnit (inBody s1 ⟨.core u l, ucc⟩ len) u) l).rsvValid = (getCore s1 (.core u l)).rsvValid := by
  rw [unitCore_inBody]
  rfl

@[simp] theorem rdD_counted (p : Proc) (n : Nat) (c : Core) (r : Reg) : rdD (counted p n c) r = rdD c r := by cases p <;> rfl

@[simp] theorem counted_rsvValid (p : Proc) (n : Nat) (c : Core) : (counted p n c).rsvValid = c.rsvValid := by cases p <;> rfl

/-- STCOND of a core, its body at an end: Dd and RSV are written, and memory is that of the end. -/
theorem stcond_of_end {s s1 t : State} {u : UnitId} {l : CoreId} {ucc : Nat} {d r v : Reg} {ok : Bool}
    (hready : Ready s ⟨.core u l, ucc⟩ { len := 2, txBad := true } s1)
    (hend : stcondCore d v u l (rdA (getCore s1 (.core u l)) r) (.core u l) (inBody s1 ⟨.core u l, ucc⟩ 2) =
      stcondEnd d ok (.core u l) t) :
    ∃ t', exec (.stcond ⟨.core u l, ucc⟩ d r v) s = .next t' ∧
      getCore t' (.core u l) = counted (.core u l) 1 (wrD { getCore t (.core u l) with rsvValid := false } d (if ok then 0 else 1)) ∧
      ∀ n, byteAt t' u n = byteAt t u n := by
  have hva := Strings.rdA_inBody s1 ⟨.core u l, ucc⟩ 2 r
  rw [← hva] at hend
  obtain ⟨t', hnext, hregs, helse⟩ := retires_of_done hready (Laws.exec_stcond _ d r v s) hend
  refine ⟨t', hnext, ?registers, fun n => ?bytes⟩
  case registers =>
    rw [hregs, Laws.getCore_setCore]
    rfl
  case bytes => rw [byteAt_of_elsewhere helse, byteAt_of_elsewhere (Laws.elsewhere_setCore _ _ _)]

section
variable {s s2 : State} {u : UnitId} {l : CoreId} {mpa : Nat} {va : Word}

/-- A STCOND without a reservation clears what is left of one, and fails (09 R278). -/
theorem stcondCore_fails (hsb : (unitCore (getUnit s u) l).sb = []) (hvalid : (unitCore (getUnit s u) l).rsvValid = false)
    (hhome : dataAddr s (.core u l) va { n := 8, write := true, atHome := true } = .at mpa s2)
    (haddr : dataAddr s (.core u l) va { n := 8, write := true } = .at mpa s2) (d v : Reg) :
    stcondCore d v u l va (.core u l) s = stcondEnd d false (.core u l) (modUnit s2 u (fun x => clearRsv x l)) := by
  have hcovers : rsvCovers (unitCore (getUnit s u) l) mpa = false := by simp [rsvCovers, hvalid]
  have hcovers2 : rsvCovers (unitCore (getUnit s2 u) l) mpa = false := by
    rw [rsvCovers_of_withoutTranslations (coreAddr_at (dataAddr_core haddr)).2, hcovers]
  simp [stcondCore, drainSb_empty hsb, hhome, hcovers, haddr, hcovers2]

/-- A STCOND whose reservation holds, at a home in DRAM that takes it, performs its store as one step (09 R278). -/
theorem stcondCore_stores {y : UnitState} (hsb : (unitCore (getUnit s u) l).sb = [])
    (hhome : dataAddr s (.core u l) va { n := 8, write := true, atHome := true } = .at mpa s2)
    (hcovers2 : rsvCovers (unitCore (getUnit s2 u) l) mpa = true) (hfb : isFbAddr mpa = false)
    (hflying : rsvlFlying (getUnit s2 u) mpa (corePos (getUnit s2 u) l, 0) = false)
    (htakes : homeTakes (getUnit s2 u) (unitCore (getUnit s2 u) l).parcel.toNat mpa = true)
    (htouch : coreTouch (getUnit s2 u) l (mpa / 64) true none = (y, .go)) (d v : Reg) :
    stcondCore d v u l va (.core u l) s = stcondEnd d true (.core u l) (setUnit s2 u (clearRsv
      (performStore y (corePos y l) mpa (leBytes 8 (rdD (unitCore (getUnit s2 u) l) v).toNat) (some l.val) none) l)) := by
  have hcovers : rsvCovers (unitCore (getUnit s u) l) mpa = true := by
    rw [← rsvCovers_of_withoutTranslations (coreAddr_at (dataAddr_core hhome)).2, hcovers2]
  simp [stcondCore, drainSb_empty hsb, hhome, hcovers, hcovers2, hflying, htakes, hfb, htouch]

/-- A translation leaves the bytes of memory. -/
theorem byteAt_of_dataAddr {a : Access} (h : dataAddr s (.core u l) va a = .at mpa s2) (n : Nat) : byteAt s2 u n = byteAt s u n := by
  rw [byteAt, (coreAddr_at (dataAddr_core h)).1, byteAt]

end

/-- Settles O28: LDRES by `ldresCore_reserves`, a STCOND by the end that its core's body comes to. -/
theorem reservationsOfLogicalCores : Obligations.ReservationsOfLogicalCores := by
  unfold Obligations.ReservationsOfLogicalCores
  refine ⟨?ldres, ?clres, ?fails, ?stores⟩
  case ldres =>
    intro s s1 u l ucc d r mpa s2 y s3 bs hready haddr hfb x hpins htouch hload
    obtain ⟨t, hnext, hregs, helse⟩ := retires_of_ldresCore hready haddr (ldresCore_reserves hfb hpins htouch hload d (.core u l))
    refine ⟨t, hnext, ?registers, ?pin⟩
    case registers =>
      rw [hregs, Laws.getCore_setCore, getCore, Laws.getUnit_modUnit, unitCore_reserved]
      rfl
    case pin =>
      rw [dirOf_of_elsewhere helse, dirOf_of_elsewhere (Laws.elsewhere_setCore _ _ _), Laws.getUnit_modUnit, reserved_pin]
  case clres =>
    intro s s1 i hready
    obtain ⟨t, hnext, hregs, -⟩ := retires_of_done hready (exec_clres_eq i s) rfl
    refine ⟨t, hnext, ?_⟩
    rw [hregs, Laws.getCore_setCore, getCore_unreserved, getCore_inBody]
  case fails =>
    intro s s1 u l ucc d r v mpa s2 hready hsb hvalid hhome haddr
    rw [← unitCore_inBody_sb s1 u l ucc 2] at hsb
    rw [← unitCore_inBody_rsvValid s1 u l ucc 2] at hvalid
    have hvalid2 := (rsvValid_of_withoutTranslations (coreAddr_at (dataAddr_core haddr)).2).trans hvalid
    obtain ⟨t, hnext, hregs, hbytes⟩ := stcond_of_end hready (stcondCore_fails hsb hvalid hhome haddr d v)
    refine ⟨t, hnext, ?registers, fun n => ?bytes⟩
    case registers =>
      rw [hregs, getCore, Laws.getUnit_modUnit, OrderReset.unitCore_clearRsv, without_reservation hvalid2]
      rfl
    case bytes =>
      rw [hbytes, byteAt, Laws.getUnit_modUnit, clearRsv_data]
      exact (byteAt_of_dataAddr haddr n).trans (byteAt_of_elsewhere (elsewhere_inBody hready 2) u n)
  case stores =>
    intro s s1 u l ucc d r v mpa s2 y hready hsb hhome hvalid hgranule hfb hflying htakes htouch
    rw [← unitCore_inBody_sb s1 u l ucc 2] at hsb
    have hcovers : rsvCovers (unitCore (getUnit s2 u) l) mpa = true := by
      rw [rsvCovers, Bool.and_eq_true, decide_eq_true_iff]
      exact ⟨hvalid, hgranule⟩
    obtain ⟨t, hnext, hregs, hbytes⟩ := stcond_of_end hready (stcondCore_stores hsb hhome hcovers hfb hflying htakes htouch d v)
    refine ⟨t, hnext, ?written, ?released, fun n => ?bytes⟩
    case written =>
      rw [hregs, rdD_counted, Laws.rdD_wrD]
      rfl
    case released => rw [hregs, counted_rsvValid, Laws.wrD_rsvValid]
    case bytes =>
      have hbefore : tabGet byteDef y.mem.data n = byteAt s u n := by
        rw [(Laws.coreTouch_go htouch).1]
        exact (byteAt_of_dataAddr hhome n).trans (byteAt_of_elsewhere (elsewhere_inBody hready 2) u n)
      rw [hbytes, byteAt, Laws.getUnit_setUnit, clearRsv_data, tabGet_performStore, Laws.leBytes_length, hbefore]
      rfl

end Sys2Proof.Proofs.Reservations
end

section
/-! Posting transactions (O29): the transaction that TBEG opens, what a commit stores and releases, and TABT. -/
namespace Sys2Proof.Proofs.Transactions

open Sys2Proof.Machine Sys2Proof.Safety Sys2Proof.Claims Sys2Proof.Proofs.Home Sys2Proof.Proofs.MemoryForms Sys2Proof.Proofs.Aborts
  Sys2Proof.Proofs.Reservations

-- TBEG
/-- TBEG, the earlier stores performed, opens its transaction (09 R282, R290). -/
theorem tbegBody_opens {s s2 : State} {u : UnitId} {l : CoreId} (horder : orderNow s (.core u l) = some s2) (ucc : Nat) (disp : BitVec 30) :
    ∃ ws, tbegBody ⟨.core u l, ucc⟩ disp s =
      .done (setCore s2 (.core u l) (opened ucc l disp (getCore s2 (.core u l)))) ws 1 := by
  have hcore : getCore s2 (.core u l) = unitCore (getUnit s2 u) l := rfl
  simp only [tbegBody, horder, retireWith, withFlags, opened, hcore]
  generalize unitCore (getUnit s2 u) l = c
  generalize c.pc - 3 = pc0
  cases hcarried : c.carried with
  | none => exact ⟨_, rfl⟩
  | some k =>
    obtain ⟨stamp, pc⟩ := k
    by_cases hpc : pc = pc0
    · simp [hpc, branchTo, takeCkpt, Option.filter]
    · simp [hpc, branchTo, takeCkpt, Option.filter]

-- the bytes of a commit
section
variable {V : Type}

/-- A key reads as its default, or as a value that no default changes. -/
theorem tabGet_default_or_listed (t : Tab V) (n : Nat) :
    (∀ d : Nat → V, tabGet d t n = d n) ∨ ∃ v, ∀ d : Nat → V, tabGet d t n = v := by
  induction t with
  | nil => exact .inl fun _ => rfl
  | cons e r ih =>
    obtain ⟨k, v⟩ := e
    by_cases hk : k = n
    · exact .inr ⟨v, fun d => by rw [tabGet, if_pos hk]⟩
    · simpa only [tabGet, if_neg hk] using ih

theorem tabGet_congr {d d' : Nat → V} {n : Nat} (h : d n = d' n) (t : Tab V) : tabGet d t n = tabGet d' t n := by
  rcases tabGet_default_or_listed t n with hdefault | ⟨v, hlisted⟩
  · rw [hdefault, hdefault, h]
  · rw [hlisted, hlisted]

theorem tabGet_append (d : Nat → V) (t r : Tab V) (n : Nat) : tabGet d (t ++ r) n = tabGet (tabGet d r) t n := by
  induction t with
  | nil => rfl
  | cons e t ih => simp only [List.cons_append, tabGet, ih]

/-- A table over itself reads as itself. -/
theorem tabGet_over_self (d : Nat → V) (t : Tab V) (n : Nat) : tabGet (tabGet d t) t n = tabGet d t n := by
  rcases tabGet_default_or_listed t n with hdefault | ⟨v, hlisted⟩
  · rw [hdefault]
  · rw [hlisted, hlisted]

/-- A table without the keys that fail a test. -/
theorem tabGet_filter (d : Nat → V) (p : Nat → Bool) (t : Tab V) (n : Nat) :
    tabGet d (t.filter (fun e => p e.1)) n = if p n = true then tabGet d t n else d n := by
  induction t with
  | nil => simp [tabGet]
  | cons e r ih =>
    obtain ⟨k, v⟩ := e
    by_cases hk : k = n
    · subst hk
      cases hp : p k <;> simp [tabGet, hp, ih]
    · cases hp : p k <;> simp [tabGet, hp, hk, ih]

end

/-- Bytes put one after the other: the last one stored at an address stands. -/
theorem tabGet_putEach (es : Tab Byte) (x : UnitState) (n : Nat) :
    tabGet byteDef (es.foldl (fun x e => putBytes x e.1 [e.2]) x).mem.data n = tabGet (tabGet byteDef x.mem.data) es.reverse n := by
  induction es generalizing x with
  | nil => rfl
  | cons e es ih =>
    rw [List.foldl_cons, ih, List.reverse_cons, tabGet_append]
    exact tabGet_congr (Laws.tabGet_tabSet _ _ _ _ _) _

theorem putEach_cores (es : Tab Byte) (x : UnitState) : (es.foldl (fun x e => putBytes x e.1 [e.2]) x).exe.cores = x.exe.cores := by
  induction es generalizing x with
  | nil => rfl
  | cons e es ih => rw [List.foldl_cons, ih]; rfl

/-- The bytes of a transaction over the memory that it began with (09 R285). -/
def committed (x : UnitState) (t : Txn) : Nat → Byte := tabGet (tabGet byteDef x.mem.data) t.data.reverse

theorem tabGet_commitLine (x : UnitState) (l : Nat) (t : Txn) (line n : Nat) :
    tabGet byteDef (commitLine x l t line).mem.data n = if n / 64 = line then committed x t n else tabGet byteDef x.mem.data n := by
  simp only [commitLine, Laws.storeEffects_data, Laws.writeThrough_data]
  rw [tabGet_putEach, ← List.filter_reverse, tabGet_filter _ (fun a => a / 64 == line), Laws.cohOwn_data]
  simp [committed]

theorem tabGet_commitLines (ls : List Nat) (x : UnitState) (l : Nat) (t : Txn) (n : Nat) :
    tabGet byteDef (ls.foldl (fun x line => commitLine x l t line) x).mem.data n =
      if n / 64 ∈ ls then committed x t n else tabGet byteDef x.mem.data n := by
  induction ls generalizing x with
  | nil => simp
  | cons line ls ih =>
    have hover : committed (commitLine x l t line) t n = committed x t n := by
      by_cases hn : n / 64 = line
      · rw [committed, tabGet_congr (d' := committed x t) (by rw [tabGet_commitLine, if_pos hn]), committed, tabGet_over_self]
      · rw [committed, tabGet_congr (d' := tabGet byteDef x.mem.data) (by rw [tabGet_commitLine, if_neg hn]), committed]
    rw [List.foldl_cons, ih, hover, tabGet_commitLine]
    by_cases hn : n / 64 = line <;> simp [hn]

-- the registers of a commit
@[simp] theorem flushTlb_afterOwnStore (line : Nat) (c : Core) : flushTlb (afterOwnStore line c) = flushTlb c := by
  unfold afterOwnStore
  split <;> rfl

theorem commitLine_own {x : UnitState} {l : Nat} (h : listsCore x l) (t : Txn) (line : Nat) :
    listsCore (commitLine x l t line) l ∧ flushTlb (unitCore (commitLine x l t line) l) = flushTlb (unitCore x l) := by
  simp only [commitLine]
  generalize hz : writeThrough _ _ _ = z
  have hcores : z.exe.cores = x.exe.cores := by rw [← hz, writeThrough_cores, putEach_cores, Laws.cohOwn_cores]
  have hlists : listsCore z l := by rwa [listsCore, hcores]
  exact ⟨listsCore_storeEffects hlists line, by rw [unitCore_storeEffects hlists, flushTlb_afterOwnStore, unitCore_congr hcores]⟩

theorem commitLines_own (ls : List Nat) {x : UnitState} {l : Nat} (h : listsCore x l) (t : Txn) :
    flushTlb (unitCore (ls.foldl (fun x line => commitLine x l t line) x) l) = flushTlb (unitCore x l) := by
  induction ls generalizing x with
  | nil => rfl
  | cons line ls ih =>
    obtain ⟨hlists, hsame⟩ := commitLine_own h t line
    rw [List.foldl_cons, ih hlists, hsame]

/-- The unit of a commit: the bytes of the write set are stored, and no other (09 R285). -/
theorem tabGet_commitTxn (x : UnitState) (l : Nat) (t : Txn) (n : Nat) : tabGet byteDef (commitTxn x l t).mem.data n =
    if n / 64 ∈ t.writeSet then committed x t n else tabGet byteDef x.mem.data n := by
  rw [← tabGet_commitLines _ x l]
  exact congrArg (fun d => tabGet byteDef d n) (releaseLines_data _ _ _)

/-- The unit of a commit: both sets are released. -/
theorem released_commitTxn (x : UnitState) (l : Nat) (t : Txn) : released (commitTxn x l t) l t :=
  released_setUnitCore (released_releaseLines _ _ _) _ _

/-- The unit of a commit: the core's registers are as before but for its transaction and its stale translations. -/
theorem unitCore_commitTxn {x : UnitState} {l : Nat} (h : listsCore x l) (t : Txn) :
    flushTlb (unitCore (commitTxn x l t) l) = flushTlb { unitCore x l with txn := none, carried := none } := by
  rw [commitTxn, Laws.unitCore_modUnitCore, OrderReset.unitCore_releaseLines]
  exact congrArg (fun c : Core => { c with txn := none, carried := none }) (commitLines_own _ h t)

-- TEND
/-- The state in which a core has committed its transaction and taken its order (09 R285). -/
def ordered (u : UnitId) (l : CoreId) (t : Txn) (s : State) : State :=
  modCore (modUnit s u (fun x => commitTxn x l t)) (.core u l) (fun c => if c.ctxStale then flushTlb c else c)

/-- The registers with PSW.TX clear. -/
def outOfTx (c : Core) : Core := { c with psw := { c.psw with tx := false } }

/-- The state in which TEND retires. -/
def ended (u : UnitId) (l : CoreId) (t : Txn) (s : State) : State := modCore (ordered u l t s) (.core u l) outOfTx

theorem flushTlb_ordered (c : Core) : flushTlb (if c.ctxStale then flushTlb c else c) = flushTlb c := by
  split <;> rfl

/-- Registers that agree but for translations agree in what a program reads, and in the transaction. -/
theorem fields_of_flushTlb {c d : Core} (h : flushTlb c = flushTlb d) :
    c.txn = d.txn ∧ c.carried = d.carried ∧ c.psw = d.psw ∧ c.pc = d.pc ∧ c.a = d.a ∧ c.d = d.d ∧ c.k = d.k := by
  have hfields := congrArg (fun c : Core => (c.txn, c.carried, c.psw, c.pc, c.a, c.d, c.k)) h
  simpa only [flushTlb, Prod.mk.injEq] using hfields

section
variable {s : State} {u : UnitId} {l : CoreId}

/-- A core whose store buffer is empty has its order at once, and keeps no stale translation. -/
theorem orderNow_empty (h : (unitCore (getUnit s u) l).sb = []) :
    orderNow s (.core u l) = some (modCore s (.core u l) (fun c => if c.ctxStale then flushTlb c else c)) := by
  simp only [orderNow, drainSb_empty h]
  rfl

/-- A commit leaves an empty store buffer empty, so its order comes at once. -/
theorem orderNow_commitTxn (hlists : listsCore (getUnit s u) l) (hsb : (unitCore (getUnit s u) l).sb = []) (t : Txn) :
    orderNow (modUnit s u (fun x => commitTxn x l t)) (.core u l) = some (ordered u l t s) := by
  have hempty := congrArg Core.sb (unitCore_commitTxn hlists t)
  refine orderNow_empty ?_
  rw [Laws.getUnit_modUnit]
  exact hempty.trans hsb

theorem getCore_ended (hlists : listsCore (getUnit s u) l) (t : Txn) : flushTlb (getCore (ended u l t s) (.core u l)) =
    flushTlb (outOfTx { unitCore (getUnit s u) l with txn := none, carried := none }) := by
  have hordered : flushTlb (getCore (ordered u l t s) (.core u l)) =
      flushTlb { unitCore (getUnit s u) l with txn := none, carried := none } := by
    rw [ordered, Laws.getCore_modCore, flushTlb_ordered, getCore, Laws.getUnit_modUnit, unitCore_commitTxn hlists]
  rw [ended, Laws.getCore_modCore]
  exact congrArg outOfTx hordered

theorem elsewhere_ended (t : Txn) :
    elsewhere (.core u l) (ended u l t s) = elsewhere (.core u l) (modUnit s u (fun x => commitTxn x l t)) := by
  rw [ended, Laws.elsewhere_modCore, ordered, Laws.elsewhere_modCore]

end

theorem listsCore_inBody (s1 : State) (u : UnitId) (l : CoreId) (ucc len : Nat) :
    listsCore (getUnit (inBody s1 ⟨.core u l, ucc⟩ len) u) l := by
  rw [inBody, setCore, Laws.getUnit_modUnit]
  exact listsCore_setUnitCore _ _ _

/-- TEND of an open transaction retires in the committed state. -/
theorem tend_retires {s s1 : State} {u : UnitId} {l : CoreId} {ucc : Nat} {txn : Txn}
    (hready : Ready s ⟨.core u l, ucc⟩ { len := 1, t := false, sv := false } s1)
    (htxn : (getCore s1 (.core u l)).txn = some txn) (hsb : (getCore s1 (.core u l)).sb = []) :
    let t := ended u l txn (inBody s1 ⟨.core u l, ucc⟩ 1)
    retires (.tend ⟨.core u l, ucc⟩) s (.core u l) (getCore t (.core u l)) t := by
  have hcore := unitCore_inBody s1 u l ucc 1
  have hopen : (unitCore (getUnit (inBody s1 ⟨.core u l, ucc⟩ 1) u) l).txn = some txn := by rw [hcore]; exact htxn
  have horder := orderNow_commitTxn (listsCore_inBody s1 u l ucc 1) (by rw [hcore]; exact hsb) txn
  exact retires_of_done hready (Laws.exec_tend _ s) (by simp only [hopen, horder]; rfl)

-- TABT
/-- An instruction that is ready and whose body aborts its transaction. -/
theorem next_of_abort {c : Instr} {s s1 t : State} {i : Issue} {e : Enc} {body : State → XOut} {code : BitVec 8} (h : Ready s i e s1)
    (hx : exec c s = runInstr s i e body) (hbody : body (inBody s1 i e.len) = .abort t code) :
    exec c s = .next (selfAbort t i.proc code) := by
  rw [hx, Laws.runInstr_ready h]
  exact congrArg (finish s1 i.proc e.len) hbody

/-- Settles O29: TBEG by `tbegBody_opens`, the commit by `tend_retires` and what `commitTxn` leaves, TABT by `txAbort`. -/
theorem transactionsOpenCommitAndAbort : Obligations.TransactionsOpenCommitAndAbort := by
  unfold Obligations.TransactionsOpenCommitAndAbort
  refine ⟨?tbeg, ?tend, ?tabt, ?tabtClosed⟩
  case tbeg =>
    intro s s1 u l ucc disp s2 i hready horder
    obtain ⟨ws, hbody⟩ := tbegBody_opens horder ucc disp
    obtain ⟨t, hnext, hregs, helse⟩ := retires_of_done hready (Laws.exec_tbeg i 0 disp s) hbody
    exact ⟨t, hnext, by rw [hregs, Laws.getCore_setCore], by rw [helse, Laws.elsewhere_setCore]⟩
  case tend =>
    intro s s1 u l ucc txn i c hready htxn hsb
    obtain ⟨t, hnext, hregs, helse⟩ := tend_retires hready htxn hsb
    have hended := getCore_ended (listsCore_inBody s1 u l ucc 1) txn
    rw [unitCore_inBody] at hended
    obtain ⟨htxn', hcarried, hpsw, hpc, ha, hd, hk⟩ := fields_of_flushTlb hended
    have helse := helse.trans (elsewhere_ended txn)
    refine ⟨t, hnext, ?registers, fun n => ?bytes, ?sets⟩
    case registers =>
      rw [hregs]
      exact ⟨congrArg (Option.map _) htxn', hcarried, hpsw, hpc, ha, hd, hk⟩
    case bytes =>
      rw [byteAt_of_elsewhere helse, byteAt, Laws.getUnit_modUnit, tabGet_commitTxn, committed,
        mem_of_elsewhere (elsewhere_inBody hready 1) u]
      rfl
    case sets =>
      refine released_of_elsewhere helse ?_
      rw [Laws.getUnit_modUnit]
      exact released_commitTxn _ _ _
  case tabt =>
    intro s s1 u l ucc code txn i hready htxn
    have hcore := getCore_inBody s1 i 2
    have hopen : (getCore (inBody s1 i 2) i.proc).txn = some txn := by rw [hcore]; exact htxn
    have hnext := next_of_abort (t := inBody s1 i 2) (code := code) hready (Laws.exec_tabt i code s) (by simp only [hopen])
    have haborts := aborts_of_txAbort hnext hopen (byteAt_of_elsewhere (elsewhere_inBody hready 2) u)
    rw [unitCore_inBody] at haborts
    exact haborts
  case tabtClosed =>
    intro i code s s1 hready hclosed
    obtain ⟨t, hnext, hregs, helse⟩ := retires_of_done (t := inBody s1 i 2) (ws := []) hready (Laws.exec_tabt i code s)
      (by simp only [getCore_inBody, hclosed])
    exact ⟨t, hnext, by rw [hregs, getCore_inBody], by rw [helse, elsewhere_inBody hready]⟩

end Sys2Proof.Proofs.Transactions
end

section
/-! Entries to supervisor state other than machine checks, and the ways to and from them: RTE (O17), SVC (O31), WAIT and the interrupts
that a core meets at an instruction boundary (O34). -/
namespace Sys2Proof.Proofs.Entries

open Sys2Proof.Machine Sys2Proof.Safety Sys2Proof.Claims Sys2Proof.Proofs.OrderReset Sys2Proof.Proofs.DecodeExceptions
  Sys2Proof.Proofs.Home Sys2Proof.Proofs.MemoryForms Sys2Proof.Proofs.Reservations

-- RTE
theorem enterCore_ssp (c : Core) (code ilen : Nat) (tx : Bool) (iaddr epc : CodeAddr) (eaddr : Word) :
    (enterCore c code ilen tx iaddr epc eaddr).ssp = c.ssp := by
  simp only [enterCore]
  split <;> rfl

theorem returnCore_ssp (c : Core) : (returnCore c).ssp = c.ssp := by
  simp only [returnCore]
  split <;> rfl

/-- Settles O17: RTE leaves the registers of `returnCore`. -/
theorem returnFromException : Obligations.ReturnFromException := by
  unfold Obligations.ReturnFromException
  exact ⟨fun i => Registers.effect_of_regs _ (Laws.exec_rte i) fun _ => rfl, enterCore_ssp, returnCore_ssp⟩

-- the entry sequence
theorem entryPoint_eq (c : Core) (k : EntryKind) : entryPoint c k = BitVec.ofNat 48 (c.vbase.toNat * 1024 + entryOffset k) := by
  have hvbase := c.vbase.isLt
  have hoffset : entryOffset k ≤ 768 := by cases k <;> decide
  apply BitVec.eq_of_toNat_eq
  simp only [entryPoint, BitVec.toNat_add, BitVec.toNat_shiftLeft, BitVec.toNat_setWidth, BitVec.toNat_ofNat, Nat.shiftLeft_eq]
  omega

/-- The entry sequence outside a transaction, of a cause that is no machine check, leaves the registers of `entered` (10 R297, R299). -/
theorem enterCore_eq_entered {code : Nat} (hkind : causeKind code ≠ .mcheck) (c : Core) (ilen : Nat) (iaddr epc : CodeAddr)
    (eaddr : Word) : enterCore { c with rsvValid := false } code ilen false iaddr epc eaddr =
      entered c code ilen iaddr epc eaddr (entryOffset (causeKind code)) := by
  simp only [enterCore, entered, entryPoint_eq, hkind, decide_false, Bool.or_false]
  rfl

/-- A cause that is no machine check is an entry, unless the instruction raises it at its own entry point (10 R297, R299). -/
theorem takeCause_entry {s : State} {u : UnitId} {l code : Nat} {iaddr : CodeAddr} (hkind : causeKind code ≠ .mcheck)
    (hpoint : causeKind code = .interrupt ∨ iaddr ≠ entryPoint (unitCore (getUnit s u) l) (causeKind code)) (ilen : Nat)
    (epc : CodeAddr) (eaddr : Word) :
    takeCause s u l code ilen iaddr epc eaddr = modUnit s u (fun x => enterFrom x l code ilen iaddr epc eaddr) := by
  have hlow : ¬ 0x21 ≤ code := fun h => hkind (if_pos (by omega))
  have hstop : ¬ (causeKind code ≠ .interrupt ∧ code ≠ 0x20 ∧ iaddr = entryPoint (unitCore (getUnit s u) l) (causeKind code)) :=
    fun ⟨hother, _, hsame⟩ => hpoint.elim hother fun hne => hne hsame
  simp only [takeCause, if_neg hlow, hkind, false_and, if_false, if_neg hstop]

/-- What the entry of a core outside a transaction leaves: the registers of `entered` at the core, and every byte and the registers of
every other core of the unit as they were. -/
theorem enterFrom_entered {s : State} {u : UnitId} {l code : Nat} (htxn : (unitCore (getUnit s u) l).txn = none)
    (hkind : causeKind code ≠ .mcheck) (ilen : Nat) (iaddr epc : CodeAddr) (eaddr : Word) :
    let t := modUnit s u (fun x => enterFrom x l code ilen iaddr epc eaddr)
    unitCore (getUnit t u) l = entered (unitCore (getUnit s u) l) code ilen iaddr epc eaddr (entryOffset (causeKind code)) ∧
      (∀ n, byteAt t u n = byteAt s u n) ∧ ∀ m, m ≠ l → unitCore (getUnit t u) m = unitCore (getUnit s u) m := by
  refine ⟨?registers, fun n => ?bytes, fun m hm => ?cores⟩
  case registers => rw [Laws.getUnit_modUnit, unitCore_enterFrom htxn, enterCore_eq_entered hkind]
  case bytes => rw [byteAt, Laws.getUnit_modUnit, enterFrom_data htxn, byteAt]
  case cores => rw [Laws.getUnit_modUnit, enterFrom_otherCore htxn (Ne.symm hm)]

-- SVC
/-- An instruction that transactions forbid is ready outside a transaction alone (09 R284). -/
theorem txn_none_of_inLimit {e : Enc} {c : Core} (hlimit : txLimit e c = none) (htxBad : e.txBad = true) : c.txn = none := by
  cases htxn : c.txn with
  | none => rfl
  | some t =>
    simp only [txLimit, htxn, htxBad, if_true] at hlimit
    split at hlimit <;> cases hlimit

/-- An SVC that is ready comes to its cause, taken with the registers that its fetch left (10 R297, R302). -/
theorem exec_svc_ready {s s1 : State} {u : UnitId} {l : CoreId} {ucc : Nat} {k : Core}
    (hready : Ready s ⟨.core u l, ucc⟩ { len := 2, txBad := true } s1) (hk : getCore s1 (.core u l) = k) (imm : BitVec 12) :
    exec (.svc ⟨.core u l, ucc⟩ imm) s =
      .next (takeCause (setCore s1 (.core u l) k) u l 0x0C 1 k.pc (k.pc + 2) (imm.setWidth 64)) := by
  have hcore : unitCore (getUnit (setCore s1 (.core u l) k) u) l = k := Laws.getCore_setCore s1 (.core u l) k
  have hexn : exec (.svc ⟨.core u l, ucc⟩ imm) s = takeExn (setCore s1 (.core u l) k) (.core u l) 0x0C 1 (imm.setWidth 64) := by
    rw [Laws.exec_svc, execSvc, Laws.runInstr_ready hready, finish, modCore, Laws.getCore_setCore, Laws.setCore_setCore, hk]
    rfl
  simp only [hexn, takeExn, hcore, if_true]

/-- Settles O31: the supervisor call is the entry of cause 0x0C. -/
theorem supervisorCallEntry : Obligations.SupervisorCallEntry := by
  unfold Obligations.SupervisorCallEntry
  intro s s1 u l ucc imm k hready hpc
  have hcore : unitCore (getUnit (setCore s1 (.core u l) k) u) l = k := Laws.getCore_setCore s1 (.core u l) k
  have htxn : (unitCore (getUnit (setCore s1 (.core u l) k) u) l).txn = none := by
    rw [hcore]
    exact txn_none_of_inLimit hready.inLimit rfl
  have hpoint : k.pc ≠ entryPoint (unitCore (getUnit (setCore s1 (.core u l) k) u) l) (causeKind 0x0C) := by
    rw [hcore, entryPoint_eq]
    exact hpc
  have hkind : causeKind 0x0C ≠ .mcheck := by decide
  obtain ⟨hregisters, hbytes, hcores⟩ := enterFrom_entered htxn hkind 1 k.pc (k.pc + 2) (imm.setWidth 64)
  refine ⟨_, (exec_svc_ready hready rfl imm).trans (congrArg _ (takeCause_entry hkind (.inr hpoint) _ _ _)), ?registers,
    fun n => ?bytes, fun m hm => ?cores⟩
  case registers =>
    rw [hcore] at hregisters
    exact hregisters
  case bytes =>
    have helse : elsewhere (.core u l) (setCore s1 (.core u l) k) = elsewhere (.core u l) s :=
      (Laws.elsewhere_setCore _ _ _).trans (Laws.ready_elsewhere hready)
    exact (hbytes n).trans (byteAt_of_elsewhere helse u n)
  case cores =>
    rw [hcores m hm, setCore, Laws.getUnit_modUnit, Laws.unitCore_setUnitCore_ne _ _ (Ne.symm hm)]

-- interrupts
theorem txn_none_of_intEnabled {c : Core} (h : intEnabled c = true) : c.txn = none := by
  simp only [intEnabled, Bool.and_eq_true, Option.isNone_iff_eq_none] at h
  exact h.2

/-- An interrupt taken, its source's request cleared by `f`, is an entry at +768 (10 R299, R303). -/
theorem takeCause_interrupt {s : State} {u : UnitId} {l code : Nat} {f : Core → Core} (hkind : causeKind code = .interrupt)
    (htxn : (f (unitCore (getUnit s u) l)).txn = none) (pc : CodeAddr) (eaddr : Word) :
    let t := takeCause (modUnit s u (fun x => modUnitCore x l f)) u l code 0 pc pc eaddr
    unitCore (getUnit t u) l = entered (f (unitCore (getUnit s u) l)) code 0 pc pc eaddr 768 ∧ ∀ n, byteAt t u n = byteAt s u n := by
  have hcheck : causeKind code ≠ .mcheck := by
    rw [hkind]
    decide
  have hcore : unitCore (getUnit (modUnit s u (fun x => modUnitCore x l f)) u) l = f (unitCore (getUnit s u) l) := by
    rw [Laws.getUnit_modUnit, Laws.unitCore_modUnitCore]
  obtain ⟨hregisters, hbytes, -⟩ := enterFrom_entered (hcore ▸ htxn) hcheck 0 pc pc eaddr
  rw [takeCause_entry hcheck (.inl hkind)]
  refine ⟨?registers, fun n => ?bytes⟩
  case registers => rw [hregisters, hcore, hkind]; rfl
  case bytes => rw [hbytes, byteAt, Laws.getUnit_modUnit]; rfl

theorem lowestPending_of_anyPending {x : UnitState} {c : Core} (hpending : anyPending x c = true) (htimer : timerPending x c = false) :
    ∃ v, lowestPending c = some v := by
  rw [anyPending, htimer, Bool.false_or] at hpending
  exact Option.isSome_iff_exists.1 hpending

/-- A core that may take a pending interrupt takes the timer, and without it the lowest vector (10 R303 to R306). -/
theorem takeInterrupt_enabled {s : State} {u : UnitId} {l : Nat} (henabled : intEnabled (unitCore (getUnit s u) l) = true)
    (hpending : anyPending (getUnit s u) (unitCore (getUnit s u) l) = true) :
    ∃ t, takeInterrupt s u l = some t ∧
      some (unitCore (getUnit t u) l) = interrupted (getUnit s u) (unitCore (getUnit s u) l) ∧ ∀ n, byteAt t u n = byteAt s u n := by
  have htxn := txn_none_of_intEnabled henabled
  cases htimer : timerPending (getUnit s u) (unitCore (getUnit s u) l) with
  | true =>
    obtain ⟨hcore, hbytes⟩ := takeCause_interrupt (s := s) (u := u) (l := l) (code := 0x10) (f := fun c => { c with tcmp := 0 })
      rfl htxn (unitCore (getUnit s u) l).pc (unitCore (getUnit s u) l).tcmp
    refine ⟨_, ?_, ?_, hbytes⟩
    · simp only [takeInterrupt, henabled, htimer, Bool.not_true, Bool.false_eq_true, if_false, if_true]
    · rw [hcore, interrupted, if_pos htimer]
  | false =>
    obtain ⟨v, hlowest⟩ := lowestPending_of_anyPending hpending htimer
    obtain ⟨hcore, hbytes⟩ := takeCause_interrupt (s := s) (u := u) (l := l) (code := 0x11)
      (f := fun c => { c with pend := withBit c.pend v false }) rfl htxn (unitCore (getUnit s u) l).pc (BitVec.ofNat 64 v)
    refine ⟨_, ?_, ?_, hbytes⟩
    · simp only [takeInterrupt, henabled, htimer, hlowest, Bool.not_true, Bool.false_eq_true, if_false]
    · rw [hcore, interrupted, htimer, hlowest]
      rfl

theorem takeInterrupt_disabled {s : State} {u : UnitId} {l : Nat} (h : intEnabled (unitCore (getUnit s u) l) = false) :
    takeInterrupt s u l = none := by
  simp only [takeInterrupt, h, Bool.not_false, if_true]

-- a WAIT that ends
/-- After the end of a WAIT its core no longer waits; a core in no WAIT is as it was (10 R307). -/
theorem unitCore_endWait (x : UnitState) (l : Nat) : unitCore (endWait x l) l = { unitCore x l with waiting := false } := by
  cases hwaiting : (unitCore x l).waiting with
  | true =>
    rw [endWait, if_pos hwaiting]
    exact Laws.unitCore_modUnitCore x l fun c => { c with waiting := false }
  | false =>
    rw [endWait, if_neg (by simp [hwaiting]), ← hwaiting]

theorem endWait_ucc (x : UnitState) (l : Nat) : (endWait x l).ucc = x.ucc := by
  unfold endWait
  split <;> rfl

theorem endWait_mem (x : UnitState) (l : Nat) : (endWait x l).mem = x.mem := by
  unfold endWait
  split <;> rfl

/-- Which interrupt a core takes depends on the unit's UCC alone, and the entry ends a WAIT. -/
theorem interrupted_endWait {x y : UnitState} (hucc : y.ucc = x.ucc) (c : Core) :
    interrupted y { c with waiting := false } = interrupted x c := by
  simp only [interrupted, timerPending, hucc]
  rfl

theorem anyPending_endWait {x y : UnitState} (hucc : y.ucc = x.ucc) (c : Core) :
    anyPending y { c with waiting := false } = anyPending x c := by
  simp only [anyPending, timerPending, hucc]
  rfl

section
variable {s : State} {u : UnitId} {l : CoreId} (hboundary : atBoundary s u l = true)
  (hpending : anyPending (getUnit s u) (unitCore (getUnit s u) l) = true)
include hboundary hpending

/-- A pending interrupt that a core meets at a boundary ends its WAIT, and is then taken where it may be. -/
theorem meetInterrupt_pending :
    meetInterrupt s u l = (takeInterrupt (modUnit s u fun x => endWait x l) u l).getD (modUnit s u fun x => endWait x l) := by
  simp only [meetInterrupt, hboundary, hpending, Bool.not_true, Bool.or_self, Bool.false_eq_true, if_false]

/-- With interrupts off the core goes on past its WAIT without an entry (10 R307). -/
theorem meetInterrupt_disabled (h : intEnabled (unitCore (getUnit s u) l) = false) :
    unitCore (getUnit (meetInterrupt s u l) u) l = { unitCore (getUnit s u) l with waiting := false } := by
  have hcore : unitCore (getUnit (modUnit s u fun x => endWait x l) u) l = { unitCore (getUnit s u) l with waiting := false } := by
    rw [Laws.getUnit_modUnit, unitCore_endWait]
  have hdisabled : intEnabled (unitCore (getUnit (modUnit s u fun x => endWait x l) u) l) = false := hcore ▸ h
  rw [meetInterrupt_pending hboundary hpending, takeInterrupt_disabled hdisabled]
  exact hcore

/-- With interrupts on the core takes the interrupt, in a WAIT or not (10 R303). -/
theorem meetInterrupt_enabled (h : intEnabled (unitCore (getUnit s u) l) = true) :
    some (unitCore (getUnit (meetInterrupt s u l) u) l) = interrupted (getUnit s u) (unitCore (getUnit s u) l) ∧
      ∀ n, byteAt (meetInterrupt s u l) u n = byteAt s u n := by
  have hcore : unitCore (getUnit (modUnit s u fun x => endWait x l) u) l = { unitCore (getUnit s u) l with waiting := false } := by
    rw [Laws.getUnit_modUnit, unitCore_endWait]
  have hucc : (getUnit (modUnit s u fun x => endWait x l) u).ucc = (getUnit s u).ucc := by
    rw [Laws.getUnit_modUnit, endWait_ucc]
  have henabled : intEnabled (unitCore (getUnit (modUnit s u fun x => endWait x l) u) l) = true := hcore ▸ h
  obtain ⟨t, htake, hregisters, hbytes⟩ :=
    takeInterrupt_enabled henabled (by rw [hcore, anyPending_endWait hucc, hpending])
  rw [meetInterrupt_pending hboundary hpending, htake, Option.getD_some]
  refine ⟨?registers, fun n => ?bytes⟩
  case registers => rw [hregisters, hcore, interrupted_endWait hucc]
  case bytes => rw [hbytes, byteAt, Laws.getUnit_modUnit, endWait_mem, byteAt]

end

-- WAIT
/-- WAIT of a logical core retires while an interrupt is pending, and else leaves the core waiting, uncounted (10 R307). -/
theorem exec_wait_core {s s1 : State} {u : UnitId} {l : CoreId} {ucc : Nat}
    (hready : Ready s ⟨.core u l, ucc⟩ { len := 1, priv := true, txBad := true } s1) :
    exec (.wait ⟨.core u l, ucc⟩) s =
      .next (if anyPending (getUnit s1 u) (getCore s1 (.core u l)) then retire (inBody s1 ⟨.core u l, ucc⟩ 1) (.core u l) [] 1
        else retire (modCore (inBody s1 ⟨.core u l, ucc⟩ 1) (.core u l) fun c => { c with waiting := true }) (.core u l) [] 0) := by
  have hpending : anyPending (getUnit (inBody s1 ⟨.core u l, ucc⟩ 1) u) (unitCore (getUnit (inBody s1 ⟨.core u l, ucc⟩ 1) u) l) =
      anyPending (getUnit s1 u) (getCore s1 (.core u l)) := by
    rw [unitCore_inBody, inBody, setCore, Laws.getUnit_modUnit]
    rfl
  rw [Laws.exec_wait, execWait, Laws.runInstr_ready hready]
  change finish s1 _ 1 (if anyPending (getUnit (inBody s1 ⟨.core u l, ucc⟩ 1) u)
    (unitCore (getUnit (inBody s1 ⟨.core u l, ucc⟩ 1) u) l) then _ else _) = _
  rw [hpending]
  split <;> rfl

/-- On the service processor a free value decides whether WAIT ends, and the pc stays at it until one does (log 8). -/
theorem exec_wait_service {s s1 : State} {ucc : Nat}
    (hready : Ready s ⟨.service, ucc⟩ { len := 1, priv := true, txBad := true } s1) :
    ∃ t, exec (.wait ⟨.service, ucc⟩) s = .next t ∧ (t.svcCore = moved 1 s1.svcCore ∨ t.svcCore = s1.svcCore) := by
  rw [Laws.exec_wait, execWait, Laws.runInstr_ready hready]
  dsimp only
  split
  · exact ⟨_, rfl, .inl rfl⟩
  · exact ⟨_, rfl, .inr rfl⟩

/-- A waiting LDRES whose set has a pin free goes on (09 R280). -/
theorem exec_pinWaitEnd_free {s : State} {u : UnitId} {l : CoreId} {line : BitVec 46}
    (hwait : (unitCore (getUnit s u) l).pinWait = some line)
    (hpins : pinsInSet (getUnit s u) line.toNat (corePos (getUnit s u) l, 0) < 8) :
    exec (.pinWaitEnd u l) s = .next (modUnit s u fun x => modUnitCore x l fun c => { c with pinWait := none }) := by
  simp only [Laws.exec_pinWaitEnd, execPinWaitEnd, hwait, if_neg (Nat.not_le.2 hpins)]

/-- Settles O34: WAIT by its rule for each processor, the three ends of a wait by `meetInterrupt_disabled` and
`meetInterrupt_enabled`. -/
theorem waitsAndInterrupts : Obligations.WaitsAndInterrupts := by
  unfold Obligations.WaitsAndInterrupts
  refine ⟨?waitCore, ?waitEngine, ?waitService, ?waitEnd, ?interruptEntry, ?timerInterrupt, ?pinWaitEnd⟩
  case waitCore =>
    intro s s1 u l ucc i c hready
    refine ⟨_, exec_wait_core hready, ?_, ?_⟩
    · split
      · rw [Laws.elsewhere_retire, elsewhere_inBody hready]
      · rw [Laws.elsewhere_retire, Laws.elsewhere_modCore, elsewhere_inBody hready]
    · split
      · rw [Laws.getCore_retire, getCore_inBody]
      · rw [Laws.getCore_retire, Laws.getCore_modCore, getCore_inBody]
  case waitEngine =>
    intro u e ucc i s s1 hready
    obtain ⟨t, hnext, hregisters, helse⟩ :=
      retires_of_done (t := inBody s1 i 1) (ws := []) hready (Laws.exec_wait i s) rfl
    exact ⟨t, hnext, by rw [hregisters, getCore_inBody], by rw [helse, elsewhere_inBody hready]⟩
  case waitService => exact fun s s1 ucc hready => exec_wait_service hready
  case waitEnd =>
    intro s u l c hboundary hpending hwaiting
    have hexec : exec (.waitEnd u l) s = .next (meetInterrupt s u l) := by rw [Laws.exec_waitEnd, execWaitEnd, if_pos hwaiting]
    refine ⟨fun hoff => ⟨_, hexec, meetInterrupt_disabled hboundary hpending ?_⟩,
      fun henabled => ⟨_, hexec, (meetInterrupt_enabled hboundary hpending henabled).1⟩⟩
    rw [intEnabled, hoff, Bool.false_and, Bool.false_and]
  case interruptEntry =>
    intro s u l c hboundary hpending henabled
    exact ⟨_, by rw [Laws.exec_interruptEntry, execInterruptEntry, if_pos henabled],
      meetInterrupt_enabled hboundary hpending henabled⟩
  case timerInterrupt =>
    intro s s1 u l ucc c htime hboundary htimer henabled
    have hpending : anyPending (getUnit s1 u) c = true := by rw [anyPending, htimer, Bool.true_or]
    have hexec : exec (.timerInterrupt u l ucc) s = .next (meetInterrupt s1 u l) := by
      simp only [Laws.exec_timerInterrupt, execTimerInterrupt, htime]
      rw [if_pos htimer]
    have hentry := (meetInterrupt_enabled hboundary hpending henabled).1
    rw [interrupted, if_pos htimer] at hentry
    exact ⟨_, hexec, Option.some.inj hentry⟩
  case pinWaitEnd =>
    intro s u l line x hwait hpins
    refine ⟨_, exec_pinWaitEnd_free hwait hpins, ?_⟩
    rw [Laws.getUnit_modUnit, Laws.unitCore_modUnitCore]

end Sys2Proof.Proofs.Entries
end

section
/-! What the service of a line leaves of the coherence state (11 R340): requests, replies and evictions at a home move copies, entries,
services and messages; the eviction entries of the agents, the walks, the dead positions and the log of lost lines stand. -/
namespace Sys2Proof.Proofs.Standing

open Sys2Proof.Machine

/-- The coherence state without its copies, entries, services and messages. -/
def standing (x : UnitState) : CohState :=
  { x.mem.coh with dir := [], ag := [], l3 := [], svc := [], msgs := [], clock := 0, parked := [] }

theorem ev_of_standing {x y : UnitState} (h : standing x = standing y) : x.mem.coh.ev = y.mem.coh.ev := (congrArg CohState.ev h :)
theorem walks_of_standing {x y : UnitState} (h : standing x = standing y) : x.mem.coh.walks = y.mem.coh.walks :=
  (congrArg CohState.walks h :)
theorem lostLog_of_standing {x y : UnitState} (h : standing x = standing y) : x.mem.coh.lostLog = y.mem.coh.lostLog :=
  (congrArg CohState.lostLog h :)

/-- Work done item by item leaves what each item leaves. -/
theorem standing_foldl {A : Type} (f : UnitState → A → UnitState) (hf : ∀ y a, standing (f y a) = standing y) (l : List A)
    (x : UnitState) : standing (l.foldl f x) = standing x :=
  List.foldlRecOn (motive := fun y => standing y = standing x) l f rfl (fun y hy a _ => (hf y a).trans hy)

-- copies, entries and the L3
@[simp] theorem standing_setUnitCore (x : UnitState) (l : Nat) (c : Core) : standing (setUnitCore x l c) = standing x := rfl
@[simp] theorem standing_setAg (x : UnitState) (a l : Nat) (st : AgSt) : standing (setAg x a l st) = standing x := rfl
@[simp] theorem standing_setL3 (x : UnitState) (l : Nat) (st : L3St) : standing (setL3 x l st) = standing x := rfl
@[simp] theorem standing_mcAcceptRead (x : UnitState) (p l : Nat) : standing (mcAcceptRead x p l) = standing x := rfl
@[simp] theorem standing_mcAcceptWrite (x : UnitState) (p l : Nat) : standing (mcAcceptWrite x p l) = standing x := rfl
@[simp] theorem standing_setSvc (x : UnitState) (l : Nat) (v : Option Svc) : standing (setSvc x l v) = standing x := rfl
@[simp] theorem standing_sendMsg (x : UnitState) (m : CohMsg) : standing (sendMsg x m) = standing x := rfl
@[simp] theorem standing_park (x : UnitState) (f : CohState → List CohJob) :
    standing (modCoh x (fun c => { c with parked := f c })) = standing x := rfl
@[simp] theorem standing_ctxEffects (x : UnitState) (l : Nat) : standing (ctxEffects x l) = standing x := rfl

@[simp] theorem standing_setDir (x : UnitState) (l a : Nat) (e : DirEnt) : standing (setDir x l a e) = standing x := by
  simp only [setDir]
  split <;> rfl

@[simp] theorem standing_l3Fill (x : UnitState) (l : Nat) : standing (l3Fill x l) = standing x := by
  unfold l3Fill
  split
  · rfl
  · split <;> rfl

@[simp] theorem standing_l3Dirty (x : UnitState) (l : Nat) : standing (l3Dirty x l) = standing x := by
  unfold l3Dirty
  split <;> rfl

@[simp] theorem standing_l3Clean (x : UnitState) (l : Nat) : standing (l3Clean x l) = standing x := by
  unfold l3Clean
  split <;> rfl

@[simp] theorem standing_takeDirty (x : UnitState) (l : Nat) : standing (takeDirty x l) = standing x := by
  simp only [takeDirty]
  split <;> simp

@[simp] theorem standing_dropCopies (x : UnitState) (l : Nat) (ps : List Nat) : standing (dropCopies x l ps) = standing x :=
  standing_foldl _ (fun y p => standing_setAg y p l .i) ps x

@[simp] theorem standing_recallEntry (x : UnitState) (l a : Nat) : standing (recallEntry x l a) = standing x := by simp [recallEntry]

@[simp] theorem standing_wrlLine (x : UnitState) (a l : Nat) (bs : List Byte) : standing (wrlLine x a l bs) = standing x := by
  have hmark (y : UnitState) (n : Nat) (t : Tab (BitVec 8)) (bs : List Byte) :
      standing { putBytes y n bs with mem := { (putBytes y n bs).mem with mark := t } } = standing y := rfl
  simp only [wrlLine, standing_l3Dirty, hmark, standing_setDir, standing_dropCopies]

@[simp] theorem standing_flushHome (x : UnitState) (l a : Nat) : standing (flushHome x l a) = standing x := by simp [flushHome]

@[simp] theorem standing_dropHolder (x : UnitState) (l a : Nat) : standing (dropHolder x l a) = standing x := by
  simp only [dropHolder]
  split
  · simp
  · split <;> simp

-- transactions and the ways of a set
@[simp] theorem standing_releaseLines (x : UnitState) (p : Nat) (ls : List Nat) : standing (releaseLines x p ls) = standing x :=
  standing_foldl _ (fun y l => standing_setDir y l p _) ls x

@[simp] theorem standing_txAbort (x : UnitState) (l : Nat) (code : BitVec 8) : standing (txAbort x l code) = standing x := by
  unfold txAbort
  split <;> simp

@[simp] theorem standing_txResolve (x : UnitState) (l : Nat) (w : Bool) (c : Option Nat) (st : Option (Nat × Nat)) :
    standing (txResolve x l w c st).1 = standing x := by
  simp only [txResolve]
  split
  · rfl
  · split
    · rfl
    · split
      · exact standing_foldl _ (fun y (h : Nat × (Nat × Nat)) => standing_txAbort y h.1 1) _ x
      · rfl

@[simp] theorem standing_ensureWay (x : UnitState) (l a : Nat) : standing (ensureWay x l a).1 = standing x := by
  simp only [ensureWay]
  split
  · rfl
  · split
    · rfl
    · split
      · simp
      · split
        · rfl
        · split <;> simp

@[simp] theorem standing_takeWay (l a n : Nat) (x : UnitState) : standing (takeWay l a n x).1 = standing x := by
  induction n generalizing x with
  | zero => rfl
  | succ n ih =>
    have hway := standing_ensureWay x l a
    unfold takeWay
    split
    · next y hy => rwa [hy] at hway
    · next y hy =>
      rw [hy] at hway
      split
      · exact (ih y).trans hway
      · exact hway

-- a request at its home
@[simp] theorem standing_homeData (x : UnitState) (j : CohJob) (st : AgSt) : standing (homeData x j st) = standing x := by simp [homeData]
@[simp] theorem standing_sendFwd (x : UnitState) (k : MsgKind) (l a : Nat) : standing (sendFwd x k l a) = standing x := rfl
@[simp] theorem standing_sendDone (x : UnitState) (j : CohJob) (ok : Bool) : standing (sendDone x j ok) = standing x := rfl

@[simp] theorem standing_sendInv (x : UnitState) (l : Nat) (drop : Bool) (ps : List Nat) : standing (sendInv x l drop ps).1 = standing x :=
  standing_foldl _ (fun y p => standing_sendMsg y { kind := .inv, line := l, agent := p, flag := drop }) _ x

@[simp] theorem standing_setPin (x : UnitState) (q : CohReq) : standing (setPin x q) = standing x := by
  simp only [setPin]
  split
  · rfl
  · rw [standing_setDir]
    exact standing_foldl _ (fun y n => standing_setDir y n q.agent _) _ x

@[simp] theorem standing_losePin (x : UnitState) (j : CohJob) : standing (losePin x j) = standing x := by
  simp only [losePin]
  split
  · rfl
  · split <;> simp

@[simp] theorem standing_fbPut (x : UnitState) (off : Nat) (bs : List Byte) (poison : Bool) (k : FbCont) :
    standing (fbPut x off bs poison k) = standing x := by
  simp only [fbPut, fbAccept]
  split <;> rfl

@[simp] theorem standing_finishWrl (x : UnitState) (j : CohJob) : standing (finishWrl x j) = standing x := by simp [finishWrl]
@[simp] theorem standing_finishCln (x : UnitState) (j : CohJob) : standing (finishCln x j) = standing x := by simp [finishCln]
@[simp] theorem standing_finishFls (x : UnitState) (j : CohJob) : standing (finishFls x j) = standing x := by simp [finishFls]

/-- The unit that an offered request leaves. -/
def offered : Offer → UnitState
  | .park x => x
  | .ended x => x
  | .serve x _ => x

@[simp] theorem offered_park (x : UnitState) : offered (.park x) = x := rfl
@[simp] theorem offered_ended (x : UnitState) : offered (.ended x) = x := rfl
@[simp] theorem offered_serve (x : UnitState) (v : Svc) : offered (.serve x v) = x := rfl

@[simp] theorem standing_serveRds (x : UnitState) (j : CohJob) : standing (offered (serveRds x j)) = standing x := by
  simp only [serveRds]
  split
  · simp
  · split
    case h_1 | h_2 => split <;> simp
    all_goals simp

@[simp] theorem standing_serveRdx (x : UnitState) (j : CohJob) : standing (offered (serveRdx x j)) = standing x := by
  simp only [serveRdx]
  split
  case h_4 | h_5 => split <;> simp
  all_goals simp

@[simp] theorem standing_serveUpg (x : UnitState) (j : CohJob) : standing (offered (serveUpg x j)) = standing x := by
  simp only [serveUpg]
  split <;> simp

@[simp] theorem standing_serveRdo (x : UnitState) (j : CohJob) : standing (offered (serveRdo x j)) = standing x := by
  simp only [serveRdo]
  split <;> simp

@[simp] theorem standing_serveWrt (x : UnitState) (j : CohJob) : standing (offered (serveWrt x j)) = standing x := by simp [serveWrt]

@[simp] theorem standing_serveKind (x : UnitState) (j : CohJob) : standing (offered (serveKind x j)) = standing x := by
  unfold serveKind
  cases j.kind
  case stc =>
    simp only
    split
    · simp
    · split <;> simp
  case wrl | cln | fls =>
    simp only
    split <;> simp
  all_goals simp

@[simp] theorem standing_offerJob (bridge : Bool) (x : UnitState) (j : CohJob) : standing (offered (offerJob bridge x j)) = standing x := by
  have hresolved := standing_txResolve x j.req.line.toNat (jobWrites j.kind) (coreAt x j.req.agent) j.req.txStamp
  simp only [offerJob]
  split
  · rfl
  · split
    case h_1 hy => rwa [hy] at hresolved
    case h_2 y hy =>
      rw [hy] at hresolved
      split <;> simp [hresolved]
    case h_3 y hy =>
      rw [hy] at hresolved
      have hway := standing_takeWay j.req.line.toNat j.req.agent 56 y
      split
      · exact hresolved
      · split
        · simp [hresolved]
        · repeat' split
          all_goals simp [hway, hresolved]

@[simp] theorem standing_grantIfClear (x : UnitState) (l : Nat) : standing (grantIfClear x l) = standing x := by
  unfold grantIfClear
  split
  · rfl
  · split <;> simp

@[simp] theorem standing_serveList (bridge : Bool) (l : Nat) (js : List CohJob) (x : UnitState) :
    standing (serveList bridge l js x) = standing x := by
  induction js generalizing x with
  | nil => rfl
  | cons j js ih =>
    have hoffer := standing_offerJob bridge x j
    simp only [serveList]
    split
    all_goals next h => rw [h] at hoffer; simpa [ih] using hoffer

-- replies and evictions at the home
@[simp] theorem standing_takeEvict (x : UnitState) (l a : Nat) (dirty : Bool) : standing (takeEvict x l a dirty) = standing x := by
  simp only [takeEvict]
  split <;> simp

@[simp] theorem standing_lateEvict (x : UnitState) (l : Nat) (h : Nat × Bool) : standing (lateEvict x l h) = standing x := by
  unfold lateEvict
  split <;> simp

@[simp] theorem standing_lateEvicts (x : UnitState) (l : Nat) (hs : List (Nat × Bool)) :
    standing (hs.foldl (fun x h => lateEvict x l h) x) = standing x :=
  standing_foldl _ (fun y h => standing_lateEvict y l h) hs x

theorem standing_takeMsg {x y : UnitState} {f : CohMsg → Bool} {m : CohMsg} (h : takeMsg x f = some (m, y)) : standing y = standing x := by
  obtain ⟨n, -, hn⟩ := Option.map_eq_some_iff.1 h
  cases hn
  rfl

@[simp] theorem standing_keepGrant (x : UnitState) (l : Nat) (v : Svc) : standing (keepGrant x l v) = standing x := by
  simp only [keepGrant]
  split
  · rfl
  · split
    · rfl
    · rw [standing_setSvc]
      split
      · split
        · next hm => exact standing_takeMsg hm
        · rfl
      · rfl

@[simp] theorem standing_reserveIfGone (bridge : Bool) (x : UnitState) (l : Nat) : standing (reserveIfGone bridge x l) = standing x := by
  simp only [reserveIfGone]
  repeat' split
  all_goals simp

@[simp] theorem standing_replyArrives (bridge : Bool) (x : UnitState) (l a : Nat) : standing (replyArrives bridge x l a) = standing x := by
  simp only [replyArrives]
  split
  · rfl
  · repeat' split
    all_goals simp

/-- An eviction notice at the home leaves the sender's eviction entry, which stays until EACK (11 R334). -/
@[simp] theorem standing_evictArrives (bridge : Bool) (x : UnitState) (l a : Nat) (dirty : Bool) :
    standing (evictArrives bridge x l a dirty) = standing x := by
  unfold evictArrives
  split
  · simp
  · split <;> simp

end Sys2Proof.Proofs.Standing
end

section
/-! Coherence messages (O50): an eviction at its agent, a forward at the agent that holds a copy, replies, the end of a service, and the
ends of walks, sweeps and invalidations. -/
namespace Sys2Proof.Proofs.Messages

open Sys2Proof.Machine Sys2Proof.Claims Sys2Proof.Proofs.Standing

section
variable {s : State} {u : UnitId} {x : UnitState} {m : CohMsg} {a : Fin 80} {line : BitVec 46}

-- evictions
/-- An agent that evicts a line holds the eviction entry afterwards: nothing that the home does with the notice releases it. -/
theorem mem_ev_evictRow (s : State) (u : UnitId) (a n : Nat) (dirty : Bool) :
    (a, n) ∈ (getUnit (evictRow s u a n dirty) u).mem.coh.ev := by
  rw [evictRow, Laws.getUnit_modUnit, ev_of_standing (standing_evictArrives _ _ _ _ _)]
  exact List.mem_append_right _ (List.mem_singleton_self _)

theorem exec_evc_evicts (hruns : fabricRuns (getUnit s u) = true) (hmay : mayEvict (getUnit s u) a.val line.toNat = true)
    (hst : agOf (getUnit s u) a.val line.toNat = .s ∨ agOf (getUnit s u) a.val line.toNat = .w ∨
      agOf (getUnit s u) a.val line.toNat = .e) :
    exec (.evc u a line) s = .next (evictRow s u a.val line.toNat false) := by
  rw [Laws.exec_evc]
  rcases hst with hst | hst | hst
  all_goals simp [execEvc, hruns, hmay, hst]

theorem exec_evd_evicts (hruns : fabricRuns (getUnit s u) = true) (hmay : mayEvict (getUnit s u) a.val line.toNat = true)
    (hst : agOf (getUnit s u) a.val line.toNat = .d) : exec (.evd u a line false) s = .next (evictRow s u a.val line.toNat true) := by
  rw [Laws.exec_evd]
  simp [execEvd, hruns, hmay, hst]

/-- In write-through mode a dirty line goes home and its copy stays (11 R348). That EVW takes no eviction entry is log 23. -/
theorem exec_evw_writes (hruns : fabricRuns (getUnit s u) = true) (hwt : (getUnit s u).mem.coh.wt = true)
    (hlive : isDead (getUnit s u) a.val = false) (hst : agOf (getUnit s u) a.val line.toNat = .d) :
    exec (.evw u a line) s = .next (setUnit s u (l3Dirty (setAg (getUnit s u) a.val line.toNat .e) line.toNat)) := by
  rw [Laws.exec_evw]
  simp [execEvw, modUnit, hruns, hwt, hlive, hst]

-- forwards
/-- A forward is answered from the state of the copy (11 R334). -/
theorem forwardRow_answers {k : MsgKind} {n : Nat} (hm : inFlight s u k a.val n m x) (hans : answers x a.val n)
    (f : UnitState → CohMsg → AgSt → UnitState) : forwardRow s u k a.val n f = setUnit s u (f x m (agOf x a.val n)) := by
  obtain ⟨hlive, hidle⟩ := hans
  rw [inFlight] at hm
  simp [forwardRow, hm, hlive, hidle]

/-- A forward to a dead agent, or to one that evicts the line, is answered by GONE (11 R349, R350). -/
theorem forwardRow_gone {k : MsgKind} {n : Nat} (hm : inFlight s u k a.val n m x)
    (haway : isDead x a.val = true ∨ evicting x a.val n = true) (f : UnitState → CohMsg → AgSt → UnitState) :
    forwardRow s u k a.val n f = setUnit s u (replyGone x a.val n) := by
  rw [inFlight] at hm
  simp [forwardRow, hm, haway]

theorem exec_inv_answers {drop : Bool}
    (hm : takeMsg (getUnit s u) (fun m => isMsg .inv a.val line.toNat m && m.flag == drop) = some (m, x))
    (hans : answers x a.val line.toNat) : exec (.inv u a line drop) s = .next (setUnit s u (
      if agOf x a.val line.toNat = .d ∧ drop = false then setAg (dataHome x a.val line.toNat) a.val line.toNat .i
      else setAg (sendMsg x { kind := .ack, line := line.toNat, agent := a.val, home := true }) a.val line.toNat .i)) := by
  obtain ⟨hlive, hidle⟩ := hans
  simp only [Laws.exec_inv, execInv, hm, hlive, hidle]
  by_cases hdirty : agOf x a.val line.toNat = .d ∧ drop = false
  · simp [hdirty]
  · rw [if_neg hdirty]
    simp [hdirty]

-- replies to the requester
theorem exec_dat_requester {v : Svc} (hm : inFlight s u .dat a.val line.toNat m x) (hsvc : svcOf x line.toNat = some v)
    (hreq : v.job.req.agent.val = a.val) (hst : m.st ≠ .i) : exec (.dat u (some a) line) s =
      .next (setUnit s u (cmpIfDone (setSvc (writeThrough (setAg x a.val line.toNat m.st) a.val line.toNat) line.toNat
        (some { v with needData := false })) line.toNat)) := by
  rw [inFlight] at hm
  simp only [Laws.exec_dat, execDat, hm, dataArrives, hsvc, hreq, if_neg hst]

theorem exec_gnt_in_service {v : Svc} (hm : inFlight s u .gnt a.val line.toNat m x) (hsvc : svcOf x line.toNat = some v) :
    exec (.gnt u a line) s = .next (setUnit s u (cmpIfDone (setSvc
      (if v.job.kind = .upg ∧ (agOf x a.val line.toNat = .s ∨ agOf x a.val line.toNat = .w)
        then writeThrough (setAg x a.val line.toNat .d) a.val line.toNat else x)
      line.toNat (some { v with needGnt := false })) line.toNat)) := by
  rw [inFlight] at hm
  simp only [Laws.exec_gnt, execGnt, hm, hsvc]

-- the end of a service
/-- The service of an RDO, with nothing held or waiting, ends with its entry as it was (11 R341). That an entry takes its next state as
its service ends is log 67. -/
theorem endSvc_rdo {v : Svc} (hkind : v.job.kind = .rdo) (hwaiting : v.waiting = []) (hheld : v.heldEv = []) (bridge : Bool)
    (x : UnitState) (n : Nat) : endSvc bridge x n v =
      setSvc (touchEntry (enterTx (setDir x n v.job.req.agent.val (dirOf x n)) v.job) n) n none := by
  simp [endSvc, endEntry, hkind, hwaiting, hheld, serveList]

theorem exec_cmpResponse_ends {v : Svc} (hm : inFlight s u .cmp a.val line.toNat m x) (hsvc : svcOf x line.toNat = some v) :
    exec (.cmpResponse u a line) s = .next (setUnit s u (retryParked (bridgeOpen s) (endSvc (bridgeOpen s) x line.toNat v))) := by
  rw [inFlight] at hm
  simp only [Laws.exec_cmpResponse, execCmpResponse, hm, hsvc]

theorem endEntry_rds {e : DirEnt} {j : CohJob} (hkind : j.kind = .rds) (hpin : j.req.pin = false) :
    (e.st = .shared → endEntry e j =
      { e with st := .witnessed, holders := e.holders ||| posBit j.req.agent.val, own := j.req.agent.val }) ∧
    (e.st = .witnessed → endEntry e j = { e with holders := e.holders ||| posBit j.req.agent.val }) ∧
    (e.st = .owned → e.own ≠ j.req.agent.val →
      endEntry e j = { e with st := .witnessed, holders := e.holders ||| posBit j.req.agent.val }) := by
  refine ⟨fun hst => ?_, fun hst => ?_, fun hst hown => ?_⟩
  · simp [endEntry, hkind, hpin, hst]
  · simp [endEntry, hkind, hpin, hst]
  · simp [endEntry, hkind, hpin, hst, hown]

theorem endEntry_owner {e : DirEnt} {j : CohJob} (hkind : j.kind = .rdx ∨ j.kind = .upg ∨ j.kind = .stc) :
    endEntry e j = { e with st := .owned, holders := posBit j.req.agent.val, own := j.req.agent.val } := by
  rcases hkind with hkind | hkind | hkind
  all_goals simp [endEntry, hkind]

-- reservations, refusals and walks
theorem exec_rsvl_core {e : Fin 16} {l : Nat}
    (hm : takeMsg (getUnit s u) (fun m => isMsg .rsvl a.val line.toNat m && m.engine == e.val) = some (m, x))
    (hcore : coreAt x a.val = some l) (hrsv : (unitCore x l).rsvGranule.toNat = line.toNat) :
    exec (.rsvl u a e line) s = .next (setUnit s u (setUnitCore x l { unitCore x l with rsvValid := false })) := by
  simp only [Laws.exec_rsvl, execRsvl, hm, hcore, modUnitCore, if_pos hrsv]

theorem standing_walkEntry (a : Nat) (y : UnitState) (n : Nat) : standing (walkEntry a y n) = standing y := by
  simp only [walkEntry, standing_setDir]
  split <;> simp

/-- A walk that ends with no line owned by its position loses none (11 R350). -/
theorem exec_directoryWalkEnd_ends (hwalk : (getUnit s u).mem.coh.walks.contains a.val = true)
    (hown : ∀ e ∈ (getUnit s u).mem.coh.dir, ¬ (e.2.st = .owned ∧ e.2.own = a.val)) :
    ∃ t, exec (.directoryWalkEnd u a) s = .next t ∧ (getUnit t u).mem.coh.walks = (getUnit s u).mem.coh.walks.erase a.val ∧
      (getUnit t u).mem.coh.lostLog = (getUnit s u).mem.coh.lostLog := by
  have hlost : (getUnit s u).mem.coh.dir.filter (fun e => decide (e.2.st = .owned) && e.2.own == a.val) = [] :=
    List.filter_eq_nil_iff.2 fun e he => by simpa using hown e he
  have hstanding : standing (((getUnit s u).mem.coh.dir.map (fun e => e.1)).foldl (walkEntry a.val) (getUnit s u)) =
      standing (getUnit s u) := standing_foldl _ (standing_walkEntry a.val) _ _
  refine ⟨_, by simp only [Laws.exec_directoryWalkEnd, execDirectoryWalkEnd, hwalk, hlost]; rfl, ?walks, ?log⟩
  case walks =>
    rw [← walks_of_standing hstanding]
    simp [modCoh]
  case log =>
    rw [← lostLog_of_standing hstanding]
    simp [modCoh]

end

/-- Settles O50: a forward by `forwardRow_answers` and `forwardRow_gone`, a reply to a requester by what the service of its line keeps,
the end of a service by `endSvc_rdo`, the end of a walk by `exec_directoryWalkEnd_ends`. -/
theorem coherenceMessages : Obligations.CoherenceMessages := by
  unfold Obligations.CoherenceMessages
  dsimp only
  refine ⟨?evict, ?evw, ?fws, ?fwx, ?fwo, ?inv, ?clnf, ?away, ?dat, ?datHome, ?ack, ?gone, ?gnt, ?cmp, ?entry, ?eack, ?done, ?rsvl, ?err,
    ?walk, ?sweep, ?invalidation, ?noEack⟩
  case evict =>
    exact fun s u a line hruns hmay => ⟨fun hst => ⟨exec_evc_evicts hruns hmay hst, mem_ev_evictRow _ _ _ _ _⟩,
      fun hst _ => exec_evd_evicts hruns hmay hst⟩
  case evw => exact fun s u a line => exec_evw_writes
  case fws =>
    intro s u a line m x hm hans
    simp only [Laws.exec_fws, execFws, forwardRow_answers hm hans]
    refine ⟨fun hst => ?_, fun hst => ?_, fun hst => ?_, fun hst => ?_⟩
    all_goals rw [hst]
  case fwx =>
    intro s u a line m x hm hans
    simp only [Laws.exec_fwx, execFwx, forwardRow_answers hm hans]
    refine ⟨fun hst => ?_, fun hst => ?_, fun hst => ?_⟩
    · rcases hst with hst | hst
      all_goals rw [hst]
    all_goals rw [hst]
  case fwo =>
    intro s u a line m x hm hans
    simp only [Laws.exec_fwo, execFwo, forwardRow_answers hm hans]
    refine ⟨fun hst => ?_, fun hst => ?_⟩
    · rcases hst with hst | hst | hst
      all_goals rw [hst]
    · rw [hst]
  case inv =>
    intro s u a line drop m x hm hans
    rw [exec_inv_answers hm hans]
    refine ⟨fun hst hdrop => by rw [if_pos ⟨hst, hdrop⟩], fun hkeep => ?_⟩
    rw [if_neg]
    rintro ⟨hst, hdrop⟩
    rcases hkeep with hclean | htrue
    · exact hclean hst
    · rw [hdrop] at htrue
      cases htrue
  case clnf =>
    intro s u a line m x hm hans
    simp only [Laws.exec_clnf, execClnf, forwardRow_answers hm hans]
    refine ⟨fun hst => ?_, fun hst => ?_⟩
    all_goals rw [hst]
  case away =>
    intro s u a line m x hm haway
    simp only [Laws.exec_fws, execFws, forwardRow_gone hm haway]
  case dat => exact fun s u a line m x v => exec_dat_requester
  case datHome =>
    intro s u line m x hm
    simp only [Laws.exec_dat, execDat, hm]
  case ack =>
    intro s u a line m x hm
    simp only [Laws.exec_ack, execAck, hm]
  case gone =>
    intro s u a line m x hm
    rw [inFlight] at hm
    simp only [Laws.exec_gone, execGone, hm]
  case gnt =>
    intro s u a line m x v hm hsvc
    rw [exec_gnt_in_service hm hsvc]
    exact ⟨fun hkind hst => by rw [if_pos ⟨hkind, hst⟩], fun hkind => by rw [if_neg fun h => hkind h.1]⟩
  case cmp =>
    intro s u a line m x v hm hsvc hwaiting hheld _ hkind
    rw [exec_cmpResponse_ends hm hsvc, endSvc_rdo hkind hwaiting hheld]
  case entry => exact fun e j => ⟨endEntry_owner, endEntry_rds⟩
  case eack =>
    intro s u a line m x hm
    rw [inFlight] at hm
    simp only [Laws.exec_eack, execEack, hm]
  case done =>
    intro s u a line m x hm
    rw [inFlight] at hm
    simp only [Laws.exec_done, execDone, hm]
  case rsvl => exact fun s u a e line m x l => exec_rsvl_core
  case err =>
    intro s u a line m x hm
    rw [inFlight] at hm
    simp [execErr, hm]
  case walk => exact fun s u a => exec_directoryWalkEnd_ends
  case sweep =>
    intro s u hsweep
    refine ⟨_, by rw [Laws.exec_wtSweepEnd, execWtSweepEnd, if_pos hsweep], ?_⟩
    rw [Laws.getUnit_modUnit]
    rfl
  case invalidation =>
    intro s u
    refine ⟨_, Laws.exec_invalidationEnd u s, ?_, rfl⟩
    rw [Laws.getUnit_modUnit]
    rfl
  case noEack =>
    intro s u a line hm
    simp only [Laws.exec_eack, execEack, hm]

end Sys2Proof.Proofs.Messages
end

section
/-! Coherence requests at their homes (O49): what becomes of a request of an idle line, then the service that each kind of request begins. -/
namespace Sys2Proof.Proofs.Requests

open Sys2Proof.Machine Sys2Proof.Claims

section
variable {s : State} {u : UnitId} {x : UnitState} {j : CohJob}

/-- With nothing parked, a parked request offered again changes nothing. -/
theorem retryParked_empty (h : x.mem.coh.parked = []) (bridge : Bool) : retryParked bridge x = x := by
  have hsame : modCoh x (fun c => { c with parked := [] }) = x := by
    rw [modCoh, ← h]
  rw [retryParked, h, List.foldl_nil, hsame]

/-- The request asks to own a line of the fieldbook, which no agent may (11 R342). -/
def ownsBook (j : CohJob) : Bool := fbLine j.req.line.toNat && (j.kind == .rdx || j.kind == .upg)

theorem ownsBook_dram (h : fbLine j.req.line.toNat = false) : ownsBook j = false := by rw [ownsBook, h, Bool.false_and]

theorem ownsBook_other (h : (j.kind == .rdx || j.kind == .upg) = false) : ownsBook j = false := by rw [ownsBook, h, Bool.and_false]

/-- A request of an idle line is offered to its home alone. -/
theorem requestRow_idle (hfree : requestFree s u j.req) (hbook : ownsBook j = false) :
    requestRow s u j = setUnit s u (serveList (bridgeOpen s) j.req.line.toNat [j] (getUnit s u)) := by
  obtain ⟨hruns, hknown, hlive, hidle, hroom, hparked, hsvc⟩ := hfree
  rw [ownsBook] at hbook
  simp [requestRow, hruns, hknown, hlive, hidle, hroom, hbook, modUnit, retryParked_empty hparked, arriveJob, hsvc]

/-- A request of a line in service waits behind it (11 R340). -/
theorem requestRow_waits {v : Svc} (hruns : fabricRuns (getUnit s u) = true) (hknown : j.req.agent.val < 74)
    (hans : answers (getUnit s u) j.req.agent.val j.req.line.toNat) (hroom : trackerFull (getUnit s u) j.req.line.toNat = false)
    (hparked : (getUnit s u).mem.coh.parked = []) (hsvc : svcOf (getUnit s u) j.req.line.toNat = some v)
    (hbook : ownsBook j = false) :
    requestRow s u j = setUnit s u (setSvc (getUnit s u) j.req.line.toNat (some { v with waiting := v.waiting ++ [j] })) := by
  obtain ⟨hlive, hidle⟩ := hans
  rw [ownsBook] at hbook
  simp [requestRow, hruns, hknown, hlive, hidle, hroom, hbook, modUnit, retryParked_empty hparked, arriveJob, hsvc]

theorem serveList_serves {bridge : Bool} {n : Nat} {y : UnitState} {v : Svc} (h : offerJob bridge x j = .serve y v) (hv : v.waiting = []) :
    serveList bridge n [j] x = grantIfClear (setSvc y n (some v)) n := by
  simp only [serveList, h, ← hv]

theorem serveList_ends {bridge : Bool} {n : Nat} {y : UnitState} (h : offerJob bridge x j = .ended y) :
    serveList bridge n [j] x = setSvc y n none := by
  simp only [serveList, h]

theorem takeWay_present {n a : Nat} (h : ensureWay x n a = (x, true)) (tries : Nat) : takeWay n a (tries + 1) x = (x, true) := by
  simp only [takeWay, h]

theorem ownGone_self (x : UnitState) (a : Fin 80) : ownGone x x a = false := by
  unfold ownGone
  split
  · next l _ => cases (unitCore x l).txn <;> rfl
  · rfl

/-- A home with nothing against a request serves it by its kind (11 R339, R341). -/
theorem offerJob_clear (h : homeClear s x j) : offerJob (bridgeOpen s) x j = serveKind x j := by
  obtain ⟨htag, htx, hpin, hway⟩ := h
  have hgo : txResolve x j.req.line.toNat (jobWrites j.kind) (coreAt x j.req.agent) j.req.txStamp = (x, .go) := by
    simp [txResolve, htx]
  simp [offerJob, htag, hgo, hpin, takeWay_present hway, ownGone_self]

/-- A request with a wrong tag ends with ERR (11 R339, 15 R454). -/
theorem offerJob_badTag (h : tagOk x (bridgeOpen s) j = false) : offerJob (bridgeOpen s) x j =
    .ended (sendMsg x { kind := .err, line := j.req.line.toNat, agent := j.req.agent, flag := jobWrites j.kind }) := by
  simp [offerJob, h]

-- an idle line and a clear home
variable (hfree : requestFree s u j.req) (hclear : homeClear s (getUnit s u) j) (hbook : ownsBook j = false)
include hfree hclear hbook

theorem requestRow_serves {y : UnitState} {v : Svc} (h : serveKind (getUnit s u) j = .serve y v) (hv : v.waiting = []) :
    requestRow s u j = inServiceNow s u j.req.line.toNat y v := by
  rw [requestRow_idle hfree hbook, serveList_serves ((offerJob_clear hclear).trans h) hv, inServiceNow]

theorem requestRow_ends {y : UnitState} (h : serveKind (getUnit s u) j = .ended y) :
    requestRow s u j = setUnit s u (setSvc y j.req.line.toNat none) := by
  rw [requestRow_idle hfree hbook, serveList_ends ((offerJob_clear hclear).trans h)]

end

-- what each kind of request begins
section
variable {x : UnitState} {j : CohJob}

theorem setPin_without {q : CohReq} (h : q.pin = false) (x : UnitState) : setPin x q = x := by simp [setPin, h]

theorem serveRds_free (hpin : j.req.pin = false) (hst : (dirOf x j.req.line.toNat).st = .free) : serveRds x j =
    .serve (homeData x j (if fbLine j.req.line.toNat then .w else .e)) { job := j, needData := true } := by
  simp [serveRds, setPin_without hpin, hpin, hst]

theorem serveRds_shared (hpin : j.req.pin = false) (hst : (dirOf x j.req.line.toNat).st = .shared) : serveRds x j =
    .serve (homeData x j .w) { job := j, needData := true } := by
  simp [serveRds, setPin_without hpin, hpin, hst]

/-- A line that another living agent answers for is asked of it (11 R341). -/
theorem serveRds_forward (hpin : j.req.pin = false)
    (hst : (dirOf x j.req.line.toNat).st = .witnessed ∨ (dirOf x j.req.line.toNat).st = .owned)
    (hother : (dirOf x j.req.line.toNat).own ≠ j.req.agent.val) (hlive : isDead x (dirOf x j.req.line.toNat).own = false) :
    serveRds x j = .serve (sendFwd x .fws j.req.line.toNat (dirOf x j.req.line.toNat).own)
      { job := j, fwd := some (dirOf x j.req.line.toNat).own, needData := true } := by
  rcases hst with hst | hst
  all_goals simp [serveRds, setPin_without hpin, hpin, hst, hother, hlive]

theorem serveRdx_free (hst : (dirOf x j.req.line.toNat).st = .free) : serveRdx x j =
    .serve (homeData x j .e) { job := j, needData := true } := by
  simp [serveRdx, hst]

theorem serveRdx_shared (hst : (dirOf x j.req.line.toNat).st = .shared) : serveRdx x j =
    .serve (homeData (sendInv x j.req.line.toNat false
        ((holderList (dirOf x j.req.line.toNat)).filter (fun p => p ≠ j.req.agent.val))).1 j .e)
      { job := j, owed := (sendInv x j.req.line.toNat false
          ((holderList (dirOf x j.req.line.toNat)).filter (fun p => p ≠ j.req.agent.val))).2, needData := true, needGnt := true } := by
  simp [serveRdx, hst]

theorem serveRdx_owner (hst : (dirOf x j.req.line.toNat).st = .owned) (hown : (dirOf x j.req.line.toNat).own = j.req.agent.val) :
    serveRdx x j = .serve (homeData x j .e) { job := j, needData := true } := by
  simp [serveRdx, hst, hown]

theorem serveRdx_forward (hst : (dirOf x j.req.line.toNat).st = .owned) (hother : (dirOf x j.req.line.toNat).own ≠ j.req.agent.val)
    (hlive : isDead x (dirOf x j.req.line.toNat).own = false) :
    serveRdx x j = .serve (sendFwd x .fwx j.req.line.toNat (dirOf x j.req.line.toNat).own)
      { job := j, fwd := some (dirOf x j.req.line.toNat).own, needData := true } := by
  simp [serveRdx, hst, hother, hlive]

theorem serveUpg_holder (hst : (dirOf x j.req.line.toNat).st = .shared ∨ (dirOf x j.req.line.toNat).st = .witnessed)
    (hholds : (dirOf x j.req.line.toNat).holders.getLsbD j.req.agent.val = true) : serveUpg x j =
    .serve (sendInv x j.req.line.toNat false
        ((holderList (dirOf x j.req.line.toNat)).filter (fun p => p ≠ j.req.agent.val))).1
      { job := j, owed := (sendInv x j.req.line.toNat false
          ((holderList (dirOf x j.req.line.toNat)).filter (fun p => p ≠ j.req.agent.val))).2, needGnt := true } := by
  simp [serveUpg, hst, hholds]

theorem serveRdo_forward (hst : (dirOf x j.req.line.toNat).st = .witnessed ∨ (dirOf x j.req.line.toNat).st = .owned)
    (hlive : isDead x (dirOf x j.req.line.toNat).own = false) : serveRdo x j =
    .serve (sendFwd x .fwo j.req.line.toNat (dirOf x j.req.line.toNat).own)
      { job := j, fwd := some (dirOf x j.req.line.toNat).own, needData := true } := by
  simp [serveRdo, hst, hlive]

theorem serveRdo_home (hst : (dirOf x j.req.line.toNat).st = .free ∨ (dirOf x j.req.line.toNat).st = .shared) : serveRdo x j =
    .serve (homeData x j .i) { job := j, needData := true } := by
  rcases hst with hst | hst
  all_goals simp [serveRdo, hst]

/-- A STC whose pin is gone fails (11 R341, R344). -/
theorem serveKind_stc_unpinned (hkind : j.kind = .stc) (hpin : (dirOf x j.req.line.toNat).pin ≠ some (pinSelf j.req)) :
    serveKind x j = .ended (sendDone x j false) := by
  simp [serveKind, hkind, hpin]

theorem serveKind_stc_pinned (hkind : j.kind = .stc) (hfb : fbLine j.req.line.toNat = false)
    (hpin : (dirOf x j.req.line.toNat).pin = some (pinSelf j.req)) : serveKind x j = serveRdx x j := by
  simp [serveKind, hkind, hfb, hpin]

theorem serveKind_wrl (hkind : j.kind = .wrl) : serveKind x j =
    if (sendInv x j.req.line.toNat true (holderList (dirOf x j.req.line.toNat))).2 = [] then
      .ended (finishWrl (sendInv x j.req.line.toNat true (holderList (dirOf x j.req.line.toNat))).1 j)
    else .serve (sendInv x j.req.line.toNat true (holderList (dirOf x j.req.line.toNat))).1
      { job := j, owed := (sendInv x j.req.line.toNat true (holderList (dirOf x j.req.line.toNat))).2 } := by
  simp only [serveKind, hkind]

theorem serveKind_fls (hkind : j.kind = .fls) : serveKind x j =
    if (sendInv x j.req.line.toNat false (holderList (dirOf x j.req.line.toNat))).2 = [] then
      .ended (finishFls (sendInv x j.req.line.toNat false (holderList (dirOf x j.req.line.toNat))).1 j)
    else .serve (sendInv x j.req.line.toNat false (holderList (dirOf x j.req.line.toNat))).1
      { job := j, owed := (sendInv x j.req.line.toNat false (holderList (dirOf x j.req.line.toNat))).2 } := by
  simp only [serveKind, hkind]

theorem serveKind_cln_owned (hkind : j.kind = .cln) (hst : (dirOf x j.req.line.toNat).st = .owned)
    (hlive : isDead x (dirOf x j.req.line.toNat).own = false) : serveKind x j =
    .serve (sendFwd x .clnf j.req.line.toNat (dirOf x j.req.line.toNat).own)
      { job := j, fwd := some (dirOf x j.req.line.toNat).own, owed := [(dirOf x j.req.line.toNat).own] } := by
  simp [serveKind, hkind, hst, hlive]

theorem serveKind_cln_unowned (hkind : j.kind = .cln) (hst : (dirOf x j.req.line.toNat).st ≠ .owned) :
    serveKind x j = .ended (finishCln x j) := by
  simp [serveKind, hkind, hst]

end

/-- Settles O49: each request by `requestRow_serves` or `requestRow_ends` and what its kind begins, a wrong tag by `offerJob_badTag`, a
line in service by `requestRow_waits`. That the directory stands until CMP is log 67. -/
theorem coherenceRequests : Obligations.CoherenceRequests := by
  unfold Obligations.CoherenceRequests
  dsimp only
  refine ⟨?rds, ?rdx, ?upg, ?rdo, ?wrl, ?wrt, ?stc, ?cln, ?fls, ?badTag, ?waits⟩
  case rds =>
    intro s u q hfree hclear hpin
    simp only [Laws.exec_rds, execRds, Host.Outcome.next.injEq]
    have hrow {y v} := requestRow_serves (y := y) (v := v) hfree hclear (ownsBook_other rfl)
    exact ⟨fun hst => hrow (serveRds_free hpin hst) rfl, fun hst => hrow (serveRds_shared hpin hst) rfl,
      fun hst hother hlive => hrow (serveRds_forward hpin hst hother hlive) rfl⟩
  case rdx =>
    intro s u q hfree hclear hfb
    simp only [Laws.exec_rdx, execRdx, Host.Outcome.next.injEq]
    have hrow {y v} := requestRow_serves (y := y) (v := v) hfree hclear (ownsBook_dram hfb)
    exact ⟨fun hst => hrow (serveRdx_free hst) rfl, fun hst => hrow (serveRdx_shared hst) rfl,
      fun hst hother hlive => hrow (serveRdx_forward hst hother hlive) rfl⟩
  case upg =>
    intro s u q hfree hclear hfb hst hholds
    simp only [Laws.exec_upg, execUpg, Host.Outcome.next.injEq]
    exact requestRow_serves hfree hclear (ownsBook_dram hfb) (serveUpg_holder hst hholds) rfl
  case rdo =>
    intro s u q hfree hclear
    simp only [Laws.exec_rdo, execRdo, Host.Outcome.next.injEq]
    have hrow {y v} := requestRow_serves (y := y) (v := v) hfree hclear (ownsBook_other rfl)
    exact ⟨fun hst hlive => hrow (serveRdo_forward hst hlive) rfl, fun hst => hrow (serveRdo_home hst) rfl⟩
  case wrl =>
    intro s u q data hfree hclear hfb hdata
    simp only [Laws.exec_wrl, execWrl, Host.Outcome.next.injEq, hdata, hfb, decide_true, Bool.not_false, Bool.and_self, if_true]
    exact ⟨fun hnone => requestRow_ends hfree hclear (ownsBook_dram hfb) ((serveKind_wrl rfl).trans (if_pos hnone)),
      fun hsome => requestRow_serves hfree hclear (ownsBook_dram hfb) ((serveKind_wrl rfl).trans (if_neg hsome)) rfl⟩
  case wrt =>
    intro s u q off data hfree hclear hfb hdata y v hserve
    have hv := (Offer.serve.inj hserve).2
    simp only [Laws.exec_wrt, execWrt, Host.Outcome.next.injEq, hdata, hfb, decide_true, Bool.and_self, if_true]
    exact ⟨requestRow_serves hfree hclear (ownsBook_other rfl) hserve (by rw [← hv]), by rw [← hv]⟩
  case stc =>
    intro s u q off data hfree hclear
    simp only [Laws.exec_stc, execStc, Host.Outcome.next.injEq]
    exact ⟨fun hpin => requestRow_ends hfree hclear (ownsBook_other rfl) (serveKind_stc_unpinned rfl hpin),
      fun hfb hpin hst hown => requestRow_serves hfree hclear (ownsBook_dram hfb)
        ((serveKind_stc_pinned rfl hfb hpin).trans (serveRdx_owner hst hown)) rfl⟩
  case cln =>
    intro s u q hfree hclear
    simp only [Laws.exec_cln, execCln, Host.Outcome.next.injEq]
    exact ⟨fun hst => requestRow_ends hfree hclear (ownsBook_other rfl) (serveKind_cln_unowned rfl hst),
      fun hst hlive => requestRow_serves hfree hclear (ownsBook_other rfl) (serveKind_cln_owned rfl hst hlive) rfl⟩
  case fls =>
    intro s u q hfree hclear
    simp only [Laws.exec_fls, execFls, Host.Outcome.next.injEq]
    exact ⟨fun hnone => requestRow_ends hfree hclear (ownsBook_other rfl) ((serveKind_fls rfl).trans (if_pos hnone)),
      fun hsome => requestRow_serves hfree hclear (ownsBook_other rfl) ((serveKind_fls rfl).trans (if_neg hsome)) rfl⟩
  case badTag =>
    intro s u q hfree htag
    simp only [Laws.exec_rds, execRds, Host.Outcome.next.injEq]
    rw [requestRow_idle hfree (ownsBook_other rfl), serveList_ends (offerJob_badTag htag)]
    rfl
  case waits =>
    intro s u q v hruns hknown hans hroom hparked hsvc
    simp only [Laws.exec_rds, execRds, Host.Outcome.next.injEq]
    exact requestRow_waits hruns hknown hans hroom hparked hsvc (ownsBook_other rfl)

end Sys2Proof.Proofs.Requests
end

section
/-! CLEAN and FLUSH by a logical core (O26): what each does to the home's copy of the line, and what both leave of memory and of the cores. -/
namespace Sys2Proof.Proofs.LineOps

open Sys2Proof.Machine Sys2Proof.Safety Sys2Proof.Claims Sys2Proof.Proofs.MemoryForms Sys2Proof.Proofs.Home

-- the home's copy
theorem l3Of_setL3 (x : UnitState) (line : Nat) (st : L3St) : l3Of (setL3 x line st) line = st := Laws.tabGet_tabSet_same _ _ _ _

theorem l3Of_l3Clean_ne_dirty (x : UnitState) (line : Nat) : l3Of (l3Clean x line) line ≠ .dirty := by
  unfold l3Clean
  split
  · rw [l3Of_setL3]
    decide
  · assumption

theorem l3Of_performClean_ne_dirty (x : UnitState) (line : Nat) : l3Of (performClean x line) line ≠ .dirty :=
  l3Of_l3Clean_ne_dirty _ _

theorem l3Of_performFlush (x : UnitState) (agent line : Nat) : l3Of (performFlush x agent line) line = .absent := l3Of_setL3 _ _ _

-- memory and the cores
@[simp] theorem l3Clean_data (x : UnitState) (line : Nat) : (l3Clean x line).mem.data = x.mem.data := by
  unfold l3Clean
  split <;> simp

@[simp] theorem l3Clean_cores (x : UnitState) (line : Nat) : (l3Clean x line).exe.cores = x.exe.cores := by
  unfold l3Clean
  split <;> simp

theorem performClean_data (x : UnitState) (line : Nat) : (performClean x line).mem.data = x.mem.data := by
  simp only [performClean, l3Clean_data]
  split <;> simp

theorem performClean_cores (x : UnitState) (line : Nat) : (performClean x line).exe.cores = x.exe.cores := by
  simp only [performClean, l3Clean_cores]
  split <;> simp

theorem performFlush_data (x : UnitState) (agent line : Nat) : (performFlush x agent line).mem.data = x.mem.data := by
  simp [performFlush]

theorem performFlush_cores (x : UnitState) (agent line : Nat) : (performFlush x agent line).exe.cores = x.exe.cores := by
  simp [performFlush]

-- the instructions
/-- The unit after a CLEAN or FLUSH of a line of DRAM by a logical core (11 R341). -/
def lineDone (flush : Bool) (x : UnitState) (l : CoreId) (line : Nat) : UnitState :=
  if flush then performFlush x (corePos x l) line else performClean x line

theorem lineDone_data (flush : Bool) (x : UnitState) (l : CoreId) (line : Nat) : (lineDone flush x l line).mem.data = x.mem.data := by
  cases flush
  · exact performClean_data x line
  · exact performFlush_data x _ line

theorem lineDone_cores (flush : Bool) (x : UnitState) (l : CoreId) (line : Nat) : (lineDone flush x l line).exe.cores = x.exe.cores := by
  cases flush
  · exact performClean_cores x line
  · exact performFlush_cores x _ line

section
variable {s s1 s2 : State} {u : UnitId} {l : CoreId} {mpa : Nat}

/-- A core with no buffered store to a line free of transactions and service works on it at once (11 R339). -/
theorem lineOp_core {va : Word} (haddr : dataAddr s (.core u l) va (bytes 1) = .at mpa s2) (hfb : isFbAddr mpa = false)
    (hsb : (unitCore (getUnit s2 u) l).sb.any (fun e => e.addr / 64 == mpa / 64) = false)
    (hgo : (txResolve (getUnit s2 u) (mpa / 64) false (some l.val) none).2 = .go) (hsvc : inService (getUnit s2 u) (mpa / 64) = false)
    (flush : Bool) : lineOp flush (.core u l) va s = .done (setUnit s2 u (lineDone flush (getUnit s2 u) l (mpa / 64))) [] 1 := by
  have hplain : dataAddr s (.core u l) va (plain 1) = .at mpa s2 := haddr
  generalize hresolve : txResolve (getUnit s2 u) (mpa / 64) false (some l.val) none = r at hgo
  obtain ⟨y, res⟩ := r
  subst hgo
  simp only [lineOp, hplain, hsb, hresolve, hsvc, hfb, lineDone, Bool.false_eq_true, if_false]

/-- A CLEAN or FLUSH retires with no byte of memory and no other register of its core changed. -/
theorem lineOp_retires {c : Instr} {ucc : Nat} {r : Reg} {imm : BitVec 12} {flush : Bool}
    (hexec : exec c s = runInstr s ⟨.core u l, ucc⟩ { len := 2, txBad := true }
      (fun s => lineOp flush (.core u l) (lineOpAddr s (.core u l) r imm) s))
    (hready : Ready s ⟨.core u l, ucc⟩ { len := 2, txBad := true } s1)
    (haddr : dataAddr (inBody s1 ⟨.core u l, ucc⟩ 2) (.core u l) (rdA (getCore s1 (.core u l)) r + imm.signExtend 64) (bytes 1) =
      .at mpa s2) (hfb : isFbAddr mpa = false)
    (hsb : (unitCore (getUnit s2 u) l).sb.any (fun e => e.addr / 64 == mpa / 64) = false)
    (hgo : (txResolve (getUnit s2 u) (mpa / 64) false (some l.val) none).2 = .go) (hsvc : inService (getUnit s2 u) (mpa / 64) = false) :
    ∃ t, exec c s = .next t ∧ (∀ n, byteAt t u n = byteAt s u n) ∧
      l3Of (getUnit t u) (mpa / 64) = l3Of (lineDone flush (getUnit s2 u) l (mpa / 64)) (mpa / 64) ∧
      getCore t (.core u l) = counted (.core u l) 1 (getCore s2 (.core u l)) := by
  have hva : lineOpAddr (inBody s1 ⟨.core u l, ucc⟩ 2) (.core u l) r imm = rdA (getCore s1 (.core u l)) r + imm.signExtend 64 :=
    congrArg (· + imm.signExtend 64) (Strings.rdA_inBody s1 ⟨.core u l, ucc⟩ 2 r)
  obtain ⟨t, hnext, hregs, helse⟩ := retires_of_done hready hexec
    ((congrArg (fun va => lineOp flush (.core u l) va (inBody s1 ⟨.core u l, ucc⟩ 2)) hva).trans
      (lineOp_core haddr hfb hsb hgo hsvc flush))
  have hmem := mem_of_elsewhere helse u
  rw [Laws.getUnit_setUnit] at hmem
  refine ⟨t, hnext, fun n => ?bytes, ?copy, ?registers⟩
  case bytes =>
    rw [byteAt, hmem, lineDone_data]
    exact (Reservations.byteAt_of_dataAddr haddr n).trans (byteAt_of_elsewhere (elsewhere_inBody hready 2) u n)
  case copy => rw [l3Of, hmem, l3Of]
  case registers =>
    rw [hregs, getCore, Laws.getUnit_setUnit, unitCore_congr (lineDone_cores _ _ _ _), getCore]

end

/-- Settles O26: both instructions by `lineOp_retires`, the home's copy by what `performClean` and `performFlush` leave of it. -/
theorem cleanAndFlushALine : Obligations.CleanAndFlushALine := by
  unfold Obligations.CleanAndFlushALine
  intro s s1 u l ucc r imm mpa s2 hready haddr hfb hsb hgo hsvc
  constructor
  · obtain ⟨t, hnext, hbytes, hcopy, hcore⟩ := lineOp_retires (Laws.exec_clean _ r imm s) hready haddr hfb hsb hgo hsvc
    exact ⟨t, hnext, hbytes, by rw [hcopy]; exact l3Of_performClean_ne_dirty _ _, hcore⟩
  · obtain ⟨t, hnext, hbytes, hcopy, hcore⟩ := lineOp_retires (Laws.exec_flush _ r imm s) hready haddr hfb hsb hgo hsvc
    exact ⟨t, hnext, hbytes, hcopy.trans (l3Of_performFlush _ _ _), hcore⟩

end Sys2Proof.Proofs.LineOps
end

section
/-! One step of the machine (O58): the queue of commands is empty or has a front. -/
namespace Sys2Proof.Proofs.Steps

open Sys2Proof.Machine

/-- Settles O58: the two branches of `step`, by the queue. -/
theorem aStepExecutesTheFrontCommand : Obligations.AStepExecutesTheFrontCommand := by
  unfold Obligations.AStepExecutesTheFrontCommand
  constructor
  · intro c rest s hfront
    rw [step, hfront]
  · intro s hempty
    rw [step, hempty]

end Sys2Proof.Proofs.Steps
end

section
/-! LCODE of a logical core (O27): the code word stands in the store buffer. -/
namespace Sys2Proof.Proofs.CodeStores

open Sys2Proof.Machine Sys2Proof.Safety Sys2Proof.Claims Sys2Proof.Proofs.MemoryForms Sys2Proof.Proofs.StoreBuffer

/-- The body of LCODE is the store of the code word, where the page of its slot is a code page that the core may load. -/
theorem lcodeBody_sbPut {s : State} {u : UnitId} {l : CoreId} {a t : Reg} {ppa frame : Nat} {us : Bool} {c : Core}
    (hcore : unitCore (getUnit s u) l = c) (halign : (rdA c a).toNat % 4 = 0) (hcode : (rdA c a).toNat < 2 ^ 48)
    (hxlate : codeXlate (getUnit s u) c.parcel.toNat l (BitVec.ofNat 48 (rdA c a).toNat) = some (ppa, true, us))
    (hframe : codeFrame (getUnit s u) c.parcel.toNat ppa = some frame) (hroom : c.sb.length < 64) :
    lcodeBody (.core u l) a t s = .done (modCore s (.core u l) (fun c' => { c' with
      sb := c'.sb ++ [{ addr := frame + (rdA c a).toNat % 8192 / 4 * 8, bytes := leBytes 8 (codeSlot (rdD c t)).toNat }] })) [] 1 := by
  subst hcore
  have hhigh : bitsOf (rdA (unitCore (getUnit s u) l) a) 48 16 = 0 := by rw [bitsOf, Nat.div_eq_of_lt hcode, Nat.zero_mod]
  have hslot : slotOff (BitVec.ofNat 48 (rdA (unitCore (getUnit s u) l) a).toNat) =
      (rdA (unitCore (getUnit s u) l) a).toNat % 8192 / 4 * 8 := by
    rw [slotOff, BitVec.toNat_ofNat, Nat.mod_eq_of_lt hcode]
  have haligned : ¬ (rdA (unitCore (getUnit s u) l) a).toNat % 4 ≠ 0 := not_not_intro halign
  simp only [lcodeBody, if_neg haligned, if_pos hhigh, hxlate, hframe, hslot, sbPut_room hroom, Bool.not_true, Bool.false_eq_true, if_false]
  rfl

/-- Settles O27: the body by `lcodeBody_sbPut`, the frame of the instruction by `retires_of_done`. -/
theorem lcodeStoresACodeWord : Obligations.LcodeStoresACodeWord := by
  unfold Obligations.LcodeStoresACodeWord
  intro s s1 u l ucc a t ppa us frame i c x hready halign hcode hxlate hframe hroom
  have hcore : unitCore x l = moved 2 c := getCore_inBody s1 i 2
  have hbody := lcodeBody_sbPut (t := t) hcore halign hcode hxlate hframe hroom
  obtain ⟨t', hnext, hregs, helse⟩ := retires_of_done hready (Laws.exec_lcode i a t s) hbody
  refine ⟨t', hnext, hregs.trans (congrArg (counted (.core u l) 1) ?registers), helse.trans ?others⟩
  case registers =>
    rw [Laws.getCore_modCore, show getCore (inBody s1 i 2) (.core u l) = moved 2 c from hcore]
    rfl
  case others =>
    exact (Laws.elsewhere_modCore _ _ _).trans (Laws.elsewhere_setCore _ _ _)

end Sys2Proof.Proofs.CodeStores
end

section
/-! The expert window, the bench and the fault rows (O56): when a register write reaches its register, when a bench operation acts, what
an event adds to its source. -/
namespace Sys2Proof.Proofs.BenchRows

open Sys2Proof.Machine

section Expert
/-! The expert window while it is enabled, and while it is not (16 R484, R485). -/
variable {s : State} {w : Word}

/-- EXP_SW_GO with no reserved bit set is GO. -/
theorem swGoWrite_go (hen : s.sahya.expEn = true) (hres : bitsOf w 1 63 = 0) (hgo : bitOf w 0 = true) :
    swGoWrite s w = .next (stakedGo s) := by
  simp [swGoWrite, hen, hres, hgo]

theorem swGoWrite_disabled (hen : s.sahya.expEn = false) : swGoWrite s w = .next s := by
  simp [swGoWrite, hen]

theorem stakedGo_busy (hbusy : swBusyNow s = true) : stakedGo s = { s with sahya := { s.sahya with swRefused := true } } := by
  simp [stakedGo, hbusy]

theorem stakedGo_off (hbusy : swBusyNow s = false) (hlev : winLevelled (bitsOf s.sahya.swAddr 3 23 * 8) = true) (hoff : isOff s = true) :
    stakedGo s = modBoth s (fun x => winWrite x (bitsOf s.sahya.swAddr 3 23 * 8) s.sahya.swData) := by
  simp [stakedGo, hbusy, hlev, hoff]

variable {off : Nat}

theorem windowWrite_acts (u : UnitId) (hen : s.sahya.expEn = true) (halign : off % 8 = 0) (hres : winBadBits off w = false) :
    windowWrite s u off w = .next (modUnit (if winLevelled off then breakLevel s u else s) u (fun x => winWrite x off w)) := by
  simp [windowWrite, hen, halign, hres]

theorem windowWrite_reserved (u : UnitId) (hen : s.sahya.expEn = true) (halign : off % 8 = 0) (hres : winBadBits off w = true) :
    windowWrite s u off w = .fault .reservedWrite := by
  simp [windowWrite, hen, halign, hres]

end Expert

section Control
/-! A register of the control window (15 R453). -/
variable {s : State} {u : UnitId} {m : CtlMaster} {off : Nat} {w : Word}

theorem controlWrite_acts (hexec : (getUnit s u).executing = true) (halign : off % 8 = 0) (hlisted : ctlListed (ctlLoc off) = true)
    (hacc : ctlAccepts (getUnit s u) m true (ctlLoc off) = true) (hres : ctlBadBits (ctlLoc off) w = false) :
    controlWrite s u m off w = .next (ctlWrite s u m (ctlLoc off) w) := by
  simp [controlWrite, hexec, halign, hlisted, hacc, hres]

theorem controlWrite_refused (hacc : ctlAccepts (getUnit s u) m true (ctlLoc off) = false) : controlWrite s u m off w = .next s := by
  simp [controlWrite, hacc]

end Control

section Bench
/-! The bench registers and the bench operations (17 R502, R506). -/
variable {s : State} {w : Word}

theorem benchRow_vaon {c : Instr} {f : State → State} {t : State} (hx : exec c s = benchRow s f) (hv : s.pow.vaon = true) (ht : f s = t) :
    exec c s = .next t := by
  rw [hx, benchRow, if_pos hv, ht]

theorem benchRow_noVaon {c : Instr} {f : State → State} (hx : exec c s = benchRow s f) (hv : s.pow.vaon = false) : exec c s = .next s := by
  simp [hx, benchRow, hv]

/-- A write through BAR2 that sets no reserved bit. -/
theorem registerWrite_bench (off : BitVec 38) {t : State} (hv : s.pow.vaon = true) (hres : benchBad off.toNat w = false)
    (ht : benchWrite s off.toNat w = t) : exec (.registerWrite .bench off w) s = .next t := by
  rw [Laws.exec_registerWrite]
  simp [execRegisterWrite, hv, hres, ht]

theorem benchBad_cfg (hlow : bitsOf w 2 6 = 0) (hhigh : bitsOf w 16 48 = 0) : benchBad 0x30 w = false := by
  simp [benchBad, hlow, hhigh]

theorem benchBad_ctl (hhigh : bitsOf w 5 59 = 0) : benchBad 0x18 w = false := by
  simp [benchBad, hhigh]

/-- The pairs of BENCH_CTL that cancel, all set together (17 R506). -/
theorem benchCtl_cancelled (h0 : bitOf w 0 = false) (h1 : bitOf w 1 = true) (h2 : bitOf w 2 = true) (h3 : bitOf w 3 = true)
    (h4 : bitOf w 4 = true) : benchCtl s w = s := by
  simp [benchCtl, h0, h1, h2, h3, h4]

theorem bbFreezeWith_running (h : s.bench.frozen = false) (cause : BitVec 3) :
    bbFreezeWith s cause = { s with bench := { s.bench with frozen := true, fcause := cause, snap := snapWords s } } := by
  simp [bbFreezeWith, h]

theorem bbFreezeWith_frozen (h : s.bench.frozen = true) (cause : BitVec 3) : bbFreezeWith s cause = s := by
  simp [bbFreezeWith, h]

theorem bbReleaseNow_frozen (h : s.bench.frozen = true) : bbReleaseNow s =
    { s with bench := { s.bench with frozen := false, fcause := 0, snap := [], head := 0, wrapped := false } } := by
  simp [bbReleaseNow, h]

theorem fltFirstWrite_valid (h : bitOf w 12 = true) :
    fltFirstWrite s w = { s with bench := { s.bench with fltFirst := 0, fltFirstCn := 0 } } := by
  rw [fltFirstWrite, if_pos h]

theorem benchReset_key (s : State) (cold : Bool) : benchReset s 0x5A5A cold = beginReset s cold true (if cold then 4 else 3) :=
  if_pos rfl

theorem benchReset_noKey (s : State) {key : Nat} (h : key ≠ 0x5A5A) (cold : Bool) : benchReset s key cold = s :=
  if_neg h

theorem benchZeroKey_arms (s : State) : benchZeroKey s 0x5A5A = { s with bench := { s.bench with zeroArmed := true } } :=
  if_pos rfl

theorem benchZeroKey_armed (h : s.bench.zeroArmed = true) :
    benchZeroKey s 0xA5A5 = zeroise { s with bench := { s.bench with zeroArmed := false } } false := by
  simp [benchZeroKey, h]

/-- The second key without the first changes nothing. -/
theorem benchZeroKey_unarmed (h : s.bench.zeroArmed = false) : benchZeroKey s 0xA5A5 = s := by
  have hsame : { s with bench := { s.bench with zeroArmed := false } } = s := by rw [← h]
  simp [benchZeroKey, h, hsame]

theorem benchZeroKey_other (s : State) {key : Nat} (h1 : key ≠ 0x5A5A) (h2 : key ≠ 0xA5A5) :
    benchZeroKey s key = { s with bench := { s.bench with zeroArmed := false } } := by
  simp [benchZeroKey, h1, h2]

/-- A 16-bit key other than `k` as a number. -/
theorem key_toNat_ne {key k : BitVec 16} (h : key ≠ k) : key.toNat ≠ k.toNat := fun e => h (BitVec.eq_of_toNat_eq e)

end Bench

/-- What a bench operation does while VAON is present, each operation in turn. -/
theorem bench_operations_vaon {s : State} (hv : s.pow.vaon = true) :
    exec .hostCheckstop s = .next (raiseFree s 0x00B (foreState s).ucc) ∧
    (s.bench.frozen = false → exec .bbFreeze s = .next { s with bench := { s.bench with frozen := true, fcause := 2, snap := snapWords s } }) ∧
    (s.bench.frozen = true → exec .bbFreeze s = .next s ∧
      exec .bbRelease s = .next { s with bench := { s.bench with frozen := false, fcause := 0, snap := [], head := 0, wrapped := false } }) ∧
    exec .errorSet s = .next { s with bench := { s.bench with error := true } } ∧
    exec .errorClr s = .next { s with bench := { s.bench with error := false } } ∧
    exec .fltFirstClear s = .next { s with bench := { s.bench with fltFirst := 0, fltFirstCn := 0 } } :=
  ⟨benchRow_vaon (Laws.exec_hostCheckstop s) hv rfl,
    fun h => benchRow_vaon (Laws.exec_bbFreeze s) hv (bbFreezeWith_running h 2),
    fun h => ⟨benchRow_vaon (Laws.exec_bbFreeze s) hv (bbFreezeWith_frozen h 2),
      benchRow_vaon (Laws.exec_bbRelease s) hv (bbReleaseNow_frozen h)⟩,
    benchRow_vaon (Laws.exec_errorSet s) hv rfl, benchRow_vaon (Laws.exec_errorClr s) hv rfl,
    benchRow_vaon (Laws.exec_fltFirstClear s) hv (fltFirstWrite_valid (by decide))⟩

/-- The bench operations that need a key, while VAON is present: with the key, and with any other. -/
theorem bench_keys_vaon {s : State} (hv : s.pow.vaon = true) :
    exec (.benchResetWarm 0x5A5A) s = .next (beginReset s false true 3) ∧ exec (.benchResetCold 0x5A5A) s = .next (beginReset s true true 4) ∧
    (∀ key, key ≠ 0x5A5A → exec (.benchResetWarm key) s = .next s ∧ exec (.benchResetCold key) s = .next s) ∧
    exec (.benchZeroArm 0x5A5A) s = .next { s with bench := { s.bench with zeroArmed := true } } ∧
    (s.bench.zeroArmed = true → exec (.benchZero 0xA5A5) s = .next (zeroise { s with bench := { s.bench with zeroArmed := false } } false)) ∧
    (s.bench.zeroArmed = false → exec (.benchZero 0xA5A5) s = .next s) ∧
    (∀ key, key ≠ 0x5A5A → key ≠ 0xA5A5 → exec (.benchZero key) s = .next { s with bench := { s.bench with zeroArmed := false } }) :=
  ⟨benchRow_vaon (Laws.exec_benchResetWarm _ s) hv (benchReset_key s false),
    benchRow_vaon (Laws.exec_benchResetCold _ s) hv (benchReset_key s true),
    fun key h => ⟨benchRow_vaon (Laws.exec_benchResetWarm key s) hv (benchReset_noKey s (key_toNat_ne h) false),
      benchRow_vaon (Laws.exec_benchResetCold key s) hv (benchReset_noKey s (key_toNat_ne h) true)⟩,
    benchRow_vaon (Laws.exec_benchZeroArm _ s) hv (benchZeroKey_arms s),
    fun h => benchRow_vaon (Laws.exec_benchZero _ s) hv (benchZeroKey_armed h),
    fun h => benchRow_vaon (Laws.exec_benchZero _ s) hv (benchZeroKey_unarmed h),
    fun key h1 h2 => benchRow_vaon (Laws.exec_benchZero key s) hv (benchZeroKey_other s (key_toNat_ne h1) (key_toNat_ne h2))⟩

section Count
/-! An event counts in its source, and is severe where its window has the N of the source (17 R490). -/
variable {x : Source} (cn : Nat)

theorem countEvent_count (h : x.count < 2 ^ 32 - 1) : (countEvent x cn).1.count = x.count + 1 := by
  have hsat : saturate 32 (x.count + 1) = x.count + 1 := if_pos (by omega)
  rw [← hsat, countEvent]
  cases x.openW <;> simp only [Bool.false_eq_true, if_false, if_true, apply_ite Prod.fst, apply_ite Source.count, ite_self]

theorem countEvent_below (hopen : x.openW = true) (hn : x.wcnt + 1 ≠ x.n.toNat) :
    (countEvent x cn).2 = false ∧ (countEvent x cn).1.wcnt = x.wcnt + 1 ∧ (countEvent x cn).1.openW = true := by
  simp [countEvent, hopen, hn]

theorem countEvent_severe (hopen : x.openW = true) (hn : x.wcnt + 1 = x.n.toNat) :
    (countEvent x cn).2 = true ∧ (countEvent x cn).1.openW = false := by
  simp [countEvent, hopen, hn]

theorem countEvent_single (hopen : x.openW = false) (hn : x.n = 1) : (countEvent x cn).2 = true := by
  simp [countEvent, hopen, hn]

end Count

section Rows
/-! The rows of the service pair and of the fault collector, each where its event can occur (16 R456, R457, 17 R490 to R499). -/
variable {s : State}

theorem svcWatchdog_stops (hrun : s.sahya.running = true) (hfw : s.sahya.fwDown = false) (hlock : s.sahya.lockStop = false) :
    exec .svcWatchdog s =
      .next (raiseFree { s with sahya := { s.sahya with fwDown := true, expEn := true, running := false } } 0x001 (foreState s).ucc) := by
  rw [Laws.exec_svcWatchdog]
  simp [execSvcWatchdog, hrun, hfw, hlock]

/-- The state in which the lockstep's event is raised. -/
def lockStopped (s : State) : State :=
  { s with sahya := { s.sahya with lockStop := true, running := false }, gen := { s.gen with stopped := true } }

theorem svcLockstep_stops (hphase : s.pow.phase ≠ 0) (hlock : s.sahya.lockStop = false) :
    exec .svcLockstep s = .next (raiseFree (lockStopped s) 0x000 (foreState (lockStopped s)).ucc) := by
  rw [Laws.exec_svcLockstep]
  simp [execSvcLockstep, lockStopped, hphase, hlock]

/-- The event of a source that brings nothing else with it. -/
theorem faultEvent_raises {src : BitVec 12} (ucc : Nat) (info : Word) (hv : s.pow.vaon = true) (h5 : src.toNat ≠ 5) (h6 : src.toNat ≠ 6) :
    exec (.faultEvent src ucc info) s = .next (raiseFault s src.toNat ucc info) := by
  rw [Laws.exec_faultEvent]
  simp [execFaultEvent, eventSide, hv, h5, h6]

theorem mrDelayExpiry_resets (h : s.bench.mrDelay = true) : exec .mrDelayExpiry s = .next (beginReset s false false 5) :=
  if_pos h

theorem tickFailure_raises (h : s.gen.run = true) : exec .tickFailure s = .next (raiseFree s 0x002 (foreState s).ucc) :=
  if_pos h

theorem checkstopIn_raises (hv : s.pow.vaon = true) (hen : bitOf s.bench.cfg 0 = true) (hcs : s.bench.checkstop = false) :
    exec .checkstopIn s = .next (raiseFree s 0x00A (foreState s).ucc) := by
  rw [Laws.exec_checkstopIn]
  simp [execCheckstopIn, hv, hen, hcs]

end Rows

/-- Settles O56: each clause by the lemma of its register, operation or row. -/
theorem faultsAndTheBench : Obligations.FaultsAndTheBench := by
  unfold Obligations.FaultsAndTheBench
  refine ⟨?staked, ?stakedOff, ?raw, ?rawReserved, ?cfg, ?ctl, ?control, ?watchdog, ?lockstep, ?event, ?count, ?delay, ?tick,
    ?checkstop, ?bench, ?expiry, ?noVaon⟩
  case staked =>
    intro s go hen hres hgo
    exact ⟨fun hbusy => (swGoWrite_go hen hres hgo).trans (congrArg _ (stakedGo_busy hbusy)),
      fun hbusy hlev hoff => (swGoWrite_go hen hres hgo).trans (congrArg _ (stakedGo_off hbusy hlev hoff))⟩
  case stakedOff => exact fun s go hen => swGoWrite_disabled hen
  case raw => exact fun s u off w hen halign hres => windowWrite_acts u hen halign hres
  case rawReserved => exact fun s u off w hen halign hres => windowWrite_reserved u hen halign hres
  case cfg => exact fun s w hv hlow hhigh => registerWrite_bench 0x30 hv (benchBad_cfg hlow hhigh) rfl
  case ctl =>
    intro s w hv hhigh h0 h1 h2 h3 h4
    exact registerWrite_bench 0x18 hv (benchBad_ctl hhigh) (benchCtl_cancelled h0 h1 h2 h3 h4)
  case control =>
    intro s u p sup off w m hexec halign hlisted
    exact ⟨fun hacc hres => controlWrite_acts hexec halign hlisted hacc hres, fun hacc => controlWrite_refused hacc⟩
  case watchdog => exact fun s hrun hfw hlock => svcWatchdog_stops hrun hfw hlock
  case lockstep => exact fun s hphase hlock => ⟨lockStopped s, svcLockstep_stops hphase hlock, rfl, rfl, rfl⟩
  case event => exact fun s src ucc info hv h5 h6 => faultEvent_raises ucc info hv h5 h6
  case count =>
    intro x cn h
    exact ⟨countEvent_count cn h, countEvent_below cn, countEvent_severe cn, countEvent_single cn⟩
  case delay => exact fun s h => mrDelayExpiry_resets h
  case tick => exact fun s h => tickFailure_raises h
  case checkstop => exact fun s hv hen hcs => checkstopIn_raises hv hen hcs
  case bench =>
    intro s hv
    obtain ⟨hstop, hfreeze, hrelease, hset, hclr, hfirst⟩ := bench_operations_vaon hv
    exact ⟨hstop, hfreeze, hrelease, hset, hclr, hfirst, bench_keys_vaon hv⟩
  case expiry => exact fun s => rfl
  case noVaon =>
    exact fun s hv => ⟨benchRow_noVaon (Laws.exec_errorSet s) hv, benchRow_noVaon (Laws.exec_hostCheckstop s) hv,
      benchRow_noVaon (Laws.exec_benchResetCold _ s) hv⟩

end Sys2Proof.Proofs.BenchRows
end

section
/-! The lands, the resets, start-up, the power domains, throttling, rails and clocks (O57): each row in the state that it is for. -/
namespace Sys2Proof.Proofs.PowerRows

open Sys2Proof.Machine Sys2Proof.Claims Sys2Proof.Proofs.Outputs

section Lands
/-! The lands and VAON (18 R509, R513, R529, R533). -/
variable {s : State}

theorem vaonApply_starts (hv : s.pow.vaon = false) : exec .vaonApply s = .next { s with pow := { s.pow with vaon := true } } := by
  rw [Laws.exec_vaonApply]
  simp [execVaonApply, hv]

theorem vaonRemove_loses (hv : s.pow.vaon = true) : exec .vaonRemove s = .next (vaonLost s) := if_pos hv

theorem pwrGoodFall_resets (h : s.pow.pwrGood = true) : exec .pwrGoodFall s =
    .next (beginReset (bbFreezeWith { s with pow := { s.pow with pwrGood := false } } 3) true true 2) := if_pos h

/-- A land that rises is as its level while VAON is present; one that falls resets the module. -/
theorem resetLands_vaon (hv : s.pow.vaon = true) : exec (.modResetN true) s = .next { s with pow := { s.pow with modResetN := true } } ∧
    exec (.modResetN false) s = .next (beginReset { s with pow := { s.pow with modResetN := false } } true true 2) ∧
    exec (.perstN true) s = .next { s with pow := { s.pow with perstN := true } } ∧
    exec (.perstN false) s = .next (beginReset { s with pow := { s.pow with perstN := false } } false true 1) := by
  have hand : (true && s.pow.vaon) = true := by rw [hv]; rfl
  refine ⟨?_, rfl, ?_, rfl⟩
  · rw [Laws.exec_modResetN, execModResetN, hand]; rfl
  · rw [Laws.exec_perstN, execPerstN, hand]; rfl

theorem jtagInstruction_reset (ir : BitVec 8) (h : s.pow.modResetN = false) :
    exec (.jtagInstruction ir) s = .next { s with pow := { s.pow with jtagIr := ir } } := by
  rw [Laws.exec_jtagInstruction]
  simp [execJtagInstruction, h]

theorem jtagInstruction_drives {ir : BitVec 8} (hd : Config.jtagDrives ir = true) (h : s.pow.modResetN = true) :
    exec (.jtagInstruction ir) s = .next { s with pow := { s.pow with jtagIr := 0xFF } } := by
  rw [Laws.exec_jtagInstruction]
  simp [execJtagInstruction, hd, h]

end Lands

section Resets
/-! A module reset begins, and ends (17 R502, 18 R509, R513, R515). -/
variable {s : State} (cold host : Bool) (cause : BitVec 3)

/-- The state that a module reset finds: its black box frozen where the host forces the reset. -/
def resetFrom (host : Bool) (s : State) : State := if host then bbFreezeWith s 3 else s

theorem beginReset_runs (hv : s.pow.vaon = true) (hphase : s.pow.phase ≠ 0) :
    beginReset s cold host cause = moduleReset (resetFrom host s) cold cause := by
  simp [beginReset, resetFrom, hv, hphase]

/-- Nothing is more thorough than the cold reset that is held (18 R529). -/
theorem beginReset_heldCold (hphase : s.pow.phase = 0) (hcold : s.pow.reset = .cold) : beginReset s cold host cause = s := by
  rw [beginReset, if_pos (show s.pow.phase = 0 ∧ (s.pow.reset = .cold ∨ (s.pow.reset = .warm ∧ !cold)) from ⟨hphase, .inl hcold⟩), ite_self]

/-- Freezing the black box writes its records alone. -/
theorem resetFrom_keeps (s : State) : (resetFrom host s).bench.error = s.bench.error ∧ (resetFrom host s).bench.cfg = s.bench.cfg ∧
    (resetFrom host s).bench.fltFirst = s.bench.fltFirst ∧ (resetFrom host s).keys.root0 = s.keys.root0 ∧
    (resetFrom host s).boot.flash = s.boot.flash := by
  unfold resetFrom bbFreezeWith
  repeat' split
  all_goals exact ⟨rfl, rfl, rfl, rfl, rfl⟩

/-- What a module reset keeps of the bench domain, the key store and flash, and what it clears. -/
theorem beginReset_leaves (hv : s.pow.vaon = true) (hphase : s.pow.phase ≠ 0) : let t := beginReset s cold host cause
    t.bench.lastReset = cause ∧ t.bench.checkstop = false ∧ t.bench.error = (s.bench.error && !cold) ∧ t.bench.cfg = s.bench.cfg ∧
    t.bench.fltFirst = s.bench.fltFirst ∧ t.pow.phase = 0 ∧ t.gen = {} ∧ t.mail = {} ∧ t.keys.root0 = s.keys.root0 ∧ t.keys.slots = [] ∧
    t.boot.flash = s.boot.flash ∧ t.u0.executing = false ∧ t.u1.executing = false ∧ t.ports = [] := by
  obtain ⟨herror, hcfg, hfirst, hroot, hflash⟩ := resetFrom_keeps host s
  rw [beginReset_runs cold host cause hv hphase]
  exact ⟨rfl, rfl, congrArg (· && !cold) herror, hcfg, hfirst, rfl, rfl, rfl, hroot, rfl, hflash, rfl, rfl, rfl⟩

theorem resetExit_leaves (h : exitReady s = true) : exec .resetExit s = .next (leaveReset s) := if_pos h

theorem resetExit_stays (h : exitReady s = false) : exec .resetExit s = .next s := by
  rw [Laws.exec_resetExit]
  simp [execResetExit, h]

theorem unitResetEnd_none {u : UnitId} (h : ∀ e ∈ s.pow.unitReset, e.1 ≠ u) : exec (.unitResetEnd u) s = .next s := by
  rw [Laws.exec_unitResetEnd]
  exact if_pos (by simpa using h)

/-- The end of a unit's reset that no command waits for. -/
theorem unitResetEnd_untagged {u : UnitId} (h : ∃ e ∈ s.pow.unitReset, e.1 = u) (htags : ∀ e ∈ s.sahya.resetTags, e.1 ≠ u) :
    exec (.unitResetEnd u) s =
      .next { s with pow := { s.pow with unitReset := s.pow.unitReset.filter (fun e => decide (e.1 ≠ u)) } } := by
  have hruns : ¬ s.pow.unitReset.all (fun e => decide (e.1 ≠ u)) = true := by
    obtain ⟨e, hmem, he⟩ := h
    exact fun hall => of_decide_eq_true (List.all_eq_true.1 hall e hmem) he
  have hkept : s.sahya.resetTags.filter (fun e => decide (e.1 ≠ u)) = s.sahya.resetTags :=
    List.filter_eq_self.2 fun e hmem => decide_eq_true (htags e hmem)
  have hnone : s.sahya.resetTags.filter (fun e => decide (e.1 = u)) = [] :=
    List.filter_eq_nil_iff.2 fun e hmem => by simpa using htags e hmem
  rw [Laws.exec_unitResetEnd, execUnitResetEnd, if_neg hruns, hkept, hnone]
  rfl

end Resets

section StartUp
/-! A start-up phase while it runs (18 R510, R511). -/
variable {s : State}

theorem startupPhaseEnd_ok (h : phaseRuns s = true) : exec (.startupPhaseEnd true) s = .next (phaseEnds s) := by
  rw [Laws.exec_startupPhaseEnd]
  simp [execStartupPhaseEnd, h]

theorem startupPhaseEnd_failed (h : phaseRuns s = true) : exec (.startupPhaseEnd false) s = .next (phaseFails s) := by
  rw [Laws.exec_startupPhaseEnd]
  simp [execStartupPhaseEnd, h]

theorem phaseEnds_training (h : s.pow.phase = 3 ∨ s.pow.phase = 4) : phaseEnds s = nextPhase s := by
  rcases h with h | h <;> simp [phaseEnds, h]

theorem phaseEnds_zeroing (h : s.pow.phase = 5) : phaseEnds s = nextPhase (phase5 s) := by
  simp [phaseEnds, h]

theorem bringupPhaseTimeout_fails (h : phaseRuns s = true) (h1 : s.pow.phase ≠ 1) (h9 : s.pow.phase ≠ 9) :
    exec .bringupPhaseTimeout s = .next (phaseFails s) := by
  rw [Laws.exec_bringupPhaseTimeout]
  simp [execBringupPhaseTimeout, h, h1, h9]

end StartUp

section Domains
/-! A power domain's sequence at its end (18 R519 to R521). -/
variable {s : State}

theorem powerSequenceEnd_unit {d : Fin 52} (hd : d.val < 48) (stable : Bool) : exec (.powerSequenceEnd d stable) s =
    .next (unitSeqEnd s (if d.val < 24 then .u0 else .u1) (d.val % 24) d.val stable) := if_pos hd

theorem unitSeqEnd_settled {d : Nat} (hst : (domOf s d).st = domOff ∨ (domOf s d).st = domOn) (u : UnitId) (k : Nat) (stable : Bool) :
    unitSeqEnd s u k d stable = s := if_pos hst

/-- A domain of a unit that does not execute ends its sequence at the row (log 90). -/
theorem unitSeqEnd_idle {u : UnitId} {d : Nat} (hoff : (domOf s d).st ≠ domOff) (hon : (domOf s d).st ≠ domOn)
    (hexec : (getUnit s u).executing = false) (k : Nat) (stable : Bool) :
    unitSeqEnd s u k d stable =
      domEnd (if stable then s else raiseUnit s u 0x212 (BitVec.ofNat 64 d)) u k (domOf s d).due := by
  simp [unitSeqEnd, seqReached, hoff, hon, hexec]

theorem domOf_setDom (s : State) (n : Nat) (x : Dom) : domOf (setDom s n x) n = x := Laws.tabGet_tabSet_same _ _ _ _

/-- A Traverse die that powers on is ON, its lanes still down. -/
theorem dieSeqEnd_poweringOn {d : DieId} (h : (domOf s (48 + d.val)).st = domPoweringOn) :
    (domOf (dieSeqEnd s d) (48 + d.val)).st = domOn ∧ (dieOf (dieSeqEnd s d) d).lanesDown = true := by
  rw [dieSeqEnd, if_pos h, dieOn]
  constructor
  · exact congrArg Dom.st (domOf_setDom s _ _)
  · rw [dieOf_modDie]

end Domains

section Throttling
/-! AUTO throttling while firmware runs it (18 R528). -/
variable {s : State} {mt p0 p1 : Nat}

/-- One reading sets the level that `autoLevel` gives. -/
theorem throttleControl_auto (hrun : s.sahya.running = true) (hfw : s.sahya.fwDown = false) (hfix : s.sahya.fixedThr = false)
    (hcs : s.bench.checkstop = false) : exec (.throttleControl mt p0 p1) s =
      .next (setThrottle { s with sahya := { s.sahya with coolMs := (autoLevel s.sahya.level s.sahya.coolMs mt p0 p1).2 } } none
        (autoLevel s.sahya.level s.sahya.coolMs mt p0 p1).1) := by
  rw [Laws.exec_throttleControl]
  simp [execThrottleControl, hrun, hfw, hfix, hcs]

variable {level : BitVec 3} {cool : Nat}

theorem autoLevel_hot (h : 95 ≤ mt) : (autoLevel level cool mt p0 p1).1 = 7 := by
  simp [autoLevel, h]

theorem autoLevel_warm (h90 : 90 ≤ mt) (h95 : mt < 95) (hlevel : level ≠ 7) : (autoLevel level cool mt p0 p1).1 = level + 1 := by
  have hnot : ¬ 95 ≤ mt := by omega
  simp only [autoLevel, if_neg hnot, if_pos (Or.inl h90), if_neg hlevel]

/-- The tenth cool reading lowers the level. -/
theorem autoLevel_cool (ht : mt < 85) (h0 : p0 < 585) (h1 : p1 < 585) (hlevel : level ≠ 0) :
    autoLevel level 9 mt p0 p1 = (level - 1, 0) := by
  have hhot : ¬ 95 ≤ mt := by omega
  have hwarm : ¬ (90 ≤ mt ∨ 615 < p0 ∨ 615 < p1) := by omega
  simp only [autoLevel, if_neg hhot, if_neg hwarm, if_neg hlevel]
  simp [ht, h0, h1]

end Throttling

section Rails
/-! Rails and REFCLK (18 R526, R534). -/
variable {s : State}

theorem railLoss_unit0 {r : Fin 12} (h : r.val = 0 ∨ (2 ≤ r.val ∧ r.val < 5)) :
    exec (.railLoss r) s = .next (modUnit s .u0 unitRailLost) := by
  have h8 : r.val < 8 := by omega
  rw [Laws.exec_railLoss]
  simp only [execRailLoss, if_pos h8, if_pos h]

theorem railLoss_die {r : Fin 12} (h : 8 ≤ r.val) : exec (.railLoss r) s = .next (dieStop s (Fin.ofNat 4 (r.val - 8))) :=
  if_neg (by omega)

/-- REFCLK is lost while a chain runs and no start-up phase of 1 to 8 is under way (log 89). -/
theorem refclkLoss_stops (hclk : s.pow.refclk = true) (hphase : s.pow.phase = 0 ∨ 8 < s.pow.phase) (hrun : s.gen.run = true) :
    exec .refclkLoss s = .next { s with pow := { s.pow with refclk := false }, gen := { s.gen with stopped := true } } := by
  have hno : ¬ (1 ≤ s.pow.phase ∧ s.pow.phase ≤ 8) := by omega
  rw [Laws.exec_refclkLoss]
  simp [execRefclkLoss, hclk, hrun, hno]

end Rails

/-- Settles O57: each clause by the lemma of its row. -/
theorem powerResetsAndStartUp : Obligations.PowerResetsAndStartUp := by
  unfold Obligations.PowerResetsAndStartUp
  refine ⟨?apply, ?remove, ?rise, ?fall, ?lands, ?reset, ?held, ?exit, ?stays, ?training, ?zeroing, ?failed, ?timeout, ?noReset,
    ?resetEnd, ?sequence, ?settled, ?die, ?throttle, ?rail, ?loss, ?back, ?jtag, ?jtagDrives⟩
  case apply => exact fun s hv => vaonApply_starts hv
  case remove => exact fun s hv => ⟨vaonRemove_loses hv, rfl, rfl, rfl, rfl⟩
  case rise => exact fun s => rfl
  case fall => exact fun s h => pwrGoodFall_resets h
  case lands => exact fun s hv => resetLands_vaon hv
  case reset => exact fun s cold host cause hv hphase => beginReset_leaves cold host cause hv hphase
  case held => exact fun s cold host cause _ hphase hcold => beginReset_heldCold cold host cause hphase hcold
  case exit => exact fun s h => ⟨_, resetExit_leaves h, rfl⟩
  case stays => exact fun s h => resetExit_stays h
  case training => exact fun s h hphase => (startupPhaseEnd_ok h).trans (congrArg _ (phaseEnds_training hphase))
  case zeroing =>
    intro s h hphase
    exact ⟨_, (startupPhaseEnd_ok h).trans (congrArg _ (phaseEnds_zeroing hphase)), congrArg (· + 1) hphase, rfl, rfl, rfl, rfl⟩
  case failed => exact fun s h => startupPhaseEnd_failed h
  case timeout => exact fun s h h1 h9 => bringupPhaseTimeout_fails h h1 h9
  case noReset => exact fun s u h => unitResetEnd_none h
  case resetEnd => exact fun s u h htags => unitResetEnd_untagged h htags
  case sequence =>
    intro s d hd hoff hon hexec
    have hrow : ∀ stable, exec (.powerSequenceEnd d stable) s = .next (unitSeqEnd s .u0 (d.val % 24) d.val stable) := fun stable =>
      (powerSequenceEnd_unit (by omega) stable).trans (by rw [if_pos hd])
    exact ⟨(hrow true).trans (congrArg _ (unitSeqEnd_idle (u := .u0) hoff hon hexec _ true)),
      (hrow false).trans (congrArg _ (unitSeqEnd_idle (u := .u0) hoff hon hexec _ false))⟩
  case settled => exact fun s d hd hst => (powerSequenceEnd_unit hd true).trans (congrArg _ (unitSeqEnd_settled hst _ _ _))
  case die =>
    intro s d hst hd
    have hnum : (Fin.ofNat 4 d).val = d := Nat.mod_eq_of_lt hd
    have hrow : exec (.powerSequenceEnd (Fin.ofNat 52 (48 + d)) true) s = .next (dieSeqEnd s (Fin.ofNat 4 d)) := by
      have hval : (Fin.ofNat 52 (48 + d)).val = 48 + d := Nat.mod_eq_of_lt (by omega)
      rw [Laws.exec_powerSequenceEnd, execPowerSequenceEnd, hval, if_neg (by omega), Nat.add_sub_cancel_left]
    have hend := dieSeqEnd_poweringOn (s := s) (d := Fin.ofNat 4 d) (by rw [hnum]; exact hst)
    rw [hnum] at hend
    exact ⟨_, hrow, hend⟩
  case throttle =>
    intro s mt p0 p1 hrun hfw hfix hcs
    have hauto := throttleControl_auto (mt := mt) (p0 := p0) (p1 := p1) hrun hfw hfix hcs
    refine ⟨fun h => ?hot, fun h90 h95 hlevel => ?warm, fun ht h0 h1 hcool hlevel => ?cool⟩
    case hot => exact ⟨_, autoLevel_hot h ▸ hauto⟩
    case warm => exact ⟨_, autoLevel_warm h90 h95 hlevel ▸ hauto⟩
    case cool => rw [hauto, hcool, autoLevel_cool ht h0 h1 hlevel]
  case rail => exact fun s r => ⟨fun h => ⟨_, railLoss_unit0 h, rfl, rfl, rfl⟩, fun h => railLoss_die h⟩
  case loss => exact fun s hclk hphase hrun => refclkLoss_stops hclk hphase hrun
  case back => exact fun s => rfl
  case jtag => exact fun s ir h => jtagInstruction_reset ir h
  case jtagDrives => exact fun s ir hd h => jtagInstruction_drives hd h

end Sys2Proof.Proofs.PowerRows
end

section
/-! Sahya's commands (O54, O55): a command that comes alone is checked, takes its effect and is answered (16 R470), so each row needs only
its check, its effect and its results. -/
namespace Sys2Proof.Proofs.SahyaCommands

open Sys2Proof.Machine Sys2Proof.Claims

section Run
/-! A command of which no frame waits in the queue. -/
variable {s : State} {h : CmdHdr} {g v : Nat} {args : List Word} {chk : State → Option Nat → List Word → Nat}

theorem takeTurn_alone (hframe : s.sahya.inbox.find? (isFrame h g v) = none) : takeTurn s h g v = (s, some .alone) := by
  simp only [takeTurn, hframe]

theorem sahyaRun_notServed (hserved : cmdServed s h g v = false) (act : CmdEffect) (after : State → State) :
    sahyaRun s h g v args chk act after = s := by
  simp [sahyaRun, hserved]

/-- A command that its checks refuse is answered with its code. -/
theorem sahyaRun_refused {k : Nat} (hk : k ≠ 0) (hgives : cmdGives s h g v args chk k) (act : CmdEffect) (after : State → State) :
    sahyaRun s h g v args chk act after = postReply s h g v k 0 [] := by
  obtain ⟨hserved, hframe, hcode⟩ := hgives
  have hne : k ≠ ccOk := hk
  simp [sahyaRun, hserved, takeTurn_alone hframe, hcode, hne, placeReply]

/-- A command whose effect is complete is answered OK, with its results. -/
theorem sahyaRun_replies {act : CmdEffect} {t : State} {rs : List Word} (hgives : cmdGives s h g v args chk 0)
    (hact : act s none = (t, some rs)) (after : State → State) :
    sahyaRun s h g v args chk act after = after (postReply t h g v 0 0 rs) := by
  obtain ⟨hserved, hframe, hcode⟩ := hgives
  simp [sahyaRun, hserved, takeTurn_alone hframe, hcode, ccOk, placeReply, placeStamp, hact]

/-- A command whose reply comes later. -/
theorem sahyaRun_waits {act : CmdEffect} {t : State} (hgives : cmdGives s h g v args chk 0) (hact : act s none = (t, none))
    (after : State → State) : sahyaRun s h g v args chk act after = after t := by
  obtain ⟨hserved, hframe, hcode⟩ := hgives
  simp [sahyaRun, hserved, takeTurn_alone hframe, hcode, ccOk, placeStamp, hact]

variable {c : Instr} {act : CmdEffect} {t : State}

/-- A row that runs a command which is answered OK. -/
theorem row_replies {rs : List Word} (hx : exec c s = .next (sahyaRun s h g v args chk act)) (hgives : cmdGives s h g v args chk 0)
    (hact : act s none = (t, some rs)) : exec c s = .next (postReply t h g v 0 0 rs) :=
  hx.trans (congrArg _ (sahyaRun_replies hgives hact id))

/-- A row that runs a command whose reply comes later. -/
theorem row_waits (hx : exec c s = .next (sahyaRun s h g v args chk act)) (hgives : cmdGives s h g v args chk 0)
    (hact : act s none = (t, none)) : exec c s = .next t :=
  hx.trans (congrArg _ (sahyaRun_waits hgives hact id))

/-- A row that runs a command without results which something follows. -/
theorem row_replies_then {after : State → State} (hx : exec c s = .next (sahyaRun s h g v args chk act after))
    (hgives : cmdGives s h g v args chk 0) (hact : act s none = (t, some [])) : exec c s = .next (after (postReply t h g v 0 0 [])) :=
  hx.trans (congrArg _ (sahyaRun_replies hgives hact after))

end Run

section Rows
/-! A row by the effect of the command that it runs. -/
variable {row : CmdHdr → Instr} {g v : Nat} {args : List Word} {chk : State → Option Nat → List Word → Nat}

theorem commandDoes_of_row {act : CmdHdr → CmdEffect} {eff : CmdHdr → State → State} {rs : State → List Word}
    (hx : ∀ s h, exec (row h) s = .next (sahyaRun s h g v args chk (act h))) (hact : ∀ s h, act h s none = (eff h s, some (rs s))) :
    commandDoes row g v args chk eff rs :=
  fun s h => ⟨fun hgives => row_replies (hx s h) hgives (hact s h),
    fun _ hk hgives => (hx s h).trans (congrArg _ (sahyaRun_refused hk hgives _ id)),
    fun hserved => (hx s h).trans (congrArg _ (sahyaRun_notServed hserved _ id))⟩

theorem commandReads_of_row {rs : State → List Word} (hx : ∀ s h, exec (row h) s = .next (sahyaRun s h g v args chk (readAct rs))) :
    commandReads row g v args chk rs :=
  commandDoes_of_row hx fun _ _ => rfl

theorem commandSets_of_row {act : State → Option Nat → State}
    (hx : ∀ s h, exec (row h) s = .next (sahyaRun s h g v args chk (plainAct act))) :
    commandSets row g v args chk (fun s => act s none) :=
  commandDoes_of_row hx fun _ _ => rfl

theorem commandStakes_of_row {e : CfgEffect}
    (hx : ∀ s h, exec (row h) s = .next (sahyaRun s h g v args chk (plainAct fun s st => cfgFw s st e))) :
    commandStakes row g v args chk e :=
  commandDoes_of_row hx fun _ _ => rfl

end Rows

/-- A `CLOSURE.INJECT` that names a live die while no other runs. -/
theorem closureInject_starts {s : State} {h : CmdHdr} {d r : Word} (htag : s.sahya.injTag = none)
    (hgives : cmdGives s h 2 2 [d, r] chkClosureInject 0) (hlive : liveDies s (d.setWidth 4) ≠ 0) :
    exec (.closureInject h d r) s =
      .next (startInject { s with sahya := { s.sahya with injTag := some (h, liveDies s (d.setWidth 4)) } } (liveDies s (d.setWidth 4)) (decide (r = 1))) := by
  have hrow : exec (.closureInject h d r) s = .next (sahyaRun s h 2 2 [d, r] chkClosureInject (doClosureInject h d r)) := by
    rw [Laws.exec_closureInject, execClosureInject, htag]
    rfl
  refine row_waits hrow hgives ?_
  rw [doClosureInject, if_neg hlive]
  rfl

/-- The patch of `CODE.MPATCH` goes to the boundary while a unit executes. -/
theorem doCodeMpatch_executing {s : State} {img : PatchImage} (himg : Config.patchImage (imgBody (slotByte s 2)) = some img)
    (hoff : isOff s = false) : doCodeMpatch s none =
      (bodyFw { s with sahya := { s.sahya with mcodePend := true } } none (.mcode img), some [img.patchId.setWidth 64]) := by
  have hoff' : isOff { s with sahya := { s.sahya with mcodePend := true } } = false := hoff
  simp only [doCodeMpatch, himg, hoff, Bool.not_false, hoff', Bool.false_eq_true, if_false]

/-- Settles O54: each command by the row that runs it. -/
theorem sahyaCommandsOnTheModule : Obligations.SahyaCommandsOnTheModule := by
  unfold Obligations.SahyaCommandsOnTheModule
  refine ⟨?levelConfig, ?levelStart, ?levelRelevel, ?levelCancel, ?benchPairs, ?benchSigs, ?levelMap, ?levelDebug, ?closureConfig,
    ?closureInject, ?closureStatus, ?chainStart, ?parcelCreate, ?parcelDestroy, ?parcelCores, ?parcelMap, ?parcelSegment, ?parcelRetire,
    ?parcelVector, ?codeLoad, ?codeMpatch, ?stationGrant, ?stationQuery, ?stationBook, ?mirrorResend, ?mirrorKeep, ?stationTakeover,
    ?stationReconcile, ?pathModid, ?pathPort, ?pathStatus, ?pathAddr, ?pathGroup, ?pathLink, ?keyInit, ?keyGenerate, ?keyImport,
    ?keyExport, ?keyAttr, ?keyDelete, ?keyZeroise⟩
  case levelConfig => exact fun lag dv => commandSets_of_row fun s h => Laws.exec_levelConfig h lag dv s
  case levelStart => exact fun mode => commandSets_of_row fun s h => Laws.exec_levelStart h mode s
  case levelRelevel => exact fun w r mr mp => commandDoes_of_row (fun s h => Laws.exec_levelRelevel h w r mr mp s) fun _ _ => rfl
  case levelCancel => exact fun s h hgives => row_waits (Laws.exec_levelCancel h s) hgives rfl
  case benchPairs => exact fun f c => commandDoes_of_row (fun s h => Laws.exec_levelBench h f c 0 s) fun _ _ => rfl
  case benchSigs => exact fun f c => commandDoes_of_row (fun s h => Laws.exec_levelBench h f c 1 s) fun _ _ => rfl
  case levelMap => exact commandReads_of_row fun s h => Laws.exec_levelMap h s
  case levelDebug => exact fun op cores => commandSets_of_row fun s h => Laws.exec_levelDebug h op cores s
  case closureConfig => exact fun p a w i => commandStakes_of_row fun s h => Laws.exec_closureConfig h p a w i s
  case closureInject => exact fun s h d r htag hgives hlive => closureInject_starts htag hgives hlive
  case closureStatus => exact commandReads_of_row fun s h => Laws.exec_closureStatus h s
  case chainStart => exact fun cn => commandSets_of_row fun s h => Laws.exec_chainStart h cn s
  case parcelCreate => exact fun p sy c => commandStakes_of_row fun s h => Laws.exec_parcelCreate h p sy c s
  case parcelDestroy => exact fun p => commandStakes_of_row fun s h => Laws.exec_parcelDestroy h p s
  case parcelCores => exact fun p c e => commandStakes_of_row fun s h => Laws.exec_parcelCores h p c e s
  case parcelMap => exact fun p op e => commandStakes_of_row fun s h => Laws.exec_parcelMap h p op e s
  case parcelSegment => exact fun m a c => commandStakes_of_row fun s h => Laws.exec_parcelSegment h m a c s
  case parcelRetire => exact fun op pg => commandSets_of_row fun s h => Laws.exec_parcelRetire h op pg s
  case parcelVector => exact fun p v c => commandStakes_of_row fun s h => Laws.exec_parcelVector h p v c s
  case codeLoad => exact fun p f => commandSets_of_row fun s h => Laws.exec_codeLoad h p f s
  case codeMpatch =>
    exact fun s h img hgives himg hoff => row_replies (Laws.exec_codeMpatch h s) hgives (doCodeMpatch_executing himg hoff)
  case stationGrant => exact fun f c p q => commandStakes_of_row fun s h => Laws.exec_stationGrant h f c p q s
  case stationQuery => exact fun n => commandReads_of_row fun s h => Laws.exec_stationQuery h n s
  case stationBook => exact fun op b w0 w1 => commandStakes_of_row fun s h => Laws.exec_stationBook h op b w0 w1 s
  case mirrorResend => exact fun b => commandDoes_of_row (fun s h => Laws.exec_stationMirror h b 1 s) fun _ _ => rfl
  case mirrorKeep => exact fun b => commandSets_of_row fun s h => Laws.exec_stationMirror h b 0 s
  case stationTakeover => exact fun m j c ps => commandSets_of_row fun s h => Laws.exec_stationTakeover h m j c ps s
  case stationReconcile => exact fun k => commandDoes_of_row (fun s h => Laws.exec_stationReconcile h k s) fun _ _ => rfl
  case pathModid => exact fun id => commandSets_of_row fun s h => Laws.exec_pathModid h id s
  case pathPort => exact fun p c m r mc => commandSets_of_row fun s h => Laws.exec_pathPort h p c m r mc s
  case pathStatus => exact fun p => commandReads_of_row fun s h => Laws.exec_pathStatus h p s
  case pathAddr => exact fun i v hi lo => commandStakes_of_row fun s h => Laws.exec_pathAddr h i v hi lo s
  case pathGroup => exact fun g p hf ps => commandStakes_of_row fun s h => Laws.exec_pathGroup h g p hf ps s
  case pathLink => exact fun p l => commandStakes_of_row fun s h => Laws.exec_pathLink h p l s
  case keyInit => exact fun ws => commandSets_of_row fun s h => Laws.exec_keyInit h ws s
  case keyGenerate => exact fun n a ws => commandSets_of_row fun s h => Laws.exec_keyGenerate h n a ws s
  case keyImport => exact fun n k a b => commandSets_of_row fun s h => Laws.exec_keyImport h n k a b s
  case keyExport => exact fun n k => commandReads_of_row fun s h => Laws.exec_keyExport h n k s
  case keyAttr => exact fun n => commandReads_of_row fun s h => Laws.exec_keyAttr h n s
  case keyDelete => exact fun n => commandSets_of_row fun s h => Laws.exec_keyDelete h n s
  case keyZeroise => exact fun s h m hgives => row_replies_then (Laws.exec_keyZeroise h m s) hgives rfl

end Sys2Proof.Proofs.SahyaCommands
end

section
/-! Sahya's commands of the groups CIPHER to EXPERT (O55), by the rows that run them. -/
namespace Sys2Proof.Proofs.UnitCommands

open Sys2Proof.Machine Sys2Proof.Claims Sys2Proof.Proofs.SahyaCommands

/-- A Traverse die is asked at once (18 R518). -/
theorem doPowerDomain_die {s : State} {h : CmdHdr} {d on : Word} (hd : 48 ≤ d.toNat) :
    doPowerDomain h d on s none = (dieRequest s (domainDie d.toNat) (decide (on = 1)), some []) := by
  simp [doPowerDomain, hd]

/-- A domain of a unit that is not in service is asked at once (18 R518). -/
theorem doPowerDomain_idle {s : State} {h : CmdHdr} {d on : Word} (hd : d.toNat < 48)
    (hsvc : inServiceUnit s (domainOf d.toNat).1 = false) : doPowerDomain h d on s none =
      (domRequest s (domainOf d.toNat).1 (domainOf d.toNat).2 (decide (on = 1)) false (getUnit s (domainOf d.toNat).1).ucc, some []) := by
  have hunit : ¬ 48 ≤ d.toNat := by omega
  simp [doPowerDomain, hunit, hsvc]

/-- Settles O55: each command by the row that runs it. -/
theorem sahyaCommandsOnItsUnits : Obligations.SahyaCommandsOnItsUnits := by
  unfold Obligations.SahyaCommandsOnItsUnits
  refine ⟨?cipherPage, ?cipherChannel, ?cipherLock, ?cipherTest, ?memConfig, ?memBoard, ?memTrain, ?memFreq, ?lostRead, ?lostClear, ?memLog,
    ?memEcctest, ?memRetire, ?memCtl, ?memTiming, ?memQos, ?scrubRun, ?scrubCancel, ?faultConfig, ?faultRead, ?faultRoute,
    ?faultInject, ?bboxRead, ?bboxFreeze, ?bboxRelease, ?powerDomain, ?powerRead, ?powerThrottle, ?powerReset, ?calRead,
    ?calWrite, ?calCommit, ?imageWrite, ?imageVerify, ?imageActivate, ?imageCommit, ?imageRevoke, ?imageStatus, ?expertEnable,
    ?expertDisable⟩
  case cipherPage => exact fun p q c => commandStakes_of_row fun s h => Laws.exec_cipherPage h p q c s
  case cipherChannel => exact fun e n p c => commandStakes_of_row fun s h => Laws.exec_cipherChannel h e n p c s
  case cipherLock => exact fun e p => commandStakes_of_row fun s h => Laws.exec_cipherLock h e p s
  case cipherTest => exact fun a b => commandReads_of_row fun s h => Laws.exec_cipherTest h a b s
  case memConfig => exact fun ws => commandSets_of_row fun s h => Laws.exec_memConfig h ws s
  case memBoard => exact fun c r a b d => commandSets_of_row fun s h => Laws.exec_memBoard h c r a b d s
  case memTrain => exact commandReads_of_row fun s h => Laws.exec_memTrain h s
  case memFreq => exact fun f => commandSets_of_row fun s h => Laws.exec_memFreq h f s
  case lostRead => exact commandDoes_of_row (fun s h => Laws.exec_memLost h 0 s) fun _ _ => rfl
  case lostClear => exact commandDoes_of_row (fun s h => Laws.exec_memLost h 1 s) fun _ _ => rfl
  case memLog => exact commandDoes_of_row (fun s h => Laws.exec_memLog h 0 s) fun _ _ => rfl
  case memEcctest => exact fun u c e r => commandSets_of_row fun s h => Laws.exec_memEcctest h u c e r s
  case memRetire => exact fun c e => commandSets_of_row fun s h => Laws.exec_memRetire h c e s
  case memCtl => exact fun w hd => commandSets_of_row fun s h => Laws.exec_memCtl h w hd s
  case memTiming => exact fun w vs => commandSets_of_row fun s h => Laws.exec_memTiming h w vs s
  case memQos => exact fun p t r => commandSets_of_row fun s h => Laws.exec_memQos h p t r s
  case scrubRun => exact fun b l => commandDoes_of_row (fun s h => Laws.exec_scrubRun h b l s) fun _ _ => rfl
  case scrubCancel => exact commandStakes_of_row fun s h => Laws.exec_scrubCancel h s
  case faultConfig => exact fun a b c => commandSets_of_row fun s h => Laws.exec_faultConfig h a b c s
  case faultRead => exact fun n => commandReads_of_row fun s h => Laws.exec_faultRead h n s
  case faultRoute => exact fun c => commandSets_of_row fun s h => Laws.exec_faultRoute h c s
  case faultInject => exact fun n i => commandSets_of_row fun s h => Laws.exec_faultInject h n i s
  case bboxRead => exact fun f c => commandDoes_of_row (fun s h => Laws.exec_faultBbox h 0 f c s) fun _ _ => rfl
  case bboxFreeze => exact fun f c => commandDoes_of_row (fun s h => Laws.exec_faultBbox h 1 f c s) fun _ _ => rfl
  case bboxRelease => exact fun f c => commandDoes_of_row (fun s h => Laws.exec_faultBbox h 2 f c s) fun _ _ => rfl
  case powerDomain =>
    exact fun s h d on hgives => ⟨fun hd => row_replies (Laws.exec_powerDomain h d on s) hgives (doPowerDomain_die hd),
      fun hd hsvc => row_replies (Laws.exec_powerDomain h d on s) hgives (doPowerDomain_idle hd hsvc)⟩
  case powerRead => exact fun rd => commandReads_of_row fun s h => Laws.exec_powerRead h rd s
  case powerThrottle => exact fun m l => commandSets_of_row fun s h => Laws.exec_powerThrottle h m l s
  case powerReset =>
    intro s h k u hgives
    have hrow := row_replies_then (Laws.exec_powerReset h k u s) hgives rfl
    exact ⟨fun hk => hrow.trans (congrArg _ (if_neg hk)), fun hk => by
      subst hk
      exact hrow⟩
  case calRead => exact fun o c => commandReads_of_row fun s h => Laws.exec_calRead h o c s
  case calWrite => exact fun o ws => commandSets_of_row fun s h => Laws.exec_calWrite h o ws s
  case calCommit => exact fun m => commandSets_of_row fun s h => Laws.exec_calCommit h m s
  case imageWrite => exact fun n o ws => commandSets_of_row fun s h => Laws.exec_imageWrite h n o ws s
  case imageVerify =>
    exact fun s h n hgives _ hkind => (row_replies_then (Laws.exec_imageVerify h n s) hgives rfl).trans (congrArg _ (if_neg hkind))
  case imageActivate => exact fun n => commandSets_of_row fun s h => Laws.exec_imageActivate h n s
  case imageCommit => exact commandSets_of_row fun s h => Laws.exec_imageCommit h s
  case imageRevoke => exact fun g => commandSets_of_row fun s h => Laws.exec_imageRevoke h g s
  case imageStatus => exact commandReads_of_row fun s h => Laws.exec_imageStatus h s
  case expertEnable => exact commandDoes_of_row (fun s h => Laws.exec_expertEnable h s) fun _ _ => rfl
  case expertDisable => exact commandSets_of_row fun s h => Laws.exec_expertDisable h s

end Sys2Proof.Proofs.UnitCommands
end

section
/-! Cipher commands (O52): how a row of a mode starts, runs with its key, and completes; and the answers of the key store. -/
namespace Sys2Proof.Proofs.CipherCommands

open Sys2Proof.Machine Sys2Proof.Claims

@[simp] theorem pageOf_modPage (x : UnitState) (p : Nat) (f : CphPage → CphPage) : pageOf (modPage x p f) p = f (pageOf x p) :=
  Laws.tabGet_tabSet_same _ _ _ _

theorem pageOf_modPage_ne (x : UnitState) {p q : Nat} (f : CphPage → CphPage) (h : p ≠ q) : pageOf (modPage x p f) q = pageOf x q :=
  Laws.tabGet_tabSet_ne _ _ _ h

@[simp] theorem modPage_mem (x : UnitState) (p : Nat) (f : CphPage → CphPage) : (modPage x p f).mem = x.mem := rfl
@[simp] theorem modPage_keyQ (x : UnitState) (p : Nat) (f : CphPage → CphPage) : (modPage x p f).cph.keyQ = x.cph.keyQ := rfl

section Start
/-! GO at an idle page, and the run of the command that it latches (14 R408, R412 to R418). -/
variable {x : UnitState} {p : Nat}

/-- The page of an idle one after GO. -/
theorem pageOf_cphGo (h : (pageOf x p).busy = false) : pageOf (cphGo x p) p = { pageOf x p with
    cmd := (pageOf x p).args.toList, busy := true, done := none, waitKey := false, keyDone := false, drawn := 0, noCtx := false } := by
  simp [cphGo, h]

@[simp] theorem cphGo_keyQ (x : UnitState) (p : Nat) : (cphGo x p).cph.keyQ = x.cph.keyQ := rfl

/-- A row of the mode that an idle page's words name. -/
theorem cphMode_idle {s : State} {u : UnitId} {q : Fin 1024} {m : Nat} (hbusy : (pageOf (getUnit s u) q.val).busy = false)
    (hmode : (argCmd (getUnit s u) q.val).mode = m) : cphMode s u q m = setUnit s u (cphRun (cphGo (getUnit s u) q.val) q.val) := by
  have hword : bitsOf ((pageOf (getUnit s u) q.val).args.toList.getD 0 0) 0 4 = m := hmode
  simp only [cphMode, modUnit, hbusy, Bool.false_eq_true, if_false, if_pos hword]

/-- The page of a command that waits for the key bus, and its request in the queue (14 R408). -/
def keyAsked (x : UnitState) (p : Nat) (c : CphCmd) : UnitState :=
  let y := modPage x p (fun g => { g with waitKey := true })
  { y with cph := { y.cph with keyQ := x.cph.keyQ ++ [{ page := p, slot := c.slot, load := true, draw := cphDraws c }] } }

theorem pageOf_keyAsked (x : UnitState) (p : Nat) (c : CphCmd) : pageOf (keyAsked x p c) p = { pageOf x p with waitKey := true } :=
  pageOf_modPage x p fun g => { g with waitKey := true }

/-- A latched command with no key yet: its checks end it, or it waits for the key bus. -/
theorem cphRun_latched {g : CphPage} (hpage : pageOf x p = g) (hbusy : g.busy = true) (hdone : g.done = none) (hwait : g.waitKey = false)
    (hkey : g.keyDone = false) :
    (cphCheck x p g (latched x p) ≠ 0 → cphRun x p = cphFail x p (latched x p) (cphCheck x p g (latched x p))) ∧
    (cphCheck x p g (latched x p) = 0 → (latched x p).loadKey = true → cphRun x p = keyAsked x p (latched x p)) := by
  subst hpage
  constructor
  · intro hcheck
    simp [cphRun, hbusy, hdone, hwait, hkey, latched] at hcheck ⊢
    simp [hcheck]
  · intro hcheck hload
    simp [cphRun, hbusy, hdone, hwait, hkey, latched] at hcheck hload ⊢
    simp [hcheck, hload, keyAsked]

/-- What a failed command leaves in its page. -/
theorem pageOf_cphFail (x : UnitState) (p : Nat) (c : CphCmd) (code : Nat) : (pageOf (cphFail x p c code) p).busy = (pageOf x p).busy ∧
    (pageOf (cphFail x p c code) p).done = some (cphDone c code false false 0 0 0) := by
  rw [cphFail, pageOf_modPage]
  exact ⟨rfl, rfl⟩

/-- Every row that comes to `cphMode` of its mode starts so. -/
theorem cipherStarts_of_cphMode {row : UnitId → Fin 1024 → Instr} {m : Nat} (hx : ∀ s u p, exec (row u p) s = .next (cphMode s u p m)) :
    cipherStarts row m := by
  intro s u p x g c hbusy hmode
  have hpage := pageOf_cphGo (x := x) (p := p.val) hbusy
  have hcmd : latched (cphGo x p.val) p.val = c := by rw [latched, hpage]; rfl
  obtain ⟨hfails, hwaits⟩ := cphRun_latched hpage rfl rfl rfl rfl
  rw [hcmd] at hfails hwaits
  have hnext := (hx s u p).trans (congrArg _ (cphMode_idle hbusy hmode))
  refine ⟨fun hcheck => ⟨_, hnext, ?_⟩, fun hcheck hload => ⟨_, hnext, ?_⟩⟩
  · rw [hpage] at hcheck
    obtain ⟨hb, hd⟩ := pageOf_cphFail (cphGo x p.val) p.val c (cphCheck (cphGo x p.val) p.val _ c)
    rw [Laws.getUnit_setUnit, hfails hcheck]
    exact ⟨hb.trans (by rw [hpage]), by rw [hd, hpage]⟩
  · rw [hpage] at hcheck
    rw [Laws.getUnit_setUnit, hwaits hcheck hload]
    have hasked := pageOf_keyAsked (cphGo x p.val) p.val c
    exact ⟨by rw [hasked, hpage], by rw [hasked], rfl⟩

end Start

section Run
/-! The run of a latched command that holds its key (14 R416 to R422). -/
variable {x : UnitState} {p m : Nat} {k : HiddenKey} {par : BitVec 6} {ctx : BitVec 16}

theorem cphRun_keyed (h : keyed x p m k par ctx) : cphRun x p = (cphProcess x p (pageOf x p) (latched x p)).getD x := by
  obtain ⟨hbusy, hdone, hwait, hkeyDone, -⟩ := h
  simp [cphRun, hbusy, hdone, hwait, hkeyDone, latched]

/-- A row of the mode of a latched command that holds its key goes on with it. -/
theorem cphMode_keyed {s : State} {u : UnitId} {q : Fin 1024} {y : UnitState} (h : keyed (getUnit s u) q.val m k par ctx)
    (hproc : cphProcess (getUnit s u) q.val (pageOf (getUnit s u) q.val) (latched (getUnit s u) q.val) = some y) :
    cphMode s u q m = setUnit s u y := by
  have hrun := cphRun_keyed h
  obtain ⟨hbusy, -, -, -, -, -, hmode, -⟩ := h
  rw [hproc] at hrun
  have hmode' : (cphCmd (pageOf (getUnit s u) q.val).cmd).mode = m := hmode
  simp only [cphMode, modUnit, hbusy, if_true, if_pos hmode', hrun, Option.getD_some]

/-- The unit in which a whole message is processed: no context is open. -/
def ctxClosed (x : UnitState) (p : Nat) : UnitState := modPage x p (fun g => { g with ctx := none })

theorem cphProcess_kcv (h : keyed x p 0 k par ctx) : ∃ y, cphProcess x p (pageOf x p) (latched x p) = some y ∧
    (pageOf y p).done = some (cphDone (latched x p) 0 true false 0 (BitVec.ofNat 64 (beNat (kcvOf k.alg k.key) * 2 ^ 40)) 0) := by
  obtain ⟨-, -, -, -, hkey, howner, hmode, huse⟩ := h
  simp [cphProcess, hkey, howner, hmode, huse]

theorem cphProcess_kdf (h : keyed x p 7 k par ctx) (hseg : (latched x p).seg = 0) :
    cphProcess x p (pageOf x p) (latched x p) = cphKdf (ctxClosed x p) p par.toNat (latched x p) k := by
  obtain ⟨-, -, -, -, hkey, howner, hmode, huse⟩ := h
  simp [cphProcess, hkey, howner, hmode, huse, hseg, ctxClosed]

/-- The key that KDF derives stands in the target page, and the command is done (14 R421). -/
theorem cphKdf_derives {c : CphCmd} {y z : UnitState} {fi : List Byte} {q : Nat} (hread : dmaRead y 72 q c.aux c.auxLen = (z, fi, .ok))
    (hpage : c.tpage ≠ p) : ∃ w, cphKdf y p q c k = some w ∧ (pageOf w p).done = some (cphDone c 0 true false 0 0 0) ∧
      (pageOf w c.tpage).key = some
        { key := kdfKey k fi (dlenBits c.dlen), alg := 1 + c.dlen, use := k.duse.setWidth 5, duse := 0, extIv := k.extIv, fixed := k.fixed
          slot := k.slot, derived := true, retired := false } := by
  refine ⟨_, by rw [cphKdf, hread], ?_, ?_⟩
  · rw [pageOf_modPage]
  · rw [pageOf_modPage_ne _ _ hpage.symm, pageOf_modPage]

/-- A mode other than KCV and KDF processes its data where the length rules admit it. -/
theorem cphProcess_data (h : keyed x p m k par ctx) (h0 : m ≠ 0) (h7 : m ≠ 7) (hseg : (latched x p).seg = 0)
    (hlen : lenCode (latched x p) (freshCtx (latched x p) k (pageOf x p).drawn).len (latched x p).auxLen = 0) :
    cphProcess x p (pageOf x p) (latched x p) =
      cphData (ctxClosed x p) p par.toNat (latched x p) k (freshCtx (latched x p) k (pageOf x p).drawn) := by
  obtain ⟨-, -, -, -, hkey, howner, hmode, huse⟩ := h
  simp [cphProcess, hkey, howner, hmode, huse, hseg, hlen, h0, h7, ctxClosed]

/-- The page of a whole message that has run through its pipe with code 0 (14 R423). -/
def messageDone (x : UnitState) (p : Nat) (c : CphCmd) (t : CphCtx) (d : List Byte) : UnitState :=
  modPage x p (fun g => { g with
    done := some (cphDone c 0 true t.devIv d.length (BitVec.ofNat 64 (if t.devIv then t.ivWords.toNat / 2 ^ 64 else 0))
      (BitVec.ofNat 64 (if t.devIv then t.ivWords.toNat else 0)))
    keyDone := false, ctx := none })

/-- The data of a whole message whose accesses all succeed. -/
theorem cphData_completes {y x1 x2 x3 x4 : UnitState} {q : Nat} {c : CphCmd} {t0 t1 : CphCtx} {d : List Byte} {r : DmaRes} (hseg : c.seg = 0)
    (haad : cphAad y q c k t0 = (x1, t1, 0, .ok)) (hread : dmaRead x1 72 q c.src c.len = (x2, d, .ok))
    (hwrite : dmaWrite x2 72 q c.dst (pipeRun c k t1 d).1 = (x3, .ok))
    (htag : if c.mode = 4 ∨ c.mode = 5 ∨ c.mode = 6 ∨ c.mode = 12 then
      r ≠ .wait ∧ cphTag x3 q c (pipeTag c k (pipeRun c k t1 d).2) = (x4, 0, r) else x4 = x3) :
    cphData y p q c k t0 = some (messageDone x4 p c (pipeRun c k t1 d).2 d) := by
  by_cases htagged : c.mode = 4 ∨ c.mode = 5 ∨ c.mode = 6 ∨ c.mode = 12
  · rw [if_pos htagged] at htag
    obtain ⟨hr, htag⟩ := htag
    cases r
    case wait => exact absurd rfl hr
    all_goals simp [cphData, haad, hread, hwrite, hseg, htagged, htag, dmaCode, messageDone]
  · rw [if_neg htagged] at htag
    subst htag
    simp [cphData, haad, hread, hwrite, hseg, htagged, dmaCode, messageDone]

/-- Every row that comes to `cphMode` of a mode of the pipes runs a whole message so. -/
theorem cipherRuns_of_cphMode {row : UnitId → Fin 1024 → Instr} (hx : ∀ s u p, exec (row u p) s = .next (cphMode s u p m)) (h0 : m ≠ 0)
    (h7 : m ≠ 7) : cipherRuns row m := by
  intro s u p k par ctx x1 t1 x2 d x3 x4 r x c t0 hkeyed hseg hlen haad hread hwrite htag
  have hmode : c.mode = m := hkeyed.2.2.2.2.2.2.1
  rw [← hmode] at htag
  have hproc := (cphProcess_data hkeyed h0 h7 hseg hlen).trans (cphData_completes hseg haad hread hwrite htag)
  refine ⟨_, (hx s u p).trans (congrArg Host.Outcome.next (cphMode_keyed hkeyed hproc)), ?_⟩
  rw [Laws.getUnit_setUnit, messageDone, pageOf_modPage]
  exact ⟨rfl, rfl, rfl⟩

end Run

section Bus
/-! The key bus and the key store (14 R408 to R410). -/
variable {s : State}

theorem keyBusComplete_answers {u : UnitId} {t0 : KeyTxn} {r : List KeyTxn} (hq : (getUnit s u).cph.keyQ = t0 :: r) (keyErr : Bool) :
    exec (.keyBusComplete u keyErr) s =
      .next (pageKey (modUnit s u (fun x => { x with cph := { x.cph with keyQ := r } })) u t0 t0.page keyErr) := by
  rw [Laws.exec_keyBusComplete, execKeyBusComplete, hq]

theorem slotOf_setSlot (s : State) (n : Nat) (k : KeySlot) : slotOf (setSlot s n k) n = k := Laws.tabGet_tabSet_same _ _ _ _

variable {n : Nat} {chk : Word → Nat}

theorem keyAnswerFresh_denied (h : chk (slotOf s n).attrs ≠ 0) : keyAnswerFresh s n true chk = (s, chk (slotOf s n).attrs, 0) := if_pos h

theorem keyAnswerFresh_retired (h : chk (slotOf s n).attrs = 0) (hret : (slotOf s n).retired = true) :
    keyAnswerFresh s n true chk = (s, 5, 0) := by
  simp [keyAnswerFresh, h, hret]

/-- A counter that has run out retires its key. -/
theorem keyAnswerFresh_exhausted (h : chk (slotOf s n).attrs = 0) (hret : (slotOf s n).retired = false) (hctr : 2 ^ 64 ≤ (slotOf s n).ctr) :
    keyAnswerFresh s n true chk = (setSlot s n { slotOf s n with retired := true }, 6, 0) := by
  simp only [keyAnswerFresh, h, hret, if_pos hctr, ne_eq, not_true, if_false, Bool.not_true, Bool.false_eq_true]

/-- The state in which a counter value has been persisted: the slot's mark lies above it (14 R410). -/
def marked (s : State) (n ctr : Nat) : State :=
  let m := tabGet (fun _ => 0) s.keys.marks n
  if m ≤ ctr then { s with keys := { s.keys with marks := tabSet (fun _ => 0) s.keys.marks n (m + 2 ^ 20) } } else s

theorem keyAnswerFresh_draws (h : chk (slotOf s n).attrs = 0) (hret : (slotOf s n).retired = false) (hctr : (slotOf s n).ctr < 2 ^ 64) :
    keyAnswerFresh s n true chk =
      (setSlot (marked s n (slotOf s n).ctr) n { slotOf s n with ctr := (slotOf s n).ctr + 1 }, 0, (slotOf s n).ctr) := by
  simp only [keyAnswerFresh, h, hret, if_neg (Nat.not_le.2 hctr), ne_eq, not_true, if_false, Bool.not_true, Bool.false_eq_true, marked]

theorem marks_marked (s : State) (n ctr : Nat) : tabGet (fun _ => 0) (marked s n ctr).keys.marks n =
    if tabGet (fun _ => 0) s.keys.marks n ≤ ctr then tabGet (fun _ => 0) s.keys.marks n + 2 ^ 20 else tabGet (fun _ => 0) s.keys.marks n := by
  simp only [marked]
  split
  · rw [Laws.tabGet_tabSet_same]
  · rfl

end Bus

section Completion
/-! The completion record, and BUSY cleared (14 R423). -/
variable {s : State} {u : UnitId} {p : Fin 1024}

theorem cipherComplete_writes {d : CphDone} {par : BitVec 6} {ctx : BitVec 16} {x1 : UnitState}
    (hdone : (pageOf (getUnit s u) p.val).done = some d) (howner : (pageOf (getUnit s u) p.val).owner = some (par, ctx))
    (hrec : cphRecord (getUnit s u) par.toNat d = some x1) (hirq : d.irq = false) : exec (.cipherComplete u p) s =
      .next (setUnit s u (modPage x1 p.val (fun g => { g with busy := false, done := none, code := d.code }))) := by
  rw [Laws.exec_cipherComplete]
  simp [execCipherComplete, hdone, howner, hrec, hirq]

theorem cipherComplete_none (hdone : (pageOf (getUnit s u) p.val).done = none) : exec (.cipherComplete u p) s = .next s := by
  rw [Laws.exec_cipherComplete]
  simp [execCipherComplete, hdone]

end Completion

/-- Settles O52: the modes' rows by `cphMode`, the key bus and the completion by their lemmas. -/
theorem cipherCommands : Obligations.CipherCommands := by
  unfold Obligations.CipherCommands
  refine ⟨?starts, ?runs, ?kcv, ?kdf, ?bus, ?store, ?complete, ?nothing⟩
  case starts =>
    exact ⟨cipherStarts_of_cphMode fun s u p => Laws.exec_kcv u p s, cipherStarts_of_cphMode fun s u p => Laws.exec_aesCbcEnc u p s,
      cipherStarts_of_cphMode fun s u p => Laws.exec_aesCbcDec u p s, cipherStarts_of_cphMode fun s u p => Laws.exec_aesCtr u p s,
      cipherStarts_of_cphMode fun s u p => Laws.exec_aesGcmEnc u p s, cipherStarts_of_cphMode fun s u p => Laws.exec_aesGcmDec u p s,
      cipherStarts_of_cphMode fun s u p => Laws.exec_aesCmac u p s, cipherStarts_of_cphMode fun s u p => Laws.exec_aesKdf u p s,
      cipherStarts_of_cphMode fun s u p => Laws.exec_tdesEcbEnc u p s, cipherStarts_of_cphMode fun s u p => Laws.exec_tdesEcbDec u p s,
      cipherStarts_of_cphMode fun s u p => Laws.exec_tdesCbcEnc u p s, cipherStarts_of_cphMode fun s u p => Laws.exec_tdesCbcDec u p s,
      cipherStarts_of_cphMode fun s u p => Laws.exec_tdesMac3 u p s⟩
  case runs =>
    exact ⟨cipherRuns_of_cphMode (fun s u p => Laws.exec_aesCbcEnc u p s) (by decide) (by decide),
      cipherRuns_of_cphMode (fun s u p => Laws.exec_aesCbcDec u p s) (by decide) (by decide),
      cipherRuns_of_cphMode (fun s u p => Laws.exec_aesCtr u p s) (by decide) (by decide),
      cipherRuns_of_cphMode (fun s u p => Laws.exec_aesGcmEnc u p s) (by decide) (by decide),
      cipherRuns_of_cphMode (fun s u p => Laws.exec_aesGcmDec u p s) (by decide) (by decide),
      cipherRuns_of_cphMode (fun s u p => Laws.exec_aesCmac u p s) (by decide) (by decide),
      cipherRuns_of_cphMode (fun s u p => Laws.exec_tdesEcbEnc u p s) (by decide) (by decide),
      cipherRuns_of_cphMode (fun s u p => Laws.exec_tdesEcbDec u p s) (by decide) (by decide),
      cipherRuns_of_cphMode (fun s u p => Laws.exec_tdesCbcEnc u p s) (by decide) (by decide),
      cipherRuns_of_cphMode (fun s u p => Laws.exec_tdesCbcDec u p s) (by decide) (by decide),
      cipherRuns_of_cphMode (fun s u p => Laws.exec_tdesMac3 u p s) (by decide) (by decide)⟩
  case kcv =>
    intro s u p k par ctx x c hkeyed
    obtain ⟨y, hproc, hdone⟩ := cphProcess_kcv hkeyed
    refine ⟨_, (Laws.exec_kcv u p s).trans (congrArg Host.Outcome.next (cphMode_keyed hkeyed hproc)), ?_⟩
    rw [Laws.getUnit_setUnit]
    exact hdone
  case kdf =>
    intro s u p k par ctx x1 fi x c hkeyed hseg hpage hread _
    obtain ⟨y, hkdf, hdone, hkey⟩ := cphKdf_derives (k := k) hread hpage
    have hproc := (cphProcess_kdf hkeyed hseg).trans hkdf
    refine ⟨_, (Laws.exec_aesKdf u p s).trans (congrArg Host.Outcome.next (cphMode_keyed hkeyed hproc)), ?_⟩
    rw [Laws.getUnit_setUnit]
    exact ⟨hdone, hkey⟩
  case bus => exact fun s u keyErr r t0 hq => keyBusComplete_answers hq keyErr
  case store =>
    intro s n chk k
    refine ⟨keyAnswerFresh_denied, keyAnswerFresh_retired, fun h hret hctr => ⟨_, keyAnswerFresh_draws h hret hctr, ?_, ?_⟩,
      fun h hret hctr => ⟨_, keyAnswerFresh_exhausted h hret hctr, ?_⟩⟩
    · rw [slotOf_setSlot]
    · exact marks_marked s n k.ctr
    · rw [slotOf_setSlot]
  case complete =>
    intro s u p d par ctx x1 x hdone howner hrec hirq
    refine ⟨_, cipherComplete_writes hdone howner hrec hirq, ?_⟩
    rw [Laws.getUnit_setUnit, pageOf_modPage]
    exact ⟨rfl, rfl, rfl⟩
  case nothing => exact fun s u p hdone => cipherComplete_none hdone

end Sys2Proof.Proofs.CipherCommands
end

section
/-! The compression engines (O53): the engine's next job, its descriptor, its output and its end words. -/
namespace Sys2Proof.Proofs.CompressionJobs

open Sys2Proof.Machine Sys2Proof.Claims

/-- An engine after a change of it. -/
theorem cmp_modCmp (x : UnitState) (e : Fin 2) (f : CmpEngine → CmpEngine) : (modCmp x e f).cph.cmp.get e = f (x.cph.cmp.get e) :=
  Vector.getElem_set_self e.isLt

theorem cmpChan_modCmp {x : UnitState} {e : Fin 2} {f : CmpEngine → CmpEngine} (hf : ∀ g, (f g).chans = g.chans) (c : Nat) :
    cmpChan (modCmp x e f) e c = cmpChan x e c := by
  rw [cmpChan, cmp_modCmp, hf, cmpChan]

theorem cmpChan_modCmpChan (x : UnitState) (e : Fin 2) (c : Nat) (f : CmpChan → CmpChan) :
    cmpChan (modCmpChan x e c f) e c = f (cmpChan x e c) := by
  rw [cmpChan, modCmpChan, cmp_modCmp]
  exact Laws.tabGet_tabSet_same _ _ _ _

theorem cmpRun_takes {s : State} {u : UnitId} {e : Fin 2} {c op : Nat} {x1 : UnitState} (hidle : ((getUnit s u).cph.cmp.get e).job = none)
    (hnext : cmpNext (getUnit s u) e = some c) (hjob : cmpJob (getUnit s u) e c op = some x1) : cmpRun s u e op = setUnit s u x1 := by
  simp [cmpRun, hidle, hnext, hjob]

/-- Every row that comes to `cmpRun` of its OP takes the job of the next channel. -/
theorem jobTaken_of_cmpRun {row : UnitId → Fin 2 → Instr} {op : Nat} (hx : ∀ s u e, exec (row u e) s = .next (cmpRun s u e op)) :
    jobTaken row op :=
  fun s u e _ _ hidle hnext hjob => (hx s u e).trans (congrArg _ (cmpRun_takes hidle hnext hjob))

section Descriptor
/-! A descriptor of the row's OP that its checks refuse (14 R430). -/
variable {x x1 : UnitState} {e : Fin 2} {c op : Nat} {par : BitVec 6} {ctx : BitVec 16} {bs : List Byte}

/-- The unit with a channel's job begun. -/
def jobBegun (x : UnitState) (e : Fin 2) (c : Nat) : UnitState :=
  modCmpChan (modCmp x e (fun g => { g with last := c })) e c (fun g => { g with busy := true })

theorem cmpJob_wrongContext (howner : (cmpChan x e c).owner = some (par, ctx))
    (hread : dmaRead x 73 par.toNat (cmpDesc (cmpChan x e c)) 64 = (x1, bs, .ok))
    (hop : bitsOf ((bytesWords 8 bs).getD 0 (0 : Word)) 0 2 = op) (hctx : bitsOf ((bytesWords 8 bs).getD 0 (0 : Word)) 32 16 ≠ ctx.toNat) :
    cmpJob x e c op = some (cmpEnd (jobBegun x1 e c) e c (bytesWords 8 bs) 2 false 0 0 0) := by
  have hrow : ¬ (bitsOf ((bytesWords 8 bs).getD 0 (0 : Word)) 0 2 ≠ op ∧ bitsOf ((bytesWords 8 bs).getD 0 (0 : Word)) 0 2 < 2) :=
    fun h => h.1 hop
  simp only [cmpJob, howner, hread, if_neg hrow, if_pos hctx, jobBegun]

theorem cmpJob_badDescriptor (howner : (cmpChan x e c).owner = some (par, ctx))
    (hread : dmaRead x 73 par.toNat (cmpDesc (cmpChan x e c)) 64 = (x1, bs, .ok))
    (hop : bitsOf ((bytesWords 8 bs).getD 0 (0 : Word)) 0 2 = op) (hctx : bitsOf ((bytesWords 8 bs).getD 0 (0 : Word)) 32 16 = ctx.toNat)
    (hbad : cmpBad (bytesWords 8 bs) = true) :
    cmpJob x e c op = some (cmpEnd (jobBegun x1 e c) e c (bytesWords 8 bs) 1 false 0 0 0) := by
  have hrow : ¬ (bitsOf ((bytesWords 8 bs).getD 0 (0 : Word)) 0 2 ≠ op ∧ bitsOf ((bytesWords 8 bs).getD 0 (0 : Word)) 0 2 < 2) :=
    fun h => h.1 hop
  simp only [cmpJob, howner, hread, if_neg hrow, if_neg (not_not_intro hctx), if_pos hbad, jobBegun]

end Descriptor

section Output
/-! What a compression job puts out (14 R431). -/
variable {x : UnitState} {e : Fin 2} {c par : Nat} {ws : List Word} {inp hist : List Byte}

theorem cmpOut_bound (w0 : Word) : (cmpOut x e c w0 inp hist).1.length ≤ inp.length + 5 * ((inp.length + 16383) / 16384) + 64 :=
  List.length_take_le _ _

variable {r : List Byte × List Byte × Nat} (hr : cmpOut x e c (ws.getD 0 (0 : Word)) inp hist = r)
include hr

theorem cmpCompress_overflow (h : bitsOf (ws.getD 4 (0 : Word)) 0 32 < r.1.length) :
    cmpCompress x e c par ws inp hist = some (cmpEnd x e c ws 3 false 0 0 r.2.2) := by
  simp only [cmpCompress, hr, if_pos h]

theorem cmpCompress_writes {x1 x2 : UnitState} (h : r.1.length ≤ bitsOf (ws.getD 4 (0 : Word)) 0 32)
    (hdst : dmaWrite x 73 par (bitsOf (ws.getD 3 (0 : Word)) 0 52) r.1 = (x1, .ok))
    (hhist : dmaWrite x1 73 par (bitsOf (ws.getD 5 (0 : Word)) 0 52) (r.2.1.take (histLen (bitsOf (ws.getD 0 (0 : Word)) 7 5))) = (x2, .ok)) :
    cmpCompress x e c par ws inp hist = some (cmpEnd x2 e c ws 0 false r.1.length inp.length r.2.2) := by
  simp only [cmpCompress, hr, if_neg (Nat.not_lt.2 h), hdst, hhist]

end Output

section Rows
/-! The completion of a job and the ring register (14 R430, R433). -/
variable {s : State} {u : UnitId} {e : Fin 2}

/-- The unit after a job's end words are written: CMP_CONS counts and the engine is idle. -/
def jobEnded (x : UnitState) (e : Fin 2) (c : Nat) : UnitState :=
  modCmp (modCmpChan x e c (fun g => { g with cons := g.cons + 1, busy := false })) e (fun g => { g with job := none })

theorem jobComplete_ends {j : CmpJob} {par : BitVec 6} {ctx : BitVec 16} {x1 : UnitState} (hjob : ((getUnit s u).cph.cmp.get e).job = some j)
    (howner : (cmpChan (getUnit s u) e j.chan).owner = some (par, ctx))
    (hwrite : dmaWrite (getUnit s u) 73 par.toNat (j.descAddr + 48) (wordsBytes [j.w6, j.w7]) = (x1, .ok)) (hirq : j.irq = false) :
    exec (.jobComplete u e) s = .next (setUnit s u (jobEnded x1 e j.chan)) := by
  rw [Laws.exec_jobComplete]
  simp only [execJobComplete, hjob, howner, hwrite, hirq, Bool.false_eq_true, if_false, jobEnded]

theorem jobEnded_leaves (x : UnitState) (e : Fin 2) (c : Nat) : ((jobEnded x e c).cph.cmp.get e).job = none ∧
    (cmpChan (jobEnded x e c) e c).cons = (cmpChan x e c).cons + 1 ∧ (jobEnded x e c).mem = x.mem := by
  refine ⟨?_, ?_, rfl⟩
  · rw [jobEnded, cmp_modCmp]
  · rw [jobEnded, cmpChan_modCmp (f := fun g => { g with job := none }) fun _ => rfl, cmpChan_modCmpChan]

variable {c : Fin 16} {w : Word}

theorem cmpRingWrite_reserved (h : bitsOf w 5 7 ≠ 0 ∨ bitsOf w 52 12 ≠ 0) : exec (.cmpRingWrite u e c w) s = .fault .reservedWrite :=
  if_pos h

theorem cmpRingWrite_waits (h5 : bitsOf w 5 7 = 0) (h52 : bitsOf w 52 12 = 0) : exec (.cmpRingWrite u e c w) s =
    .next (modUnit s u (fun x => modCmpChan x e c (fun g => if g.prod = g.cons then { g with ring := w } else g))) := by
  rw [Laws.exec_cmpRingWrite]
  simp [execCmpRingWrite, h5, h52]

end Rows

end Sys2Proof.Proofs.CompressionJobs
end

section
/-! Mailbox channels (O53): what the stakes and notices of an access leave of the channels, and what each access makes of its channel. -/
namespace Sys2Proof.Proofs.MailboxAccesses

open Sys2Proof.Machine Sys2Proof.Claims Sys2Proof.Proofs.CompressionJobs

section Notices
/-! The stakes and notices that follow an access leave the channels (16 R463). -/

@[simp] theorem putFeed_mail (s : State) (k : Stake) (u : UnitId) : (Issue.putFeed s k u).mail = s.mail := by
  unfold Issue.putFeed
  split <;> simp

@[simp] theorem stakeSvcNow_mail (s : State) (stamp : Nat) (bk : Bool) (b : StakeBody) : (stakeSvcNow s stamp bk b).mail = s.mail := by
  simp [stakeSvcNow, Issue.feedUnits_eq]

@[simp] theorem issueSvc_mail (s : State) (fixed : Option Nat) (b : StakeBody) : (issueSvc s fixed b).mail = s.mail := by
  unfold issueSvc
  split
  · rfl
  · split
    · exact stakeSvcNow_mail _ _ _ _
    · rfl

@[simp] theorem issueFw_mail (s : State) (fixed : Option Nat) (b : StakeBody) : (issueFw s fixed b).mail = s.mail := by
  unfold issueFw
  split <;> simp

@[simp] theorem hostTo_mail (s : State) (n : Fin 64) (sd : Side) (notice : Bool) (ws : List Word) : (hostTo s n sd notice ws).mail = s.mail := by
  unfold hostTo
  split
  · rfl
  · split
    · simp [modBoth]
    · simp

@[simp] theorem noticeSide_mail (old : MbxChan) (n : Fin 64) (sd : Side) (s : State) : (noticeSide old n sd s).mail = s.mail := by
  unfold noticeSide
  split <;> simp

@[simp] theorem noticeBoth_mail (old : MbxChan) (n : Fin 64) (s : State) : (noticeBoth old n s).mail = s.mail := by
  simp [noticeBoth]

theorem mbxOf_of_mail {s t : State} (h : t.mail = s.mail) (n : Fin 64) : mbxOf t n = mbxOf s n := by
  rw [mbxOf, h, mbxOf]

@[simp] theorem mbxOf_setMbx (s : State) (n : Fin 64) (m : MbxChan) : mbxOf (setMbx s n m) n = m := Laws.tabGet_tabSet_same _ _ _ _

theorem sahyaSide_of_bind {m m' : MbxChan} (h : m'.bind = m.bind) : sahyaSide m' = sahyaSide m := by
  rw [sahyaSide, h, sahyaSide]

/-- Sahya neither reads nor answers on a channel without it (16 R460). -/
theorem pumpReply_others {s : State} {n : Fin 64} (h : sahyaSide (mbxOf s n) = none) : pumpReply s n = s := by
  simp [pumpReply, h]

theorem sahyaPoll_others {s : State} {n : Fin 64} (h : sahyaSide (mbxOf s n) = none) : sahyaPoll s n = s := by
  simp [sahyaPoll, h]

end Notices

/-- The channel after a message has been delivered to a side: its words are that side's last ones. -/
def delivered (m : MbxChan) (sd : Side) (ws : List Word) : MbxChan :=
  match sd with
  | .a => { m with lastA := ws }
  | .b => { m with lastB := ws }

theorem delivered_bind (m : MbxChan) (sd : Side) (ws : List Word) : (delivered m sd ws).bind = m.bind := by cases sd <;> rfl

theorem mbxOf_deliverMsg (s : State) (n : Fin 64) (sd : Side) (ws : List Word) :
    mbxOf (deliverMsg s n sd ws) n = delivered (mbxOf s n) sd ws :=
  (mbxOf_of_mail (hostTo_mail _ _ _ _ _) n).trans (mbxOf_setMbx _ _ _)

section Access
/-! An access of a side of a channel between two others than Sahya. -/
variable {s : State} {n : Fin 64} {mid : Nat} {sd : Side} {f : MbxChan → Side → MbxChan}

/-- An access that sends nothing leaves the channel as its own rule makes it. -/
theorem mbxOf_mbxAccess (hside : midSide (mbxOf s n) mid = some sd) (hsahya : sahyaSide (mbxOf s n) = none)
    (hbind : (f (mbxOf s n) sd).bind = (mbxOf s n).bind) (hsend : (f (mbxOf s n) sd).st = .full sd → (mbxOf s n).st = .full sd) :
    mbxOf (mbxAccess s n mid f) n = f (mbxOf s n) sd := by
  have hno : ¬ ((f (mbxOf s n) sd).st = .full sd ∧ (mbxOf s n).st ≠ .full sd ∧ sahyaSide (f (mbxOf s n) sd) ≠ some sd.other) :=
    fun h => h.2.1 (hsend h.1)
  have hchan : mbxOf (noticeBoth (mbxOf s n) n (setMbx s n (f (mbxOf s n) sd))) n = f (mbxOf s n) sd := by
    rw [mbxOf_of_mail (noticeBoth_mail _ _ _), mbxOf_setMbx]
  have hothers := (congrArg sahyaSide hchan).trans ((sahyaSide_of_bind hbind).trans hsahya)
  simp only [mbxAccess, hside, if_neg hno, sahyaPoll_others hothers, pumpReply_others hothers, hchan]

/-- An access that sends delivers the message to the other side. -/
theorem mbxOf_mbxAccess_sends (hside : midSide (mbxOf s n) mid = some sd) (hsahya : sahyaSide (mbxOf s n) = none)
    (hbind : (f (mbxOf s n) sd).bind = (mbxOf s n).bind) (hfull : (f (mbxOf s n) sd).st = .full sd) (hst : (mbxOf s n).st ≠ .full sd) :
    mbxOf (mbxAccess s n mid f) n =
      delivered (f (mbxOf s n) sd) sd.other ((f (mbxOf s n) sd).words.take (f (mbxOf s n) sd).len) := by
  have hnone : sahyaSide (f (mbxOf s n) sd) = none := (sahyaSide_of_bind hbind).trans hsahya
  have hsends : (f (mbxOf s n) sd).st = .full sd ∧ (mbxOf s n).st ≠ .full sd ∧ sahyaSide (f (mbxOf s n) sd) ≠ some sd.other :=
    ⟨hfull, hst, by simp [hnone]⟩
  have hchan : mbxOf (noticeSide (mbxOf s n) n sd (deliverMsg (setMbx s n (f (mbxOf s n) sd)) n sd.other
      ((f (mbxOf s n) sd).words.take (f (mbxOf s n) sd).len))) n =
      delivered (f (mbxOf s n) sd) sd.other ((f (mbxOf s n) sd).words.take (f (mbxOf s n) sd).len) := by
    rw [mbxOf_of_mail (noticeSide_mail _ _ _ _), mbxOf_deliverMsg, mbxOf_setMbx]
  have hothers := (congrArg sahyaSide hchan).trans ((sahyaSide_of_bind (delivered_bind _ _ _)).trans hnone)
  simp only [mbxAccess, hside, if_pos hsends, sahyaPoll_others hothers, pumpReply_others hothers, hchan]

end Access

section Flags
/-! The W1C flags of a side replaced. -/
variable (m : MbxChan) (sd : Side) (f : BitVec 3)

@[simp] theorem setMbxFlags_bind : (setMbxFlags m sd f).bind = m.bind := by cases sd <;> rfl
@[simp] theorem setMbxFlags_st : (setMbxFlags m sd f).st = m.st := by cases sd <;> rfl
@[simp] theorem setMbxFlags_words : (setMbxFlags m sd f).words = m.words := by cases sd <;> rfl
@[simp] theorem setMbxFlags_len : (setMbxFlags m sd f).len = m.len := by cases sd <;> rfl

end Flags

/-- A side whose flags are changed by `g`, in a channel that is otherwise as told. -/
theorem channelIs_setMbxFlags {t : State} {n : Fin 64} {m : MbxChan} {sd : Side} {g : BitVec 3 → BitVec 3}
    (h : mbxOf t n = setMbxFlags m sd (g (mbxFlags m sd))) :
    channelIs t n m.st m.words m.len (if sd = .a then g m.flagsA else m.flagsA) (if sd = .b then g m.flagsB else m.flagsB) := by
  rw [channelIs, h]
  cases sd <;> exact ⟨rfl, rfl, rfl, rfl, rfl⟩

theorem channelIs_of_mbxOf {t : State} {n : Fin 64} {m : MbxChan} (h : mbxOf t n = m) :
    channelIs t n m.st m.words m.len m.flagsA m.flagsB := by
  rw [channelIs, h]
  exact ⟨rfl, rfl, rfl, rfl, rfl⟩

theorem refusedAt_of_mbxOf {s t : State} {n : Fin 64} {sd : Side} (h : mbxOf t n = mbxRefuse (mbxOf s n) sd) : refusedAt s t n sd :=
  channelIs_setMbxFlags (g := (· ||| 4)) h

section Rules
/-! The access table (16 R461) at a bound channel. -/
variable {m : MbxChan} {sd : Side} {w : Word}

theorem mbxData_empty {i : Fin 16} (hen : bindEn m.bind = true) (h : m.st = .empty) :
    mbxData m sd i w = { m with st := .composing sd, words := setWord [] i.val w } := by
  simp [mbxData, hen, h]

theorem mbxData_composing {i : Fin 16} (hen : bindEn m.bind = true) (h : m.st = .composing sd) :
    mbxData m sd i w = { m with words := setWord m.words i.val w } := by
  simp [mbxData, hen, h]

theorem mbxData_refused {i : Fin 16} (hempty : m.st ≠ .empty) (hcomp : m.st ≠ .composing sd) : mbxData m sd i w = mbxRefuse m sd := by
  unfold mbxData
  split
  · rfl
  · split
    · next h => exact absurd h hempty
    · next y h =>
      have hy : y ≠ sd := by
        rintro rfl
        exact hcomp h
      exact if_neg hy
    · rfl

theorem mbxSendState_sends {len : Nat} (hen : bindEn m.bind = true) (h : m.st = .composing sd) (h1 : 1 ≤ len) (h16 : len ≤ 16) :
    mbxSendState m sd len = { m with st := .full sd, len := len } := by
  simp [mbxSendState, hen, h, h1, h16]

theorem mbxSendState_refused {len : Nat} (h : m.st ≠ .composing sd ∨ len = 0 ∨ 16 < len) : mbxSendState m sd len = mbxRefuse m sd := by
  have hno : ¬ (m.st = .composing sd ∧ 1 ≤ len ∧ len ≤ 16) := by
    rintro ⟨hst, h1, h16⟩
    rcases h with h | h
    · exact h hst
    · omega
  simp only [mbxSendState, Bool.and_eq_true, decide_eq_true_eq]
  exact if_neg fun hall => hno ⟨hall.1.2, hall.2⟩

theorem mbxCtl_take : mbxCtl m sd 1 = mbxTakeState m sd := rfl
theorem mbxCtl_recall : mbxCtl m sd 2 = mbxRecallState m sd := rfl

/-- The channel emptied. -/
def emptied (m : MbxChan) : MbxChan := { m with st := .empty, words := [], len := 0 }

theorem mbxTakeState_takes (hen : bindEn m.bind = true) (h : m.st = .full sd.other) :
    mbxTakeState m sd = setMbxFlags (emptied m) sd.other (mbxFlags (emptied m) sd.other ||| 1) := by
  simp only [mbxTakeState, hen, h, decide_true, Bool.and_self, if_true]
  cases sd <;> rfl

theorem mbxTakeState_refused (h : m.st ≠ .full sd.other) : mbxTakeState m sd = mbxRefuse m sd := by
  simp [mbxTakeState, h]

theorem mbxRecallState_recalls (hen : bindEn m.bind = true) (h : m.st = .composing sd ∨ m.st = .full sd) :
    mbxRecallState m sd = setMbxFlags (emptied m) sd (mbxFlags (emptied m) sd ||| 2) := by
  have hor : (decide (m.st = .composing sd) || decide (m.st = .full sd)) = true := by simpa using h
  simp only [mbxRecallState, hen, hor, Bool.and_self, if_true]
  cases sd <;> rfl

theorem mbxRecallState_refused (hcomp : m.st ≠ .composing sd) (hfull : m.st ≠ .full sd) : mbxRecallState m sd = mbxRefuse m sd := by
  simp [mbxRecallState, hcomp, hfull]

end Rules

section Rows
/-! The rows of the channels' pages (16 R461 to R464), each an access of its page. -/
variable {s : State} {n : Fin 64} {mid : BitVec 16} {sd : Side} {w : Word}

/-- A write that reaches a channel and sets no reserved bit. -/
theorem mbxRow_next {off : Nat} (hreach : mbxReaches s mid.toNat = true) (hres : ctlBadBits (.mbx n off) w = false) :
    mbxRow s n mid off w = .next (mbxWrite s n mid.toNat off w) := by
  simp [mbxRow, hreach, hres]

theorem mbxWrite_data (s : State) (n : Fin 64) (mid : Nat) (i : Fin 16) (w : Word) :
    mbxWrite s n mid (8 * i.val) w = mbxAccess s n mid (fun m sd => mbxData m sd i w) := by
  have hoff : 8 * i.val < 0x80 := by omega
  have hindex : 8 * i.val / 8 = i.val := by omega
  simp [mbxWrite, hoff, hindex]

theorem mbxWrite_send (s : State) (n : Fin 64) (mid : Nat) (w : Word) :
    mbxWrite s n mid 0x80 w = mbxAccess s n mid (fun m sd => mbxSendState m sd (bitsOf w 0 5)) := rfl

theorem mbxWrite_ctl (s : State) (n : Fin 64) (mid : Nat) (w : Word) :
    mbxWrite s n mid 0x88 w = mbxAccess s n mid (fun m sd => mbxCtl m sd w) := rfl

theorem mbxWrite_status (s : State) (n : Fin 64) (mid : Nat) (w : Word) :
    mbxWrite s n mid 0x90 w = mbxAccess s n mid (fun m sd => mbxClear m sd w) := rfl

/-- An access of a channel between two others than Sahya, by what its rule makes of the channel. -/
theorem mbxOf_access (hat : atChannel s n mid sd) {f : MbxChan → Side → MbxChan} {m' : MbxChan} (hf : f (mbxOf s n) sd = m')
    (hbind : m'.bind = (mbxOf s n).bind) (hsend : m'.st = .full sd → (mbxOf s n).st = .full sd) :
    mbxOf (mbxAccess s n mid.toNat f) n = m' := by
  obtain ⟨-, hside, -, hsahya⟩ := hat
  subst hf
  exact mbxOf_mbxAccess hside hsahya hbind hsend

/-- An access that its rule refuses sets REFUSED and nothing else. -/
theorem refusedAt_access (hat : atChannel s n mid sd) {f : MbxChan → Side → MbxChan} (hf : f (mbxOf s n) sd = mbxRefuse (mbxOf s n) sd) :
    refusedAt s (mbxAccess s n mid.toNat f) n sd :=
  refusedAt_of_mbxOf (mbxOf_access hat hf (setMbxFlags_bind _ _ _) fun h => (setMbxFlags_st _ _ _).symm.trans h)

theorem mbxDataWrite_leaves (hat : atChannel s n mid sd) {i : Fin 16} (hres : ctlBadBits (.mbx n (8 * i.val)) w = false) :
    let m := mbxOf s n
    ∃ t, exec (.mbxDataWrite n mid i w) s = .next t ∧
      (m.st = .empty → channelIs t n (.composing sd) (setWord [] i.val w) m.len m.flagsA m.flagsB) ∧
      (m.st = .composing sd → channelIs t n (.composing sd) (setWord m.words i.val w) m.len m.flagsA m.flagsB) ∧
      (m.st ≠ .empty → m.st ≠ .composing sd → refusedAt s t n sd) := by
  obtain ⟨hreach, -, hen, -⟩ := id hat
  refine ⟨_, (mbxRow_next hreach hres).trans (congrArg _ (mbxWrite_data s n mid.toNat i w)), fun h => ?_, fun h => ?_, fun hempty hcomp => ?_⟩
  · have hchan := mbxOf_access hat (f := fun m sd => mbxData m sd i w) (mbxData_empty hen h) rfl (by simp)
    exact channelIs_of_mbxOf hchan
  · have hchan := mbxOf_access hat (f := fun m sd => mbxData m sd i w) (mbxData_composing hen h) rfl (by simp [h])
    exact h ▸ channelIs_of_mbxOf hchan
  · exact refusedAt_access hat (mbxData_refused hempty hcomp)

theorem mbxSend_leaves (hat : atChannel s n mid sd) (hres : ctlBadBits (.mbx n 0x80) w = false) :
    let m := mbxOf s n
    let len := bitsOf w 0 5
    ∃ t, exec (.mbxSend n mid w) s = .next t ∧
      (m.st = .composing sd → 1 ≤ len → len ≤ 16 → channelIs t n (.full sd) m.words len m.flagsA m.flagsB ∧
        (if sd.other = .a then (mbxOf t n).lastA else (mbxOf t n).lastB) = m.words.take len) ∧
      ((m.st ≠ .composing sd ∨ len = 0 ∨ 16 < len) → refusedAt s t n sd) := by
  obtain ⟨hreach, hside, hen, hsahya⟩ := id hat
  refine ⟨_, (mbxRow_next hreach hres).trans (congrArg _ (mbxWrite_send s n mid.toNat w)), fun h h1 h16 => ?_, fun h => ?_⟩
  · have hsends := mbxSendState_sends hen h h1 h16
    have hchan := mbxOf_mbxAccess_sends (f := fun m sd => mbxSendState m sd (bitsOf w 0 5)) hside hsahya (by rw [hsends]) (by rw [hsends])
      (by simp [h])
    rw [hsends] at hchan
    rw [channelIs, hchan]
    cases sd <;> exact ⟨⟨rfl, rfl, rfl, rfl, rfl⟩, rfl⟩
  · exact refusedAt_access hat (mbxSendState_refused h)

theorem mbxTake_leaves (hat : atChannel s n mid sd) :
    let m := mbxOf s n
    ∃ t, exec (.mbxTake n mid) s = .next t ∧
      (m.st = .full sd.other → channelIs t n .empty [] 0 (if sd.other = .a then m.flagsA ||| 1 else m.flagsA)
        (if sd.other = .b then m.flagsB ||| 1 else m.flagsB)) ∧
      (m.st ≠ .full sd.other → refusedAt s t n sd) := by
  obtain ⟨hreach, -, hen, -⟩ := id hat
  refine ⟨_, (mbxRow_next hreach rfl).trans (congrArg _ (mbxWrite_ctl s n mid.toNat 1)), fun h => ?_, fun h => ?_⟩
  · exact channelIs_setMbxFlags (m := emptied (mbxOf s n)) (g := (· ||| 1))
      (mbxOf_access hat (mbxTakeState_takes hen h) (setMbxFlags_bind _ _ _) (by simp [emptied]))
  · exact refusedAt_access hat (mbxTakeState_refused h)

theorem mbxRecall_leaves (hat : atChannel s n mid sd) :
    let m := mbxOf s n
    ∃ t, exec (.mbxRecall n mid) s = .next t ∧
      ((m.st = .composing sd ∨ m.st = .full sd) → channelIs t n .empty [] 0 (if sd = .a then m.flagsA ||| 2 else m.flagsA)
        (if sd = .b then m.flagsB ||| 2 else m.flagsB)) ∧
      (m.st ≠ .composing sd → m.st ≠ .full sd → refusedAt s t n sd) := by
  obtain ⟨hreach, -, hen, -⟩ := id hat
  refine ⟨_, (mbxRow_next hreach rfl).trans (congrArg _ (mbxWrite_ctl s n mid.toNat 2)), fun h => ?_, fun hcomp hfull => ?_⟩
  · exact channelIs_setMbxFlags (m := emptied (mbxOf s n)) (g := (· ||| 2))
      (mbxOf_access hat (mbxRecallState_recalls hen h) (setMbxFlags_bind _ _ _) (by simp [emptied]))
  · exact refusedAt_access hat (mbxRecallState_refused hcomp hfull)

theorem mbxStatusClear_leaves (hat : atChannel s n mid sd) (hres : ctlBadBits (.mbx n 0x90) w = false) :
    let m := mbxOf s n
    ∃ t, exec (.mbxStatusClear n mid w) s = .next t ∧
      channelIs t n m.st m.words m.len (if sd = .a then m.flagsA &&& ~~~(BitVec.ofNat 3 (bitsOf w 8 3)) else m.flagsA)
        (if sd = .b then m.flagsB &&& ~~~(BitVec.ofNat 3 (bitsOf w 8 3)) else m.flagsB) :=
  ⟨_, (mbxRow_next hat.1 hres).trans (congrArg _ (mbxWrite_status s n mid.toNat w)),
    channelIs_setMbxFlags (g := (· &&& ~~~(BitVec.ofNat 3 (bitsOf w 8 3))))
      (mbxOf_access hat rfl (setMbxFlags_bind _ _ _) fun h => (setMbxFlags_st _ _ _).symm.trans h)⟩

end Rows

section Bindings
/-! Bindings, their lock, and the function level reset (16 R465, R475). -/
variable {s : State} {n : Fin 64} {w : Word}

theorem mbxBindWrite_next (hres : bitsOf w 49 15 = 0) : exec (.mbxBindWrite n w) s = .next (bindWrite s n w) := if_neg (not_not_intro hres)

theorem bindWrite_refused (h : s.mail.lock = true ∨ bindTaken w = false) : bindWrite s n w = s := by
  rcases h with h | h <;> simp [bindWrite, h]

theorem bindWrite_off (hlock : s.mail.lock = false) (htaken : bindTaken w = true) (hoff : isOff s = true) :
    bindWrite s n w = cfgBind (cfgBind s .u0 n w) .u1 n w := by
  simp [bindWrite, hlock, htaken, hoff]

theorem bindWrite_staked (hlock : s.mail.lock = false) (htaken : bindTaken w = true) (hoff : isOff s = false) :
    bindWrite s n w = issueSvc s (some (boundaryStamp s)) (.cfg (.mbxBind n w)) := by
  simp [bindWrite, hlock, htaken, hoff]

theorem mbxLockWrite_next (hres : bitsOf w 1 63 = 0) : exec (.mbxLockWrite w) s = .next (lockWrite s w) := if_neg (not_not_intro hres)

theorem lockWrite_first (h : s.mail.lockWritten = false) :
    lockWrite s w = { s with mail := { s.mail with lock := bitOf w 0, lockWritten := true } } := by
  simp [lockWrite, h]

theorem lockWrite_again (h : s.mail.lockWritten = true) : lockWrite s w = s := if_pos h

variable {mid : Nat}

theorem recallOf_other (h : midSide (mbxOf s n) mid = none) : recallOf mid s n = s := by
  simp [recallOf, h]

theorem recallOf_own {sd : Side} (h : midSide (mbxOf s n) mid = some sd) (hst : (mbxOf s n).st = .composing sd ∨ (mbxOf s n).st = .full sd) :
    recallOf mid s n = mbxAccess s n mid mbxRecallState := by
  simp only [recallOf, h, if_pos hst]

/-- A function on no channel has nothing to recall. -/
theorem foldl_recallOf_other (h : ∀ n, midSide (mbxOf s n) mid = none) (l : List (Fin 64)) : l.foldl (recallOf mid) s = s :=
  List.foldlRecOn (motive := fun t => t = s) l _ rfl fun t ht k _ => by
    subst ht
    exact recallOf_other (h k)

end Bindings

/-- Settles O53: the compression engines and the mailbox channels, each clause by the lemma of its row. -/
theorem compressionAndMailboxes : Obligations.CompressionAndMailboxes := by
  unfold Obligations.CompressionAndMailboxes
  refine ⟨jobTaken_of_cmpRun fun s u e => Laws.exec_compress u e s, jobTaken_of_cmpRun fun s u e => Laws.exec_decompress u e s, ?descriptor,
    ?output, ?complete, ?ring, ?data, ?send, ?take, ?recalled, ?clear, ?bind, ?lock, ?lockReserved, ?noReset, ?recalls, ?reset⟩
  case descriptor =>
    intro x e c op par ctx x1 bs g ws y howner hread hop
    exact ⟨cmpJob_wrongContext howner hread hop, cmpJob_badDescriptor howner hread hop⟩
  case output =>
    intro x e c par ws inp hist r
    exact ⟨cmpOut_bound _, cmpCompress_overflow rfl, fun h x1 x2 => cmpCompress_writes rfl h⟩
  case complete =>
    intro s u e j par ctx x1 x hjob howner hwrite hirq
    refine ⟨_, jobComplete_ends hjob howner hwrite hirq, ?_⟩
    rw [Laws.getUnit_setUnit]
    exact jobEnded_leaves x1 e j.chan
  case ring =>
    intro s u e c w g
    refine ⟨cmpRingWrite_reserved, fun h5 h52 => ⟨_, cmpRingWrite_waits h5 h52, ?_⟩⟩
    rw [Laws.getUnit_modUnit, cmpChan_modCmpChan, apply_ite CmpChan.ring]
  case data => exact fun s n mid sd i w hat hres => mbxDataWrite_leaves hat hres
  case send => exact fun s n mid sd w hat hres => mbxSend_leaves hat hres
  case take => exact fun s n mid sd hat => mbxTake_leaves hat
  case recalled => exact fun s n mid sd hat => mbxRecall_leaves hat
  case clear => exact fun s n mid sd w hat hres => mbxStatusClear_leaves hat hres
  case bind =>
    intro s n w hres
    exact ⟨fun h => (mbxBindWrite_next hres).trans (congrArg _ (bindWrite_refused h)),
      fun hlock htaken hoff => (mbxBindWrite_next hres).trans (congrArg _ (bindWrite_off hlock htaken hoff)),
      fun hlock htaken hoff => (mbxBindWrite_next hres).trans (congrArg _ (bindWrite_staked hlock htaken hoff))⟩
  case lock =>
    intro s w hres
    exact ⟨fun h => (mbxLockWrite_next hres).trans (congrArg _ (lockWrite_first h)),
      fun h => (mbxLockWrite_next hres).trans (congrArg _ (lockWrite_again h))⟩
  case lockReserved => exact fun s w hres => if_pos hres
  case noReset => exact fun s fn h => congrArg Host.Outcome.next (foldl_recallOf_other h _)
  case recalls => exact fun s n fn sd h hst => recallOf_own h hst
  case reset => exact fun s fn => rfl

end Sys2Proof.Proofs.MailboxAccesses
end

section
/-! Fieldbook and mirror (O46): a fieldbook write that ends leaves its own bytes durable, a read is counted and raised, and the mirror's
bookkeeping of a book rests on nothing that the book's own entry holds. -/
namespace Sys2Proof.Proofs.FieldbookEnds

open Sys2Proof.Machine

-- the end of a write (13 R400)
/-- A write that ends before its third failure costs no spare and is not bad. -/
theorem fbFinish_early (x : UnitState) (w : FbWrite) {fails : Nat} (h : fails < 2) : (fbFinish x w fails).2 = false := by
  simp [fbFinish, show ¬ 4 ≤ fails by omega, show ¬ 2 ≤ fails by omega]

theorem fbFinish_early_mem (x : UnitState) (w : FbWrite) {fails : Nat} (h : fails < 2) :
    (fbFinish x w fails).1.fb.mem = tabSetList byteDef x.fb.mem w.off w.bytes := by
  simp [fbFinish, show ¬ 4 ≤ fails by omega, show ¬ 2 ≤ fails by omega]

theorem fbFinish_early_wretry (x : UnitState) (w : FbWrite) {fails : Nat} (h : fails < 2) :
    (fbFinish x w fails).1.fb.wretry = satUp x.fb.wretry (decide (1 ≤ fails)) := by
  simp [fbFinish, show ¬ 4 ≤ fails by omega, show ¬ 2 ≤ fails by omega]

theorem fbFinish_early_queues (x : UnitState) (w : FbWrite) {fails : Nat} (h : fails < 2) :
    (fbFinish x w fails).1.fb.flight = x.fb.flight ∧ (fbFinish x w fails).1.fb.waiting = x.fb.waiting := by
  simp [fbFinish, show ¬ 4 ≤ fails by omega, show ¬ 2 ≤ fails by omega]

theorem fbPromote_idle {x : UnitState} (h : x.fb.waiting = []) : fbPromote x = x := by
  simp [fbPromote, h]

/-- The oldest write in flight taken from it. -/
def fbTaken (x : UnitState) (r : List FbWrite) : UnitState := { x with fb := { x.fb with flight := r } }

/-- The write's end, where nothing waits behind it and nothing for it. -/
theorem execFbWriteComplete_ends {s s1 : State} {u : UnitId} {w : FbWrite} {r : List FbWrite} {fails : Fin 5}
    (hf : (getUnit s u).fb.flight = w :: r) (hw : (getUnit s u).fb.waiting = []) (hc : w.cont = .nothing) (hn : fails.val < 2)
    (ht : timeTo s u w.due = some s1) :
    execFbWriteComplete u fails s = .next (setUnit s1 u (fbFinish (fbTaken (getUnit s1 u) r) w fails).1) := by
  have hwait : (fbFinish (fbTaken (getUnit s1 u) r) w fails).1.fb.waiting = [] := by
    rw [(fbFinish_early_queues _ w hn).2, Outputs.timeTo_some ht, Laws.getUnit_modUnit]
    exact hw
  simp only [execFbWriteComplete, hf, ht]
  rw [show ({ getUnit s1 u with fb := { (getUnit s1 u).fb with flight := r } } : UnitState) = fbTaken (getUnit s1 u) r from rfl,
    fbFinish_early _ w hn, fbPromote_idle hwait, hc]
  rfl

-- a read's errors (13 R401)
theorem execFbReadReturn_clean {s : State} {u : UnitId} {off : BitVec 33} (h : fbUnreadable (getUnit s u) off.toNat 64 = false) :
    execFbReadReturn u off .clean s = .next s := by
  simp [execFbReadReturn, h]

/-- An entry of the log leaves the stack's counts. -/
theorem fbLog_counts (x : UnitState) (kind off : Nat) :
    (fbLog x kind off).fb.ce = x.fb.ce ∧ (fbLog x kind off).fb.ue = x.fb.ue := by
  unfold fbLog
  split <;> exact ⟨rfl, rfl⟩

theorem execFbReadReturn_ce {s : State} {u : UnitId} {off : BitVec 33} (h : fbUnreadable (getUnit s u) off.toNat 64 = false) :
    ∃ s1, execFbReadReturn u off .ce s = .next (raiseUnitFree s1 u 0x210) ∧
      (getUnit s1 u).fb.ce = satUp (getUnit s u).fb.ce true := by
  refine ⟨_, by simp only [execFbReadReturn, h, Bool.false_eq_true, if_false]; rfl, ?_⟩
  rw [Laws.getUnit_modUnit, (fbLog_counts _ _ _).1]

theorem execFbReadReturn_ue (s : State) (u : UnitId) (off : BitVec 33) :
    ∃ s1, execFbReadReturn u off .ue s = .next (raiseUnitFree s1 u 0x208) ∧
      (getUnit s1 u).fb.ue = satUp (getUnit s u).fb.ue true := by
  refine ⟨_, by simp only [execFbReadReturn, ite_self]; rfl, ?_⟩
  rw [Laws.getUnit_modUnit, (fbLog_counts _ _ _).2]

-- a mirror message at its sink (05 R158)
section Received
variable {s s1 : State} {u : UnitId} {n : StationId} {m : MirrorMsg}
  (hopen : (stnS s u n).st = .opened) (hsink : stnMsink (stnS s u n) = true) (htake : hwTake s u n = some s1)
include hopen hsink htake

theorem execMirrorMessageReceive_bookless (hb : mirrorBook (getUnit s1 u) m = none) :
    execMirrorMessageReceive u n m s = .next (discOther s1 u n) := by
  simp [execMirrorMessageReceive, hopen, hsink, htake, hb]

theorem execMirrorMessageReceive_booked {b : Nat} (hb : mirrorBook (getUnit s1 u) m = some b) :
    execMirrorMessageReceive u n m s = .next ((mirrorTake s1 u n b m).getD s) := by
  simp [execMirrorMessageReceive, hopen, hsink, htake, hb]

end Received

-- a confirmation (05 R159)
theorem mirrorOf_fbEngPut (x : UnitState) (eng off : Nat) (bs : List Byte) (k : FbCont) (b : Nat) :
    mirrorOf (fbEngPut x eng off bs k) b = mirrorOf x b := by
  simp only [fbEngPut, fbPut, fbAccept]
  split <;> rfl

theorem mirrorOf_modMirror (x : UnitState) (b : Nat) (f : MirrorBk → MirrorBk) : mirrorOf (modMirror x b f) b = f (mirrorOf x b) :=
  Laws.tabGet_tabSet_same _ _ _ _

/-- What a confirmation makes of the sending unit: the book's confirmed BSN, the messages that it ends, and MIRROR_LOST over when none is
left (05 R159, R160). -/
def confirmed (n b confBsn confMseq : Nat) (x : UnitState) : UnitState :=
  let x := if mconfBsn x b < confBsn then bookPut x (stnEng n) b (fun i w => if i = 6 then BitVec.ofNat 64 confBsn else w) else x
  let x := modMirror x b (fun k => { k with unconf := k.unconf.filter (fun p => decide (confMseq < p.1)) })
  if (mirrorOf x b).unconf.isEmpty then { x with fb := { x.fb with mlost := withBit x.fb.mlost b false } } else x

theorem unconf_confirmed (n b confBsn confMseq : Nat) (x : UnitState) : (mirrorOf (confirmed n b confBsn confMseq x) b).unconf =
    (mirrorOf x b).unconf.filter (fun p => decide (confMseq < p.1)) := by
  have hput : ∀ y : UnitState, mirrorOf (if mconfBsn y b < confBsn then
      bookPut y (stnEng n) b (fun i w => if i = 6 then BitVec.ofNat 64 confBsn else w) else y) b = mirrorOf y b := by
    intro y
    split
    · exact mirrorOf_fbEngPut ..
    · rfl
  have hlost : ∀ (y : UnitState) (c : Bool), mirrorOf (if c then { y with fb := { y.fb with mlost := withBit y.fb.mlost b false } } else y) b =
      mirrorOf y b := by
    intro y c
    cases c <;> rfl
  unfold confirmed
  rw [hlost, mirrorOf_modMirror, hput]

theorem execConfirmationReceive_taken {s s1 : State} {u : UnitId} {book : BitVec 8} (confBsn confMseq : Nat)
    (hm : bookMirrored (getUnit s u) book.toNat = true) (hst : (stnS s u (bookMstn (getUnit s u) book.toNat)).st = .opened)
    (ht : hwTake s u (bookMstn (getUnit s u) book.toNat) = some s1) :
    let s2 := modUnit s1 u (confirmed (bookMstn (getUnit s u) book.toNat) book.toNat confBsn confMseq)
    execConfirmationReceive u book confBsn confMseq s =
      .next ((confirmStns u book.toNat (liveStns (getUnit s2 u)) s2).getD s) := by
  simp only [execConfirmationReceive, hm, hst, ht, Bool.not_true, Bool.false_eq_true, ne_eq, not_true_eq_false, or_self, if_false]
  rfl

-- MIRROR_LOST (05 R160)
/-- A book marked as in MIRROR_LOST. -/
def markLost (b : Nat) (x : UnitState) : UnitState := { x with fb := { x.fb with mlost := withBit x.fb.mlost b true } }

theorem bookLost_markLost {b : Nat} (hb : b < 256) (x : UnitState) : bookLost (markLost b x) b = true := by
  have h := Generator.bitOf_withBit x.fb.mlost hb b true
  rwa [if_pos rfl] at h

/-- With no station to tell, MIRROR_LOST is the book's mark alone. -/
theorem enterLost_untold {s : State} {u : UnitId} {b : Nat} (hl : bookLost (getUnit s u) b = false) (hs : liveStns (getUnit s u) = []) :
    enterLost s u b = some (modUnit s u (markLost b)) := by
  have hlive : liveStns (getUnit (modUnit s u (markLost b)) u) = [] := by
    rw [Laws.getUnit_modUnit]
    exact hs
  unfold enterLost
  rw [hl]
  unfold markLost at hlive
  simp only [Bool.false_eq_true, if_false, hlive, List.foldl_nil, tellLost]
  rfl

theorem execMirrorLostTimeout_late {s : State} {u : UnitId} {book : BitVec 8} (hm : bookMirrored (getUnit s u) book.toNat = true)
    (hlate : (mirrorOf (getUnit s u) book.toNat).unconf.any (fun p => decide (p.2 + 4096 ≤ (getUnit s u).cn)) = true) :
    execMirrorLostTimeout u book s = .next ((enterLost s u book.toNat).getD s) := by
  simp only [execMirrorLostTimeout, hm, hlate, Bool.true_or, Bool.not_true, Bool.false_eq_true, or_self, if_false]

/-- Settles O46: a write's end by `fbFinish`, a read by its outcome, a mirror message by its book; a confirmation by what it leaves
unconfirmed, and a late mirror by the book's mark. -/
theorem fieldbookAndMirror : Obligations.FieldbookAndMirror := by
  unfold Obligations.FieldbookAndMirror
  refine ⟨?write, ?read, ?message, ?confirmation, ?lost⟩
  case write =>
    intro s s1 u w r fails hflight hwaiting hcont hfails htime
    have hfb : (getUnit s1 u).fb = (getUnit s u).fb := by
      rw [Outputs.timeTo_some htime, Laws.getUnit_modUnit]
    refine ⟨_, (Laws.exec_fbWriteComplete u fails s).trans (execFbWriteComplete_ends hflight hwaiting hcont hfails htime), ?_⟩
    rw [Laws.getUnit_setUnit, (fbFinish_early_queues _ w hfails).1, fbFinish_early_mem _ w hfails, fbFinish_early_wretry _ w hfails,
      fbTaken, hfb]
    exact ⟨rfl, fun n => Laws.tabGet_tabSetList byteDef w.bytes _ w.off n 0, rfl⟩
  case read =>
    intro s u off
    refine ⟨fun hread => ⟨?_, ?_⟩, ?_⟩
    · rw [Laws.exec_fbReadReturn, execFbReadReturn_clean hread]
    · rw [Laws.exec_fbReadReturn]
      exact execFbReadReturn_ce hread
    · rw [Laws.exec_fbReadReturn]
      exact execFbReadReturn_ue s u off
  case message =>
    intro s s1 u n m hopen hsink htake
    refine ⟨fun hb => ?_, fun b t hb hmt => ?_⟩
    · rw [Laws.exec_mirrorMessageReceive, execMirrorMessageReceive_bookless hopen hsink htake hb]
    · rw [Laws.exec_mirrorMessageReceive, execMirrorMessageReceive_booked hopen hsink htake hb, hmt, Option.getD_some]
  case confirmation =>
    intro s s1 u book confBsn confMseq hm hst htake
    refine ⟨_, (Laws.exec_confirmationReceive ..).trans (execConfirmationReceive_taken confBsn confMseq hm hst htake), ?_⟩
    rw [Laws.getUnit_modUnit, unconf_confirmed]
  case lost =>
    intro s u book hm hlate hnot hstns
    refine ⟨_, (Laws.exec_mirrorLostTimeout ..).trans (execMirrorLostTimeout_late hm hlate), ?_⟩
    rw [enterLost_untold hnot hstns, Option.getD_some, Laws.getUnit_modUnit, bookLost_markLost book.isLt]

end Sys2Proof.Proofs.FieldbookEnds
end

section
/-! The DRAM controllers (O51): a controller's state after a change of it or of another one, what each command does to it, and the walks
over the twelve controllers. -/
namespace Sys2Proof.Proofs.Controllers

open Sys2Proof.Machine

-- a controller changed
@[simp] theorem mcOf_modMc (x : UnitState) (c : Fin 12) (f : McState → McState) : mcOf (modMc x c f) c = f (mcOf x c) :=
  Vector.getElem_set_self c.isLt

theorem mcOf_modMc_ne (x : UnitState) {c d : Fin 12} (f : McState → McState) (h : d ≠ c) : mcOf (modMc x c f) d = mcOf x d :=
  Vector.getElem_set_ne c.isLt d.isLt (fun e => h (Fin.ext e.symm))

@[simp] theorem mcReg_setMcReg (x : UnitState) (c : Fin 12) (o : Nat) (w : Word) : mcReg (setMcReg x c o w) c o = w := by
  rw [mcReg, setMcReg, mcOf_modMc, Laws.tabGet_tabSet_same]

theorem mcOf_setMcReg_ne (x : UnitState) {c d : Fin 12} (o : Nat) (w : Word) (h : d ≠ c) : mcOf (setMcReg x c o w) d = mcOf x d :=
  mcOf_modMc_ne x _ h

/-- A register's value is no part of what else the controller holds. -/
theorem mcOf_setMcReg (x : UnitState) (c : Fin 12) (o : Nat) (w : Word) :
    mcOf (setMcReg x c o w) c = { mcOf x c with regs := tabSet (mcReset c.val) (mcOf x c).regs o w } := mcOf_modMc x c _

-- scheduling (12 R362 to R368)
theorem openRowOf_setRow (m : McState) (bank : Nat) (r : Option Nat) : openRowOf (setRow m bank r) bank = r := by
  rw [openRowOf, setRow, Laws.tabGet_tabSet_same]

theorem issued_admitReads (x : UnitState) (n : Nat) (m : McState) : (admitReads x n m).issued = m.issued := by
  induction n generalizing m with
  | zero => rfl
  | succ n ih =>
    rw [admitReads]
    split
    · rfl
    · rw [ih]

theorem wq_admitReads (x : UnitState) (n : Nat) (m : McState) : (admitReads x n m).wq = m.wq := by
  induction n generalizing m with
  | zero => rfl
  | succ n ih =>
    rw [admitReads]
    split
    · rfl
    · rw [ih]

/-- Reads leave their ports, and nothing comes to them. -/
theorem blocked_admitReads (x : UnitState) (n : Nat) (m : McState) : ∀ q ∈ (admitReads x n m).blocked, q ∈ m.blocked := by
  induction n generalizing m with
  | zero => exact fun _ h => h
  | succ n ih =>
    rw [admitReads]
    split
    · exact fun _ h => h
    · exact fun q h => List.mem_of_mem_erase (ih _ q h)

section Issued
variable (s : State) (u : UnitId) (c : Fin 12) (now : Nat) (r : McReq)

theorem openRow_issueCmd_activate : openRowOf (mcOf (getUnit (issueCmd s u c now r .activate) u) c) r.bank = some r.row := by
  rw [issueCmd, Laws.getUnit_modUnit, mcOf_modMc, openRowOf_setRow]

theorem openRow_issueCmd_precharge : openRowOf (mcOf (getUnit (issueCmd s u c now r .precharge) u) c) r.bank = none := by
  rw [issueCmd, Laws.getUnit_modUnit, mcOf_modMc, openRowOf_setRow]

theorem issued_issueCmd_read : { r with since := now } ∈ (mcOf (getUnit (issueCmd s u c now r .read) u) c).issued := by
  rw [issueCmd, Laws.getUnit_modUnit, mcOf_modMc, issued_admitReads]
  exact List.mem_append_right _ (List.mem_singleton.2 rfl)

end Issued

theorem execDramCommandIssue_first {s s1 : State} {u : UnitId} {c : Fin 12} {now : Nat} {cs : List (Nat × DramCmd)} {e : McReq × DramCmd}
    (ht : timeTo s u now = some s1) (hopen : channelOpen (getUnit s1 u) c now = true)
    (hfirst : firstCandidate s1 (getUnit s1 u) c now
      ((cs.filterMap (fun e => ((queued (mcOf (getUnit s1 u) c))[e.1]?).map (fun r => (r, e.2)))).filter
        (fun e => candidateOk s1 (getUnit s1 u) c now e.1 e.2)) = some e) :
    execDramCommandIssue u c now cs s = .next (issueCmd s1 u c now e.1 e.2) := by
  simp only [execDramCommandIssue, ht, hopen, hfirst, Bool.not_true, Bool.false_eq_true, if_false]

/-- A blocked write enters its queue, and the reads behind it follow (12 R362). -/
def writeTaken (c : Fin 12) (r : McReq) (x : UnitState) : UnitState :=
  modMc x c (fun m =>
    let m := admitReads x m.blocked.length { m with wq := m.wq ++ [accepted x m r], blocked := m.blocked.erase r, num := m.num + 1 }
    { m with drain := m.drain || decide (bitsOf (tabGet (mcReset c.val) m.regs 0x060) 0 8 ≤ m.wq.length) })

theorem execWriteAccept_room {s : State} {u : UnitId} {c : Fin 12} {r : McReq}
    (hh : portHead (mcOf (getUnit s u) c) true (fun _ => true) = some r) (hw : (mcOf (getUnit s u) c).wq.length < 128) :
    execWriteAccept u c s = .next (modUnit s u (writeTaken c r)) := by
  simp only [execWriteAccept, hh, if_neg (Nat.not_le.2 hw)]
  rfl

theorem wq_writeTaken (x : UnitState) (c : Fin 12) (r : McReq) :
    (mcOf (writeTaken c r x) c).wq = (mcOf x c).wq ++ [accepted x (mcOf x c) r] := by
  rw [writeTaken, mcOf_modMc]
  exact wq_admitReads _ _ _

theorem blocked_writeTaken (x : UnitState) (c : Fin 12) (r : McReq) :
    ∀ q ∈ (mcOf (writeTaken c r x) c).blocked, q ∈ (mcOf x c).blocked.erase r := by
  rw [writeTaken, mcOf_modMc]
  exact blocked_admitReads _ _ _

-- the oldest issued read returns (12 R368, R370, 13 R386 to R392)
/-- The oldest issued read taken off its list. -/
def readTaken (s : State) (u : UnitId) (c : Fin 12) (rest : List McReq) : State :=
  modUnit s u (fun x => modMc x c (fun m => { m with issued := rest }))

/-- What the outcome of a read does in the state without it. -/
def readEnd (s : State) (u : UnitId) (c : Fin 12) (line : Nat) (o : DramRead) : LineFound → State
  | .clean => s
  | .ce dev synd => foundCe (modUnit s u (fun x => deliverCe x c line dev o)) u c line dev synd false
  | .ue synd => foundBad (modUnit s u (fun x => poisonLine x line 1)) u c line 0 synd false
  | .mark m synd => foundBad (modUnit s u (fun x => poisonLine x line m)) u c line m synd false
  | .late => foundBad (modUnit s u (fun x => poisonLine x line 4)) u c line 4 (markSynd 4) false

/-- A UE, or a mark other than of a retired bank and of late data, has no event source of its own. -/
theorem foundBad_plain (s : State) (u : UnitId) (c : Fin 12) (line : Nat) {mark : BitVec 8} (synd : Nat) (scrub : Bool) (h3 : mark ≠ 3)
    (h4 : mark ≠ 4) : foundBad s u c line mark synd scrub = foundUe s u c line mark synd scrub := by
  rw [foundBad, if_neg h3, if_neg h4]

theorem readEnd_ue (s : State) (u : UnitId) (c : Fin 12) (line : Nat) (o : DramRead) (w : Nat) :
    readEnd s u c line o (.ue w) = foundUe (modUnit s u (fun x => poisonLine x line 1)) u c line 0 w false :=
  foundBad_plain (mark := 0) _ _ _ _ _ _ (by decide) (by decide)

theorem readEnd_mark (s : State) (u : UnitId) (c : Fin 12) (line : Nat) (o : DramRead) {k : BitVec 8} (w : Nat) (h3 : k ≠ 3) (h4 : k ≠ 4) :
    readEnd s u c line o (.mark k w) = foundUe (modUnit s u (fun x => poisonLine x line k)) u c line k w false :=
  foundBad_plain _ _ _ _ _ _ h3 h4

section Returned
variable {s : State} {u : UnitId} {c : Fin 12} {r : McReq} {rest : List McReq} (hi : (mcOf (getUnit s u) c).issued = r :: rest)
include hi

/-- A raw read of the test port under ECC_TEST (13 R392). -/
theorem execReadReturn_raw (hp : r.port = 7) (he : eccTesting (getUnit s u) c = true) (hraw : bitOf (mcReg (getUnit s u) c 0x800) 1 = true)
    (hr : r.retired = false) (hl : (mcOf (getUnit s u) c).late = false) (errs : List SymErr) : execReadReturn u c (.data errs) false s =
      .next (modUnit (readTaken s u c rest) u (fun x => eccTestRead x c r.line errs)) := by
  simp only [execReadReturn, hi, hp, he, hraw, hr, hl]
  rfl

theorem execReadReturn_decoded (hp : r.port ≠ 7 ∨ eccTesting (getUnit s u) c = false) (o : DramRead) (margin : Bool) :
    execReadReturn u c o margin s = .next (readEnd
      (if margin then raiseUnitFree (readTaken s u c rest) u (0x120 + c) else readTaken s u c rest) u c r.line o
      (readOutcome (getUnit s u) c r.line r.retired o)) := by
  have htest : (r.port == 7 && eccTesting (getUnit s u) c && bitOf (mcReg (getUnit s u) c 0x800) 1 && !r.retired &&
      !(mcOf (getUnit s u) c).late) = false := by
    rcases hp with hp | he
    · simp [hp]
    · simp [he]
  simp only [execReadReturn, hi, htest, Bool.false_eq_true, if_false]
  cases readOutcome (getUnit s u) c r.line r.retired o <;> rfl

end Returned

-- refresh and power-down (12 R375, R378)
/-- What a refresh slot does to one channel. -/
def refreshOne (ucc : Nat) (x : UnitState) (c : Fin 12) : UnitState :=
  if 2 * refInterval x c = 0 ∨ (ucc - (mcOf x c).refBase) % (2 * refInterval x c) ≠ 0 ∨ bitsOf (mcReg x c 0x018) 0 3 ≠ 2 ∨
    (mcOf x c).fchgHold then x
  else modMc (setMcReg x c 0x018 (withBit (mcReg x c 0x018) 16 false)) c (fun m => { m with openRow := [], pd := 0 })

theorem execRefreshSlot_at {s s1 : State} {u : UnitId} {ucc : Nat} (ht : timeTo s u ucc = some s1) :
    execRefreshSlot u ucc s = .next (modUnit s1 u (fun x => (List.finRange 12).foldl (refreshOne ucc) x)) := by
  simp only [execRefreshSlot, ht]
  rfl

theorem refreshOne_idle {ucc : Nat} {x : UnitState} {c : Fin 12} (h : (ucc - (mcOf x c).refBase) % (2 * refInterval x c) ≠ 0) :
    refreshOne ucc x c = x := if_pos (.inr (.inl h))

theorem mcOf_refreshOne_ne (ucc : Nat) (x : UnitState) {c d : Fin 12} (h : d ≠ c) : mcOf (refreshOne ucc x c) d = mcOf x d := by
  unfold refreshOne
  split
  · rfl
  · rw [mcOf_modMc_ne _ _ h, mcOf_setMcReg_ne _ _ _ h]

/-- A channel that a refresh slot finds due: at a multiple of twice its interval, READY, in no frequency change. -/
def refreshDue (ucc : Nat) (x : UnitState) (c : Fin 12) : Prop :=
  2 * refInterval x c ≠ 0 ∧ (ucc - (mcOf x c).refBase) % (2 * refInterval x c) = 0 ∧ bitsOf (mcReg x c 0x018) 0 3 = 2 ∧
    (mcOf x c).fchgHold = false

/-- What makes a channel due is its own. -/
theorem refreshDue_of_mcOf {ucc : Nat} {x y : UnitState} {c : Fin 12} (h : mcOf x c = mcOf y c) (hd : refreshDue ucc y c) :
    refreshDue ucc x c := by
  have hreg : ∀ o, mcReg x c o = mcReg y c o := fun o => by rw [mcReg, mcReg, h]
  have hinterval : refInterval x c = refInterval y c := by simp only [refInterval, hreg]
  rwa [refreshDue, hinterval, hreg, h]

/-- A channel whose rows are closed and whose ranks are awake. -/
def refreshed (x : UnitState) (c : Fin 12) : Prop := (mcOf x c).openRow = [] ∧ (mcOf x c).pd = 0

theorem refreshed_refreshOne {ucc : Nat} {x : UnitState} {c : Fin 12} (h : refreshDue ucc x c) : refreshed (refreshOne ucc x c) c := by
  obtain ⟨hn, hm, hst, hf⟩ := h
  rw [refreshed, refreshOne, if_neg (by simp [hn, hm, hst, hf]), mcOf_modMc]
  exact ⟨rfl, rfl⟩

/-- One channel's refresh leaves every other channel refreshed or due as it was. -/
theorem refreshWalk (ucc : Nat) (d : Fin 12) (l : List (Fin 12)) (hl : l.Nodup) (x : UnitState)
    (h : d ∈ l ∧ refreshDue ucc x d ∨ d ∉ l ∧ refreshed x d) : refreshed (l.foldl (refreshOne ucc) x) d := by
  induction l generalizing x with
  | nil =>
    rcases h with ⟨hmem, -⟩ | ⟨-, hd⟩
    · cases hmem
    · exact hd
  | cons c l ih =>
    obtain ⟨hc, hl⟩ := List.nodup_cons.1 hl
    refine ih hl _ ?_
    by_cases hdc : d = c
    · subst hdc
      rcases h with ⟨-, hdue⟩ | ⟨hmem, -⟩
      · exact .inr ⟨hc, refreshed_refreshOne hdue⟩
      · exact absurd List.mem_cons_self hmem
    · have hsame := mcOf_refreshOne_ne ucc x hdc
      rcases h with ⟨hmem, hdue⟩ | ⟨hmem, hdone⟩
      · exact .inl ⟨(List.mem_cons.1 hmem).resolve_left hdc, refreshDue_of_mcOf hsame hdue⟩
      · refine .inr ⟨fun hin => hmem (List.mem_cons_of_mem _ hin), ?_⟩
        rwa [refreshed, hsame]

/-- A rank put into power-down, its rows closed. -/
def rankDown (c : Fin 12) (rank : Fin 4) (x : UnitState) : UnitState :=
  let x := modMc x c (fun m => { m with
    pd := m.pd ||| BitVec.ofNat 4 (2 ^ rank.val), openRow := tabDrop (fun b => bankSlot b == rank.val) m.openRow })
  setMcReg x c 0x018 (withBit (mcReg x c 0x018) 16 true)

theorem execRankPowerDown_idle {s : State} {u : UnitId} {c : Fin 12} {rank : Fin 4} (hp : bitOf (mcReg (getUnit s u) c 0x0D0) 0 = true)
    (hst : bitsOf (mcReg (getUnit s u) c 0x018) 0 3 = 2)
    (hq : (queued (mcOf (getUnit s u) c)).any (fun r => bankSlot r.bank == rank.val) = false) :
    execRankPowerDown u c rank s = .next (modUnit s u (rankDown c rank)) := by
  simp only [execRankPowerDown, hp, hst, hq, Bool.not_true, bne_self_eq_false, Bool.or_self, Bool.false_eq_true, if_false]
  rfl

theorem pd_rankDown (c : Fin 12) (rank : Fin 4) (x : UnitState) :
    (mcOf (rankDown c rank x) c).pd = (mcOf x c).pd ||| BitVec.ofNat 4 (2 ^ rank.val) := by
  rw [rankDown, mcOf_setMcReg, mcOf_modMc]

theorem status_rankDown (c : Fin 12) (rank : Fin 4) (x : UnitState) : bitOf (mcReg (rankDown c rank x) c 0x018) 16 = true := by
  rw [rankDown, mcReg_setMcReg, Generator.bitOf_withBit _ (by decide), if_pos rfl]

-- the end of a hold (12 R379)
/-- A channel neither held nor late. -/
def holdOver (s : State) (u : UnitId) (c : Fin 12) : Prop :=
  (mcOf (getUnit s u) c).fchgHold = false ∧ (mcOf (getUnit s u) c).late = false

/-- A channel out of its hold, late or not, and READY. -/
def unheld (c : Fin 12) (late : Bool) (x : UnitState) : UnitState :=
  setMcReg (modMc x c (fun m => { m with fchgHold := false, late := late })) c 0x018 (withBits (mcReg x c 0x018) 0 3 2)

theorem mcOf_unheld (c : Fin 12) (late : Bool) (x : UnitState) :
    (mcOf (unheld c late x) c).fchgHold = false ∧ (mcOf (unheld c late x) c).late = late := by
  rw [unheld, mcOf_setMcReg, mcOf_modMc]
  exact ⟨rfl, rfl⟩

theorem mcOf_unheld_ne {c d : Fin 12} (late : Bool) (x : UnitState) (h : d ≠ c) : mcOf (unheld c late x) d = mcOf x d := by
  rw [unheld, mcOf_setMcReg_ne _ _ _ h, mcOf_modMc_ne _ _ h]

section Hold
variable {s : State} {u : UnitId} {ready : BitVec 12} {c : Fin 12}

theorem holdEnd_over (h : holdOver s u c) : holdEnd u ready s c = s := by
  obtain ⟨hf, hl⟩ := h
  simp [holdEnd, hf, hl]

theorem holdEnd_ready (h : ¬ holdOver s u c) (hr : ready.getLsbD c.val = true) : holdEnd u ready s c = modUnit s u (unheld c false) := by
  have hheld : ¬ (!(mcOf (getUnit s u) c).fchgHold && !(mcOf (getUnit s u) c).late) = true := by
    simpa [holdOver] using h
  simp only [holdEnd, if_neg hheld, if_pos hr]
  rfl

theorem holdEnd_late (hf : (mcOf (getUnit s u) c).fchgHold = true) (hl : (mcOf (getUnit s u) c).late = false)
    (hr : ready.getLsbD c.val = false) : holdEnd u ready s c = raiseUnitFree (modUnit s u (unheld c true)) u (0x140 + c) := by
  simp only [holdEnd, hf, hl, hr, Bool.not_true, Bool.false_and, Bool.false_eq_true, if_false]
  rfl

/-- A channel that is ready or needs no hold comes out of it, and no other channel goes into one. -/
theorem holdOver_holdEnd (h : ¬ holdOver s u c → ready.getLsbD c.val = true) :
    holdOver (holdEnd u ready s c) u c ∧ ∀ d, holdOver s u d → holdOver (holdEnd u ready s c) u d := by
  by_cases ho : holdOver s u c
  · rw [holdEnd_over ho]
    exact ⟨ho, fun _ hd => hd⟩
  · have hc : holdOver (modUnit s u (unheld c false)) u c := by
      rw [holdOver, Laws.getUnit_modUnit]
      exact mcOf_unheld c false _
    rw [holdEnd_ready ho (h ho)]
    refine ⟨hc, fun d hd => ?_⟩
    by_cases hdc : d = c
    · exact hdc ▸ hc
    · rwa [holdOver, Laws.getUnit_modUnit, mcOf_unheld_ne _ _ hdc]

end Hold

/-- The walk over the channels ends the hold of each that it passes. -/
theorem holdWalk (u : UnitId) (ready : BitVec 12) (l : List (Fin 12)) (s : State)
    (h : ∀ c, ¬ holdOver s u c → ready.getLsbD c.val = true) (c : Fin 12) (hc : c ∈ l ∨ holdOver s u c) :
    holdOver (l.foldl (holdEnd u ready) s) u c := by
  induction l generalizing s with
  | nil => exact hc.resolve_left List.not_mem_nil
  | cons d l ih =>
    obtain ⟨hd, hkeep⟩ := holdOver_holdEnd (h d)
    refine ih (holdEnd u ready s d) (fun e he => h e (fun ho => he (hkeep e ho))) ?_
    rcases hc with hc | hc
    · rcases List.mem_cons.1 hc with rfl | hc
      · exact .inr hd
      · exact .inl hc
    · exact .inr (hkeep c hc)

-- bring-up (12 R369 to R373)
/-- The status of a channel after its bring-up: READY or FAILED, the code, the round trip where it was measured. -/
def bringupStatus (code : Nat) (rt : BitVec 8) : Word :=
  BitVec.ofNat 64 ((if code = 0 then 2 else 5) + 2 ^ 4 * code + 2 ^ 8 * (if code = 0 ∨ 5 ≤ code then rt.toNat else 0))

/-- A bring-up ends with its status, whatever eye edges the sweep recorded. -/
theorem execChannelBringup_status {s : State} {u : UnitId} {c : Fin 12} (spd sw eye f : Bool) (rt : BitVec 8)
    (h : bitsOf (mcReg (getUnit s u) c 0x018) 0 3 = 1) : ∃ t, execChannelBringup u c spd sw eye f rt s = .next t ∧
      mcReg (getUnit t u) c 0x018 = bringupStatus (bringupFail (getUnit s u) c spd sw eye f rt) rt := by
  refine ⟨_, by simp only [execChannelBringup, h, ne_eq, not_true_eq_false, if_false]; rfl, ?_⟩
  rw [Laws.getUnit_modUnit, mcReg_setMcReg]
  rfl

theorem bringupFail_le (x : UnitState) (c : Fin 12) (spd sw eye f : Bool) (rt : BitVec 8) : bringupFail x c spd sw eye f rt ≤ 6 := by
  unfold bringupFail
  dsimp only
  split_ifs <;> decide

theorem bringupStatus_failed {code : Nat} (rt : BitVec 8) (h0 : code ≠ 0) (h6 : code ≤ 6) :
    bitsOf (bringupStatus code rt) 0 8 = 5 + 16 * code := by
  have hrt := rt.isLt
  rw [bringupStatus, bitsOf, BitVec.toNat_ofNat, if_neg h0]
  split <;> omega

-- scrub (13 R394)
theorem execScrubLine_running {s : State} {u : UnitId} {r : ScrubRun} (o : DramRead) (f : FbRead) (hs : (getUnit s u).mem.scrub = some r)
    (he : r.ended = false) (hx : (getUnit s u).executing = true) (hd : (getUnit s u).dropped = false) (hh : (getUnit s u).held = false) :
    execScrubLine u o f s = .next (if isFbAddr (r.base + 64 * r.lines) then scrubFb s u r (r.base + 64 * r.lines) f
      else scrubDram s u r (r.base + 64 * r.lines) o) := by
  simp only [execScrubLine, hs, he, hx, hd, hh, Bool.not_true, Bool.or_self, Bool.false_eq_true, if_false]

/-- The corrected data of a line that ECC_TEST has not stored stand in it already. -/
theorem scrubFixed_plain {x : UnitState} {line : Nat} (h : tabGet chkDef x.mem.dchk line = []) (c : Fin 12) (dev : Nat) (o : DramRead)
    (bs : List Byte) : rewriteFixed (deliverCe x c line dev o) line bs = x := by
  have hdeliver : deliverCe x c line dev o = x := by
    simp only [deliverCe, deliverFixed, h, if_true, ite_self]
  rw [hdeliver, rewriteFixed, if_pos h]

section Scrubbed
variable {s : State} {u : UnitId} {r : ScrubRun} {addr : Nat} {o : DramRead} (hb : bankRetired (getUnit s u) (addr / 64) = false)
include hb

theorem scrubDram_clean (h : readOutcome (getUnit s u) (lineChan (addr / 64)) (addr / 64) false o = .clean) :
    scrubDram s u r addr o = scrubNext s u r false false addr := by
  simp only [scrubDram, hb, h, Bool.false_eq_true, if_false]

theorem scrubDram_ce {dev w : Nat} (h : readOutcome (getUnit s u) (lineChan (addr / 64)) (addr / 64) false o = .ce dev w)
    (hchk : tabGet chkDef (getUnit s u).mem.dchk (addr / 64) = []) :
    scrubDram s u r addr o = scrubNext (foundCe s u (lineChan (addr / 64)) (addr / 64) dev w true) u r true false addr := by
  simp only [scrubDram, hb, h, Bool.false_eq_true, if_false, modUnit, scrubFixed_plain hchk, Laws.setUnit_getUnit]

theorem scrubDram_ue {w : Nat} (h : readOutcome (getUnit s u) (lineChan (addr / 64)) (addr / 64) false o = .ue w) :
    scrubDram s u r addr o = scrubNext (foundUe s u (lineChan (addr / 64)) (addr / 64) 0 w true) u r false true addr := by
  simp only [scrubDram, hb, h, Bool.false_eq_true, if_false]
  rw [foundBad_plain _ _ _ _ _ _ (by decide) (by decide)]

end Scrubbed

/-- The function is unfolded before it is applied, and the offset generalised before its test is read: the kernel would otherwise
evaluate that test, and with it a subtraction of the fieldbook's first address, to decide an equality. -/
theorem scrubFb_clean {s : State} {u : UnitId} {r : ScrubRun} {addr : Nat} (h : fbUnreadable (getUnit s u) (addr - fbFirst) 64 = false) :
    scrubFb s u r addr .clean = scrubNext s u r false false addr := by
  have hbody := Eq.refl scrubFb
  conv_rhs at hbody => delta scrubFb
  rw [hbody]
  beta_reduce
  generalize addr - fbFirst = off at h ⊢
  simp only [h, Bool.false_eq_true, if_false]

-- FINE of every controller (12 R375)
/-- MC_REF of a channel with FINE as the firmware sets it. -/
def fineValue (s : State) (hot : Bool) (c : Fin 12) : Word := withBit (mcReg (foreState s) c 0x0C0) 17 hot

/-- What the firmware does about one channel. -/
def fineOne (hot : Bool) (s : State) (c : Fin 12) : State :=
  if bitOf (mcReg (foreState s) c 0x0C0) 17 = hot then s
  else if isOff s then modBoth s (fun x => mcPend x c 0x0C0 (fineValue s hot c))
  else issueFw s none (.rws (.mcRef c) (fineValue s hot c))

theorem execRefreshFineChange_eq (hot : Bool) (s : State) :
    execRefreshFineChange hot s = .next ((List.finRange 12).foldl (fineOne hot) s) := rfl

/-- The pending value of MC_REF in a unit's controller. -/
def pendingRef (s : State) (u : UnitId) (c : Fin 12) : Option Word :=
  tabGet (fun _ => (none : Option Word)) (mcOf (getUnit s u) c).pendRws 0x0C0

theorem mcReg_mcPend (x : UnitState) (c : Fin 12) (o : Nat) (w : Word) (d : Fin 12) (p : Nat) : mcReg (mcPend x c o w) d p = mcReg x d p := by
  by_cases hdc : d = c
  · subst hdc
    rw [mcReg, mcPend, mcOf_modMc, mcReg]
  · rw [mcReg, mcPend, mcOf_modMc_ne _ _ hdc, mcReg]

section Pending
variable (s : State) (hot : Bool) (c : Fin 12) (w : Word)

/-- A pending value moves no role. -/
theorem roles_pend : Edge.roles (modBoth s (fun x => mcPend x c 0x0C0 w)) = Edge.roles s := by
  rw [modBoth, Edge.roles_modUnit_besides, Edge.roles_modUnit_besides] <;> exact fun x => Edge.besides_modMc _ _ _

theorem mcReg_fore_pend (d : Fin 12) (p : Nat) :
    mcReg (foreState (modBoth s (fun x => mcPend x c 0x0C0 w))) d p = mcReg (foreState s) d p := by
  rw [foreState, Edge.foreUnit_of_roles (roles_pend s c w), Issue.getUnit_modBoth, mcReg_mcPend, foreState]

theorem pendingRef_pend (u : UnitId) : pendingRef (modBoth s (fun x => mcPend x c 0x0C0 w)) u c = some w := by
  rw [pendingRef, Issue.getUnit_modBoth, mcPend, mcOf_modMc, Laws.tabGet_tabSet_same]

theorem pendingRef_pend_ne (u : UnitId) {d : Fin 12} (h : d ≠ c) :
    pendingRef (modBoth s (fun x => mcPend x c 0x0C0 w)) u d = pendingRef s u d := by
  rw [pendingRef, Issue.getUnit_modBoth, mcPend, mcOf_modMc_ne _ _ h, pendingRef]

end Pending

/-- In OFF the walk over the channels leaves FINE pending in each that it passes. -/
theorem fineWalk (hot : Bool) (u : UnitId) (d : Fin 12) (l : List (Fin 12)) (s : State) (hoff : isOff s = true)
    (hne : ∀ c, bitOf (mcReg (foreState s) c 0x0C0) 17 ≠ hot) (h : d ∈ l ∨ pendingRef s u d = some (fineValue s hot d)) :
    pendingRef (l.foldl (fineOne hot) s) u d = some (fineValue s hot d) := by
  induction l generalizing s with
  | nil => exact h.resolve_left List.not_mem_nil
  | cons c l ih =>
    have hstep : fineOne hot s c = modBoth s (fun x => mcPend x c 0x0C0 (fineValue s hot c)) := by
      rw [fineOne, if_neg (hne c), if_pos hoff]
    have hvalue : fineValue s hot d = fineValue (fineOne hot s c) hot d := by
      rw [hstep, fineValue, fineValue, mcReg_fore_pend]
    rw [List.foldl_cons, hvalue]
    refine ih _ ?_ ?_ ?_
    · rw [hstep, Issue.isOff_of_roles (roles_pend s c _), hoff]
    · intro e
      rw [hstep, mcReg_fore_pend]
      exact hne e
    · rw [← hvalue]
      by_cases hdc : d = c
      · subst hdc
        rw [hstep, pendingRef_pend]
        exact .inr rfl
      · rw [hstep, pendingRef_pend_ne _ _ _ _ hdc]
        exact h.imp_left (fun hin => (List.mem_cons.1 hin).resolve_left hdc)

/-- Settles O51: each row by what it does to one controller, and the rows over all twelve by a walk that keeps what is done. -/
theorem dramControllers : Obligations.DramControllers := by
  unfold Obligations.DramControllers
  refine ⟨?issue, ?accept, ?back, ?noSlot, ?slot, ?down, ?holds, ?hold, ?bringup, ?scrub, ?fine, ?fineOff⟩
  case issue =>
    intro s u c now cs s1 r k htime hopen hfirst
    refine ⟨?_, ?_, ?_, ?_⟩
    · rw [Laws.exec_dramCommandIssue, execDramCommandIssue_first htime hopen hfirst]
    · rintro rfl
      exact openRow_issueCmd_activate s1 u c now r
    · rintro rfl
      exact openRow_issueCmd_precharge s1 u c now r
    · rintro rfl
      exact issued_issueCmd_read s1 u c now r
  case accept =>
    intro s u c r m hhead hroom
    refine ⟨_, (Laws.exec_writeAccept u c s).trans (execWriteAccept_room hhead hroom), ?_, ?_⟩
    · rw [Laws.getUnit_modUnit, wq_writeTaken]
    · rw [Laws.getUnit_modUnit]
      exact blocked_writeTaken _ c r
  case back =>
    intro s u c o x r rest hissued s1
    refine ⟨fun hport htest hraw hret hlate errs => ?_, fun hport => ?_⟩
    · exact (Laws.exec_readReturn ..).trans (execReadReturn_raw hissued hport htest hraw hret hlate errs)
    · have hread : ∀ margin, exec (.readReturn u c o margin) s = .next (readEnd
          (if margin then raiseUnitFree s1 u (0x120 + c) else s1) u c r.line o (readOutcome x c r.line r.retired o)) :=
        fun margin => (Laws.exec_readReturn ..).trans (execReadReturn_decoded hissued hport o margin)
      refine ⟨fun hout => ?_, fun hout => ?_, fun dev w hout => ?_, fun w hout => ?_, fun k w h3 h4 hout => ?_⟩ <;>
        rw [hread, hout]
      · rfl
      · rfl
      · rfl
      · exact congrArg Host.Outcome.next (readEnd_ue s1 u c r.line o w)
      · exact congrArg Host.Outcome.next (readEnd_mark s1 u c r.line o w h3 h4)
  case noSlot =>
    intro s u ucc s1 htime hnone
    have hwalk : (List.finRange 12).foldl (refreshOne ucc) (getUnit s1 u) = getUnit s1 u :=
      List.foldlRecOn (motive := fun x => x = getUnit s1 u) _ _ rfl
        (fun x hx c _ => by rw [hx, refreshOne_idle (hnone c).2])
    rw [Laws.exec_refreshSlot, execRefreshSlot_at htime, modUnit, hwalk]
  case slot =>
    intro s u ucc s1 c htime hinterval hmultiple hready hhold
    refine ⟨_, (Laws.exec_refreshSlot u ucc s).trans (execRefreshSlot_at htime), ?_⟩
    rw [Laws.getUnit_modUnit]
    exact refreshWalk ucc c _ (List.nodup_finRange 12) _ (.inl ⟨List.mem_finRange c, hinterval, hmultiple, hready, hhold⟩)
  case down =>
    intro s u c rank x hpd hready hqueue
    refine ⟨_, (Laws.exec_rankPowerDown u c rank s).trans (execRankPowerDown_idle hpd hready hqueue), ?_, ?_⟩
    · rw [Laws.getUnit_modUnit, pd_rankDown]
    · rw [Laws.getUnit_modUnit, status_rankDown]
  case holds =>
    intro s u ready hready
    refine ⟨_, Laws.exec_fchgHoldEnd u ready s, fun c => ?_⟩
    refine holdWalk u ready _ s (fun d hd => hready d ?_) c (.inl (List.mem_finRange c))
    simpa [holdOver, or_iff_not_imp_left] using hd
  case hold =>
    intro s u ready c m
    refine ⟨fun hf hl => holdEnd_over ⟨hf, hl⟩, fun hf hl hr => ⟨_, holdEnd_late hf hl hr, ?_⟩⟩
    rw [Laws.getUnit_modUnit]
    exact (mcOf_unheld c true _).symm
  case bringup =>
    intro s u c spd sw eye f rt x hstarted
    obtain ⟨t, hexec, hstatus⟩ := execChannelBringup_status spd sw eye f rt hstarted
    refine ⟨fun hok => ⟨t, (Laws.exec_channelBringup ..).trans hexec, ?_⟩,
      fun hfail => ⟨t, (Laws.exec_channelBringup ..).trans hexec, ?_⟩⟩
    · rw [hstatus, hok]
      rfl
    · rw [hstatus, bringupStatus_failed rt hfail (bringupFail_le ..)]
  case scrub =>
    intro s u r o x addr hrun hended hexecuting hdropped hheld
    have hline : ∀ f, exec (.scrubLine u o f) s = .next (if isFbAddr addr then scrubFb s u r addr f else scrubDram s u r addr o) :=
      fun f => (Laws.exec_scrubLine u o f s).trans (execScrubLine_running o f hrun hended hexecuting hdropped hheld)
    refine ⟨fun hdram hbank f => ?_, fun hfb hread => ?_⟩
    · rw [hline, hdram]
      exact ⟨fun hout => congrArg Host.Outcome.next (scrubDram_clean hbank hout),
        fun dev w hout hchk => congrArg Host.Outcome.next (scrubDram_ce hbank hout hchk),
        fun w hout => congrArg Host.Outcome.next (scrubDram_ue hbank hout)⟩
    · rw [hline, if_pos hfb, scrubFb_clean hread]
  case fine =>
    intro s hot hsame
    rw [Laws.exec_refreshFineChange, execRefreshFineChange_eq]
    exact congrArg Host.Outcome.next (List.foldlRecOn (motive := fun t => t = s) _ _ rfl
      (fun t ht c _ => by rw [ht, fineOne, if_pos (hsame c)]))
  case fineOff =>
    intro s hot hoff hne
    refine ⟨_, (Laws.exec_refreshFineChange hot s).trans (execRefreshFineChange_eq hot s), fun u c => ?_⟩
    exact fineWalk hot u c _ s hoff hne (.inl (List.mem_finRange c))

end Sys2Proof.Proofs.Controllers
end
